-- ==== Sys2Proof/Word.lean ====
section
/-!
DEFINITION. The word types of the device and the one container the model keeps sparse stores in.

`Map α` is a list of (key, value) pairs in one canonical form (`Map.wf`): keys strictly rising, and no entry
equal to what an unlisted key reads as. Equal contents are therefore equal data.
-/

namespace Sys2Proof

/-- A register (R25): 32 bits. -/
abbrev W32 := BitVec 32
/-- A slot word, a message-port word, a DMB word: 64 bits. -/
abbrev W64 := BitVec 64
/-- A step instruction (R69): 96 bits. -/
abbrev W96 := BitVec 96
/-- A request word, a response window, an accumulator: 128 bits. -/
abbrev W128 := BitVec 128
/-- One byte of DDR. -/
abbrev Byte := BitVec 8

/-- A sparse store: keys strictly rising, no entry equal to the default of its key. -/
abbrev Map (α : Type) := List (Nat × α)

namespace Map

variable {α : Type}

/-- What key `k` holds; `d k` where it is not listed. -/
def get (d : Nat → α) : Map α → Nat → α
  | [], k => d k
  | (j, v) :: m, k => if k = j then v else get d m k

/-- Remove key `k`. -/
def erase (m : Map α) (k : Nat) : Map α := m.filter (fun e => e.1 ≠ k)

/-- List `v` at key `k`. -/
def insert : Map α → Nat → α → Map α
  | [], k, v => [(k, v)]
  | (j, w) :: m, k, v =>
    if k = j then (k, v) :: m else if k < j then (k, v) :: (j, w) :: m else (j, w) :: insert m k v

/-- Write `v` at key `k`; writing the default removes the entry. -/
def set [DecidableEq α] (d : Nat → α) (m : Map α) (k : Nat) (v : α) : Map α :=
  if v = d k then erase m k else insert m k v

/-- The entries whose key lies in `[lo, hi)`. -/
def range (m : Map α) (lo hi : Nat) : Map α := m.filter (fun e => lo ≤ e.1 && e.1 < hi)

/-- The entries whose key lies outside `[lo, hi)`. -/
def without (m : Map α) (lo hi : Nat) : Map α := m.filter (fun e => !(lo ≤ e.1 && e.1 < hi))

/-- Write every pair of a list, the last one of a key winning. -/
def setAll [DecidableEq α] (d : Nat → α) (m : Map α) (l : List (Nat × α)) : Map α :=
  l.foldl (fun m e => set d m e.1 e.2) m

/-- The canonical form. -/
def wf [DecidableEq α] (d : Nat → α) : Map α → Bool
  | [] => true
  | [(k, v)] => decide (v ≠ d k)
  | (k, v) :: (j, w) :: m => decide (v ≠ d k) && decide (k < j) && wf d ((j, w) :: m)

end Map

/-- Bits `[lsb + width - 1 : lsb]` of a number. -/
def bits (n lsb width : Nat) : Nat := (n >>> lsb) % 2 ^ width

/-- `n` with bits `[lsb + width - 1 : lsb]` set to `v`. -/
def putBits (n lsb width v : Nat) : Nat :=
  n - (bits n lsb width) <<< lsb + (v % 2 ^ width) <<< lsb

/-- Bit `i` of a number. -/
def bitOf (n i : Nat) : Bool := n.testBit i

/-- A count that stays at `top` once it is there. -/
def satAdd (top n k : Nat) : Nat := if top ≤ n + k then top else n + k

end Sys2Proof
end

