-- ==== Sys2Proof/Syntax.lean ====
section
/-!
DEFINITION. The commands the device takes: one constructor of `Instr` for each row of spec/opcode_table.json, with
its operands. What the device cannot know by itself (which word arrives, which bit of a memory has flipped, which
pin has moved) is an operand of the command that brings it (log 5).
-/

namespace Sys2Proof

/-- Who makes an access: the initiators of R397, in its numbering. A Badger core is `core k`, k = 0-7; core 0 is
the Warden. -/
inductive Initiator where
  | hostMmio | hostDma | debug | core (k : Nat) | lynx | acq | spoor | fabric | engine
  | self                        -- the device's own writes, which carry 15 with SELF = 1 (R470)
  deriving DecidableEq, Repr

/-- The number R397 gives an initiator. -/
def Initiator.num : Initiator → Nat
  | .hostMmio => 0 | .hostDma => 1 | .debug => 2 | .core k => 3 + k % 8
  | .lynx => 11 | .acq => 12 | .spoor => 13 | .fabric => 14 | .engine => 15 | .self => 15

/-- The memories of R59, the DMB with its undo entries (R152), the ingress buffer of a Lynx bridge (R277), and the maps and
held stores of the system network (R231). -/
inductive EccMem where
  | imem | state | scratch | inbox | outbox | dmb | lynxIn | map | held
  deriving DecidableEq, Repr

/-- A soft error that a check finds in a word (R59, R152): physics, so an operand of the command whose check
finds it. `word` is the word index within the BP's memory, or the bit index for inbox and outbox; for the buffer of a bridge `cluster` is
the bridge, and for a held store the port. -/
structure EccErr where
  mem : EccMem
  cluster : Nat
  bp : Nat
  word : Nat
  double : Bool
  deriving DecidableEq, Repr

/-- A Boolean processor, and the soft error its checks of this step find, if any. -/
structure BpSel where
  cluster : Nat
  bp : Nat
  err : Option EccErr
  deriving DecidableEq, Repr

/-- What every received control ordered set carries besides its own content (R213): the port it arrives on, its
tree (1 A, 2 B, 0 link), its GEN, whether its TYPE is reserved or it holds a code violation, and its CRC-16. ECNs stand
beside it as the set carries them, 48 bits. -/
structure SetHdr where
  port : Nat
  tree : Nat
  gen : Nat
  bad : Bool
  crc : Nat
  deriving DecidableEq, Repr

/-- A write of CMD (R239): who writes it, AUTO and PARAM; the code is the command's own. -/
structure CmdWrite where
  init : Initiator
  auto : Bool
  param : Nat
  deriving DecidableEq, Repr

/-- An access of the internal registers and windows (R24, R25): initiator, internal address less 0x40_0000_0000 (which is
also the BAR0 offset), width in bits. -/
structure RegAcc where
  init : Initiator
  off : Nat
  width : Nat
  deriving DecidableEq, Repr

/-- The straps of R456 as the board sets them; a ball left open reads 0. -/
structure Straps where
  bootMode : Nat := 0
  chainFirst : Bool := false
  port67 : Nat := 0
  tioPullUp : Bool := false
  deriving DecidableEq, Repr

/-- How the link has trained and what the host sets in the function then (R232): lanes, rate in MT/s, max payload and read request
size in bytes, ECRC generation and checking, and whether ASPM L1 is enabled. -/
structure LinkCfg where
  width : Nat
  rate : Nat
  maxPayload : Nat
  maxRead : Nat
  ecrcGen : Bool
  ecrcCheck : Bool
  aspmL1 : Bool
  deriving DecidableEq, Repr

/-- What a DDR access does (R399). -/
inductive DdrKind where
  | read | write | rmw
  deriving DecidableEq, Repr

/-- What has befallen the stored content of DDR and the node cache since the access before (R406, R408), and which nodes the node
cache lets go: the checks of the accesses that follow find it. -/
structure DdrPhys where
  flaky : List Nat          -- lines of DDR whose next MAC check fails the first time and passes the second (R406)
  flips : List (Nat × Byte) -- bytes of DDR whose stored content has changed, and the bits that have
  parity : List Nat         -- DDR lines of nodes whose copy in the node cache has taken a parity error (R408)
  rootParity : List Nat     -- regions whose on-chip root has taken one
  evict : List Nat          -- DDR lines of nodes that leave the node cache (R403)
  deriving DecidableEq, Repr

/-- An event of a Badger core's trace port (R419, R420). -/
inductive TraceEv where
  | branch (taken : Bool)
  | jump (target kind cause : Nat)   -- kind: 0 indirect jump, 1 exception, 2 interrupt, 3 trap return
  | data (addr : Nat) (store : Bool) (size : Nat) (value : W64)
  | resume                           -- the core leaves debug halt
  | wfi                              -- the core waits in WFI
  deriving DecidableEq, Repr

/-- What the arbiter of a link sees of a packet (R384): its virtual channel (0 requests, 1 responses, 2 urgent control), the
time since its injection request in ns, and whether it is on the ring already. -/
structure PktKey where
  vc : Nat
  age : Nat
  onRing : Bool
  deriving DecidableEq, Repr

/-- A ring packet as a stop sees it (R380-R384): a request of initiator `who`, one of whose units it may be (a Lynx bridge; of
the engines 0 the Shale loader, 1 the map loader, 2 the message-port engine), or the response to it; urgent control names its
stop by `unit`. -/
structure Pkt where
  who : Initiator
  unit : Nat
  tag : Nat            -- which of the requests of its source interface
  target : Nat         -- target ID
  key : PktKey
  rivals : List PktKey -- the other packets that wait for the link
  ring : Nat           -- ring and stop of the flit check
  at_ : Nat
  err : Option Bool    -- flit check: single-bit (false) or double-bit (true) error
  wait : Nat           -- injection wait in 10 ns units
  deriving DecidableEq, Repr

/-- A time-exchange set as it arrives (R339): its port, its fields, whether its TYPE or TREE is reserved or it holds a code
violation, its CRC-16, and the sub-nanosecond part of its arrival, in 2^-16 ns (R341). -/
structure ExchSet where
  port : Nat
  tree : Nat           -- 0 A, 1 B
  seq : Nat
  master : Nat
  stamp : Nat          -- 64 bits, as carried
  bad : Bool
  crc : Nat
  frac : Nat
  deriving DecidableEq, Repr

/-- An instruction word that a Badger core executes at `pc`, with the values of the two registers that it names as rs1 and rs2
(R357). -/
structure CoreInst where
  core : Nat
  word : BitVec 32
  rs1 : BitVec 64
  rs2 : BitVec 64
  pc : Nat
  deriving DecidableEq, Repr

/-- What a core does with its caches (R353): a fetch or a load of `n` bytes, a store, or a fence. -/
inductive CacheOp where
  | fetch (n : Nat)
  | load (n : Nat)
  | store (l : List Byte)
  | fence
  | fenceI
  deriving DecidableEq, Repr

/-- A core's access to one of its caches, and what the check of the line finds (R353, R354): the address, the line that the
replacement evicts, the line's index, and the error: in the instruction cache a parity error; in the data cache false
single-bit, true double-bit. -/
structure CacheAcc where
  core : Nat
  op : CacheOp
  addr : Nat
  evict : Option Nat
  index : Nat
  err : Option Bool
  deriving DecidableEq, Repr

/-- A training sequence as a lane receives it (R179): port and physical lane, the symbols 2 to 7 as their fields, and
symbol 15. Symbols 0, 1 and 8 to 14 are the fixed ones. -/
structure Tseq where
  port : Nat
  lane : Nat
  num : Nat            -- symbol 2
  mask : Nat
  role : Nat
  rate : Nat
  device : Nat
  peerPort : Nat
  sum : Nat
  deriving DecidableEq, Repr

/-- What fails a lane (R181): loss of signal, of clock lock, of symbol lock, the coding errors of one deskew interval, or
a marker's skew in symbol times and the markers missed in succession. -/
inductive LaneFault where
  | los | lol | symbolLock
  | violations (invalid disparity : Nat)
  | marker (skew missed : Nat)
  deriving DecidableEq, Repr

/-- What the lanes of a port deliver, up to the end of a frame (R177, R178, R199, R226): by active lane in ascending order its 10-bit
line symbols in the order of their arrival, marker columns among them; the lanes need not be aligned. Of the aligned columns, the
markers taken out, `skip` come before the start code: idle, and sets that rows of their own bring. -/
structure RxFrame where
  port : Nat
  lanes : List (List (BitVec 10))
  skip : Nat
  deriving DecidableEq, Repr

/-- A symbol of the configuration chain (R293): K27.7, K29.7 or a byte. -/
inductive ChainSym where
  | first | last | byte (b : Byte)
  deriving DecidableEq, Repr

/-- The commands: one constructor for each row of the table. -/
inductive Instr where
  -- 02-06: the emulated cycle
  | cycleStart (errs : List EccErr)
  | nop (b : BpSel) | lut (b : BpSel) | send (b : BpSel) | memb (b : BpSel) | arib (b : BpSel)
  | portb (b : BpSel) | probe (b : BpSel) | trigb (b : BpSel) | waitq (b : BpSel) | waitp (b : BpSel)
  | pop (b : BpSel) | mark (b : BpSel) | endBp (b : BpSel) | reservedOpcode (b : BpSel)
  | xqResponse (cluster serial : Nat) (failed : Bool)
  | fabStallWatchdog (cluster : Nat)
  | backgroundPassRead (cluster : Nat) (err : Option Bool)
  | commit (errs : List EccErr)
  | committed (h : SetHdr) (w : Nat)
  | globalSeal (h : SetHdr) (w : Nat)
  | drainWrite (failed : Bool)
  | abortUp (h : SetHdr) (n dev : Nat)
  | abort (h : SetHdr) (n : Nat)
  | rollback (errs : List EccErr)
  | rolledBack (h : SetHdr) (n : Nat)
  | replayGo (h : SetHdr) (n gen : Nat)
  | schedStop (h : SetHdr) (n dev : Nat)
  | schedPause (h : SetHdr) (target : Nat)
  | haltReport (h : SetHdr) (dev : Nat)
  | systemHalt (h : SetHdr) (ecn dev : Nat)
  | haltDrainComplete
  | snapshotCopyDone (bankOnly : Bool) (errs : List EccErr)
  | rewindReport (h : SetHdr) (s : Nat) (refused : Bool) (reason : Nat)
  | rewindGo (h : SetHdr) (s gen : Nat)
  | rewindRestore
  | command (h : SetHdr) (target cseq code param : Nat)
  | commandRelay (h : SetHdr) (target cseq code param : Nat)
  -- 09: run control and the host
  | cmdNone (w : CmdWrite) (code : Nat)
  | loadBegin (w : CmdWrite) | loadEnd (w : CmdWrite) | unload (w : CmdWrite) | run (w : CmdWrite)
  | step (w : CmdWrite) | pause (w : CmdWrite) | rewind (w : CmdWrite) | halt (w : CmdWrite)
  | push (init : Initiator) (ch : Nat) (word : W64)
  | hostOutPop (init : Initiator) (ch : Nat)
  | peek (init : Initiator) (ch : Nat)
  | level (init : Initiator) (ch : Nat)
  | dmaDescriptor (k : Nat) (hostErr : Bool) (data : List Byte)
  | pcieLinkDown

  -- 16: memory protection
  | ddrAccess (who : Initiator) (op : DdrKind) (addr n : Nat) (data : List Byte) (p : DdrPhys)
  | keyLoad (init : Initiator) (slot : Nat) | keyGen (init : Initiator) (slot : Nat)
  | keyZero (init : Initiator) (slot : Nat)
  | regionEnable (init : Initiator) (r word : Nat)
  | initDone (r : Nat)
  | rekey (init : Initiator) (r word : Nat)
  | rekeyPage (r : Nat)
  | cryptLock (init : Initiator)
  -- 17: Spoor
  | start (init : Initiator) | stop (init : Initiator) | trigger (init : Initiator)
  | triggerAmountReached
  | stopped
  | spoorPacket (k : Nat) (ev : TraceEv) (pc : Nat) (machine : Bool)
  | ts
  | spoorDdrError (failed : Bool) (struck : List (Nat × Bool))
  | spoorBufData (init : Initiator) (struck : List (Nat × Bool))
  | scope (init : Initiator) (v : Nat)

  -- 10: Lynx
  | ingressAccept (b : Nat) (w : W64)
  | launch (b : Nat)
  | egressWord (b : Nat) (err : Option Bool)
  | lxEgDisable (init : Initiator) (b : Nat)

  -- 15: rings and scratchpads
  | packet (p : Pkt)
  | ringTargetIsolated (t : Nat)
  | ringTargetRestored (init : Initiator) (t : Nat)
  | fenceReq (stop d : Nat)
  | fenceAck (stop d : Nat)
  | spadAccess (who : Initiator) (bank off n : Nat) (data : Option (List Byte)) (struck : List (Nat × Bool))
  | setAliasWrite (who : Initiator) (bank off n v : Nat) (struck : List (Nat × Bool))
  | clearAliasWrite (who : Initiator) (bank off n v : Nat) (struck : List (Nat × Bool))
  | handover (init : Initiator) (k owner : Nat) (clear : Bool)
  | handoverDone (k : Nat)

  -- 12: acquisition
  | trigInputEvent (pin : Nat) (rising : Bool)
  | arm (init : Initiator)
  | disarm (init : Initiator)
  | pulseEnd (pin : Nat)
  | resAck (init : Initiator) (block seq : Nat)
  | measEnable (init : Initiator) (m : Nat)
  | dspGo (init : Initiator)
  | dspDescriptor

  -- 13: time bases
  | disciplineEdge (pin : Option Nat) (rising : Bool)
  | timeSyncLost
  | setNow (init : Initiator)
  | setAtEdge (init : Initiator)
  | tb0Adj (init : Initiator) (v : Nat)
  | exchangeDue (port tree frac : Nat)
  | sync (x : ExchSet)
  | followUp (x : ExchSet)
  | delayReq (x : ExchSet)
  | delayResp (x : ExchSet)
  | exchLost (port tree : Nat) (parent : Bool)
  | servoHoldover (t : Nat)
  | tb1TargetReturn
  | timerPulse (k : Nat)
  | timerArm (k : Nat)
  | timerCommand (k : Nat)

  -- 14: Badger cores, dispatcher, mailboxes
  | take (d : CoreInst)
  | tryTake (d : CoreInst)
  | ready (d : CoreInst)
  | done (d : CoreInst)
  | defer_ (d : CoreInst)
  | clean (d : CoreInst)
  | cinv (d : CoreInst)
  | cflush (d : CoreInst)
  | dispReady (init : Initiator) (v : Nat)
  | dispTick
  | holdExpiry (t : Nat)
  | policy (init : Initiator) (v : Nat)
  | coreReset (init : Initiator) (k : Nat)
  | coreRun (init : Initiator) (k : Nat) (run : Bool)
  | wordWrite (who : Initiator) (m : Nat) (w : W64)
  | wordRead (who : Initiator) (m : Nat)
  | statusWrite (who : Initiator) (m : Nat) (v : W64)
  | cacheLineCheck (a : CacheAcc)

  -- 07: serial lanes
  | train (init : Initiator) (p : Nat)
  | down (init : Initiator) (p : Nat)
  | tseq1 (t : Tseq)
  | tseq2 (t : Tseq)
  | portUp (p : Nat)
  | laneTrainFail (p : Nat)
  | laneFailure (p n : Nat) (f : LaneFault)
  | los (p n : Nat) (on : Bool)
  | lol (p n : Nat) (on : Bool)
  | lanePllUnlock
  | errInject (init : Initiator) (p n : Nat)
  | cntClr (init : Initiator) (p n : Nat)
  | lanePllLock
  | symbolLock (p n : Nat) (on inverted : Bool)
  | chkLock (p n : Nat) (line : List Bool)

  -- 08: the system network
  | frame (f : RxFrame)
  | receiveWord (p : Nat) (err : Option (Nat × Bool))
  | frameTransmit (p : Nat) (err : Option Bool)
  | ack (h : SetHdr) (seq limit : Nat)
  | nak (h : SetHdr) (seq : Nat)
  | replayTimeout (p : Nat)
  | ackTimer (p : Nat)
  | repeatTimer
  | netTreeSilent (p tree : Nat)
  | deviceDown (h : SetHdr) (ecn dev reason : Nat)
  | triggerUp (h : SetHdr) (ecn origin seq lines : Nat)
  | systemTrigger (h : SetHdr) (ecn origin seq lines : Nat)
  | load (init : Initiator)
  | mapLoadDone
  | swapNow (init : Initiator)
  | mapSwapEcnHi (init : Initiator) (v : Nat)
  | init (p id peer sum : Nat)
  | forerunnerFrame (f : RxFrame)
  | netFrHalt (p id sum : Nat)

  -- 02, 06: loads and the journal
  | imemLoad (init : Initiator) (c : Nat) (withInit : Bool)
  | imemLoadDone (c : Nat)
  | dmLoad (init : Initiator) (c : Nat) (zero : Bool)
  | dmLoadDone (c : Nat)
  | tailSync (init : Initiator)
  | jrnlTrim (init : Initiator) (v : Nat)
  | trimDone

  -- 11: Shale
  | shLoad (init : Initiator) (src : Nat) (flash : List Byte)
  | frameRecord (data again : List Byte)
  | cfgDone (high : Bool)
  | releaseSequence (supplies : List Nat)
  | shSourceError
  | chainByte (c : ChainSym)
  | scrubFrame (err : Option (Option (BitVec 2048))) (self : Option Bool)
  | shLoopLost (j : Nat)
  | loopLock (j pinHz : Nat)
  | vddioExcursion (bank : Nat)
  | registerWindowAccess (a : RegAcc) (write : Option Nat) (answer : Nat)
  | shWinNoResponse (a : RegAcc) (write : Option Nat)

  -- 18: power
  | domainIdleExpiry (d : Nat)
  | domainWake (d : Nat)
  | powLtr (init : Initiator) (g v : Nat)
  | pmbusEn (init : Initiator) (mode : Option Nat)
  | pmbusPoll (mode : Option Nat) (reading : Option (Nat × Nat))
  | powPmbusAlert (status : Option Nat)
  | powPmbusError (command : Nat)
  | powerDecision (maxPs : Nat)
  | sensorReading (n : Nat) (temp : Int)
  | vrefStep (pin centre : Nat)
  | ddrRetrain (sub : Nat) (temp : Int)

  -- 19: resets, start-up, debug, faults
  | coldRstN (straps : Straps)
  | sysRstN (straps : Straps)
  | devRst (init : Initiator) (v : Nat)
  | perstN (asserted : Bool)
  | flr
  | supplyMonitor (vaux vcore vlane : Nat) (straps : Straps)
  | lockTimeout
  | boot (straps : Straps)
  | ddrTrainingDone (good : Bool)
  | imageFetchDone (image : Option (List Byte))
  | extest (pins data : Nat)
  | samplePreload (pins data : Nat)
  | idcode
  | highz
  | clamp
  | bypass (code : Nat)
  | testLogicReset
  | dbgReq (response : BitVec 512)
  | dbgAccess (core : Nat) (write : Bool) (addr data : Nat) (moduleData : Nat) (halt : Option (Nat × Bool))
  | fuseProg (slot : Nat) (hash : BitVec 384) (revoke svn : Nat)
  | dbgAuthChanged (init : Initiator) (level : Nat)
  | faultRecordWrite

  -- 00, 01, 09: accesses of the host and the host link
  | registerWrite (a : RegAcc) (v : Nat)
  | rcRead (a : RegAcc) (err : Option Bool)
  | loReadLatch (a : RegAcc)
  | bar2Access (off n : Nat) (data : Option (List Byte))
  | pcieLinkUp (cfg : LinkCfg)
  | d3hot (on : Bool)
  deriving DecidableEq, Repr

end Sys2Proof
end

