-- ==== Sys2Proof/Config.lean ====
section
/-!
DEFINITION. What the spec leaves open: the free values (no body, so nothing can be proved of one), and the
functions of image verification, which the spec names by their standards and does not define.
-/

namespace Sys2Proof.Config

/-- FREE VALUE (log 7): the n-th value the spec leaves open, 64 bits of it. `State.freeCount` is the n. -/
opaque freeValue : Nat → BitVec 64

/-- FREE VALUE (log 7): the n-th undefined content of a store (an IMEM, DMB or zone after a load that stopped,
R65, R154, R300), read at key `k`. -/
opaque freeContent : Nat → Nat → BitVec 128

/-- The 13 SEC-DED check bits of a frame of Shale (R301): the spec does not name the code. -/
opaque frameCheck : BitVec 2048 → BitVec 13

/-- The random source of R409 and R462: 512 bits of the n-th draw. -/
opaque random : Nat → BitVec 512

/-- The boot ROM (R23): the spec gives no content of it. -/
opaque bootRom : Nat → BitVec 8

/-- SHA-384 of R459 over bytes in order. -/
opaque sha384 : List (BitVec 8) → BitVec 384

/-- The ECDSA P-384 check of R459: public key, signature (r, s) and message digest. -/
opaque ecdsaOk : List (BitVec 8) → List (BitVec 8) → BitVec 384 → Bool

end Sys2Proof.Config
end

