-- ==== Sys2Proof/Machine/Bytes.lean ====
section
/-!
DEFINITION. Byte order and check values: every multi-byte field of the spec lies least significant byte first
(R137, R164, R401), and its CRC-32 is that of IEEE 802.3 (R137, R164, R199, R290).
-/

namespace Sys2Proof.Machine

/-- The `n` bytes of a number, least significant first. -/
def bytesOfNat (v n : Nat) : List Byte := (List.range n).map (fun k => BitVec.ofNat 8 (v / 2 ^ (8 * k)))

/-- The number a list of bytes spells, least significant first. -/
def natOfBytes (l : List Byte) : Nat := l.foldr (fun b n => b.toNat + 256 * n) 0

/-- The bytes of a number with their offsets from `off` up. -/
def bytesAt (off v n : Nat) : List (Nat × Byte) :=
  (List.range n).map (fun k => (off + k, BitVec.ofNat 8 (v / 2 ^ (8 * k))))

/-- The first `n` bytes of a sparse map of bytes. -/
def bytesOfMap (m : Map Byte) (n : Nat) : List Byte := (List.range n).map (fun k => m.get (fun _ => 0) k)

/-- A sparse map of bytes that holds a list from offset 0 up. -/
def mapOfBytes (l : List Byte) : Map Byte :=
  ((List.range l.length).zip l).filter (fun e => e.2 ≠ 0)

/-- Or bytes into a map of bytes. -/
def orBytes (m : Map Byte) (l : List (Nat × Byte)) : Map Byte :=
  l.foldl (fun m e => m.set (fun _ => 0) e.1 (m.get (fun _ => 0) e.1 ||| e.2)) m

/-- One bit of the CRC-32 division, reflected. -/
def crcBit (c : Nat) : Nat := if c % 2 = 1 then (c / 2) ^^^ 0xEDB88320 else c / 2

/-- One byte of the CRC-32 division. -/
def crcByte (c b : Nat) : Nat := (List.range 8).foldl (fun c _ => crcBit c) (c ^^^ b)

/-- CRC-32 of IEEE 802.3 over bytes in order: initial value and final inversion all ones (DEDUCED, log 12). -/
def crc32 (l : List Byte) : Nat := (l.foldl (fun c b => crcByte c b.toNat) 0xFFFF_FFFF) ^^^ 0xFFFF_FFFF

/-- The bytes of `new` where BE is 1, of `old` elsewhere (R147, R157). -/
def mergeBytes (be : Nat) (old new : W64) : W64 :=
  (List.range 8).foldl (fun v k =>
    if be.testBit k then
      (v &&& ~~~(BitVec.ofNat 64 (255 * 2 ^ (8 * k)))) ||| (new &&& BitVec.ofNat 64 (255 * 2 ^ (8 * k)))
    else v) old

end Sys2Proof.Machine
end

