-- ==== Sys2Proof/Machine/Cipher.lean ====
section
/-!
DEFINITION. The ciphers of memory protection (R400, R403, R404): AES-256 (FIPS 197), XTS (IEEE 1619), counter mode, and GMAC (NIST
SP 800-38D). The spec names these standards; what they say is PRESUMED (log 9), as is the byte order in which they take the
spec's keys, counter blocks and vectors: a key's byte k is its bits [8k + 7:8k], and the first byte of a block is its most
significant one.
-/

namespace Sys2Proof.Machine

/-! ## AES-256 (FIPS 197) -/

/-- The S-box: the byte of `b` lies at bits [8b + 7:8b]. -/
def sboxTable : Nat :=
  0x16bb54b00f2d99416842e6bf0d89a18cdf2855cee9871e9b948ed9691198f8e19e1dc186b95735610ef6034866b53e708a8bbd4b1f74dde8c6b4a61c2e2578ba08ae7a65eaf4566ca94ed58d6d37c8e779e4959162acd3c25c2406490a3a32e0db0b5ede14b8ee4688902a22dc4f816073195d643d7ea7c41744975fec130ccdd2f3ff1021dab6bcf5389d928f40a351a89f3c507f02f94585334d43fbaaefd0cf584c4a39becb6a5bb1fc20ed00d153842fe329b3d63b52a05a6e1b1a2c830975b227ebe28012079a059618c323c7041531d871f1e5a534ccf73f362693fdb7c072a49cafa2d4adf04759fa7dc982ca76abd7fe2b670130c56f6bf27b777c63

/-- The inverse S-box, laid out likewise. -/
def invSboxTable : Nat :=
  0x7d0c2155631469e126d677ba7e042b17619953833cbbebc8b0f52aae4d3be0a0ef9cc9939f7ae52d0d4ab519a97f51605fec8027591012b131c7078833a8dd1ff45acd78fec0db9a2079d2c64b3e56fc1bbe18aa0e62b76f89c5291d711af1476edf751ce837f9e28535ade72274ac9673e6b4f0cecff297eadc674f4111913a6b8a130103bdafc1020f3fca8f1e2cd00645b3b80558e4f70ad3bc8c00abd890849d8da75746155edab9edfd5048706c92b6655dcc5ca4d41698688664f6f87225d18b6d49a25b76b224d92866a12e084ec3fa420b954cee3d23c2a632947b54cbe9dec444438e3487ff2f9b8239e37cfbd7f3819ea340bf38a53630d56a0952

/-- The byte that a table holds for `b`. -/
def subByte (table : Nat) (b : Byte) : Byte := BitVec.ofNat 8 (table >>> (8 * b.toNat))

/-- Multiplication by x in the field of AES. -/
def xtime (b : Byte) : Byte := (b <<< 1) ^^^ (if b.msb then 0x1b else 0)

/-- Multiplication in the field of AES by a number below 16. -/
def fieldMul (k : Nat) (b : Byte) : Byte :=
  let b2 := xtime b; let b4 := xtime b2; let b8 := xtime b4
  (if k.testBit 0 then b else 0) ^^^ (if k.testBit 1 then b2 else 0) ^^^ (if k.testBit 2 then b4 else 0) ^^^
    (if k.testBit 3 then b8 else 0)

/-- Byte by byte exclusive or. -/
def xorBytes (a b : List Byte) : List Byte := List.zipWith (· ^^^ ·) a b

/-- One column through the matrix whose first row is `m`. -/
def mixColumn (m : List Nat) (c : List Byte) : List Byte :=
  (List.range 4).map fun i => (List.range 4).foldl (fun x j => x ^^^ fieldMul (m.getD ((j + 4 - i) % 4) 0) (c.getD j 0)) 0

/-- Every column of a block through a matrix. -/
def mixColumns (m : List Nat) (b : List Byte) : List Byte :=
  (List.range 4).flatMap fun c => mixColumn m ((b.drop (4 * c)).take 4)

/-- Row r of a block moves `k * r` columns to the left. -/
def shiftRows (k : Nat) (b : List Byte) : List Byte :=
  (List.range 16).map fun i => b.getD ((i / 4 + k * (i % 4)) % 4 * 4 + i % 4) 0

/-- The words of the key schedule, newest first, after `n` further words. -/
def expandKey : Nat → List (List Byte) → List (List Byte)
  | 0, l => l
  | n + 1, l =>
    let i := l.length
    let t := l.getD 0 []
    let sub (w : List Byte) : List Byte := w.map (subByte sboxTable)
    let t := if i % 8 = 0 then
        xorBytes (sub (t.drop 1 ++ t.take 1)) [(List.range (i / 8 - 1)).foldl (fun b _ => xtime b) 1, 0, 0, 0]
      else if i % 8 = 4 then sub t else t
    expandKey n (xorBytes (l.getD 7 []) t :: l)

/-- The 15 round keys of a key, in order. -/
def roundKeys (k : BitVec 256) : List (List Byte) :=
  let first := (List.range 8).map fun w => (List.range 4).map fun j => BitVec.ofNat 8 (k.toNat / 2 ^ (32 * w + 8 * j))
  let words := (expandKey 52 first.reverse).reverse
  (List.range 15).map fun r => ((words.drop (4 * r)).take 4).flatten

/-- Encryption of one block under the round keys `ks`. -/
def aesEncrypt (ks : List (List Byte)) (b : List Byte) : List Byte :=
  (List.range 14).foldl (fun b r =>
    let b := shiftRows 1 (b.map (subByte sboxTable))
    xorBytes (if r = 13 then b else mixColumns [2, 3, 1, 1] b) (ks.getD (r + 1) [])) (xorBytes b (ks.getD 0 []))

/-- Decryption of one block. -/
def aesDecrypt (ks : List (List Byte)) (b : List Byte) : List Byte :=
  (List.range 14).foldl (fun b r =>
    let b := xorBytes ((shiftRows 3 b).map (subByte invSboxTable)) (ks.getD (13 - r) [])
    if r = 13 then b else mixColumns [14, 11, 13, 9] b) (xorBytes b (ks.getD 14 []))

/-! ## XTS (IEEE 1619) -/

/-- K1 and K2 of a key slot (R409). -/
def keyOne (k : BitVec 512) : BitVec 256 := k.setWidth 256
/-- K2. -/
def keyTwo (k : BitVec 512) : BitVec 256 := (k >>> 256).setWidth 256

/-- The next tweak of a data unit: multiplication by x, the first byte the least significant. -/
def xtsNext (t : List Byte) : List Byte :=
  let v := natOfBytes t
  bytesOfNat (if v < 2 ^ 127 then 2 * v else (2 * v % 2 ^ 128) ^^^ 0x87) 16

/-- The four blocks of a line through XTS under a key slot; the tweak is the line index (R400). -/
def xtsLine (encrypt : Bool) (key : BitVec 512) (line : Nat) (data : List Byte) : List Byte :=
  let ks := roundKeys (keyOne key)
  let t0 := aesEncrypt (roundKeys (keyTwo key)) (bytesOfNat line 16)
  ((List.range 4).foldl (fun (acc : List Byte × List Byte) q =>
    let b := xorBytes ((data.drop (16 * q)).take 16) acc.2
    let b := if encrypt then aesEncrypt ks b else aesDecrypt ks b
    (acc.1 ++ xorBytes b acc.2, xtsNext acc.2)) ([], t0)).1

/-! ## Counter mode and GMAC (R403, R404) -/

/-- `n` bytes of a number, most significant first. -/
def bytesHigh (v n : Nat) : List Byte := (bytesOfNat v n).reverse

/-- The counter block for 16-byte block `q` of data line `line` (R403). -/
def counterBlock (line ctr region q : Nat) : Nat :=
  line % 2 ^ 32 * 2 ^ 96 + ctr % 2 ^ 40 * 2 ^ 56 + region % 16 * 2 ^ 52 + q % 4

/-- A line of a CONF_INT region, encrypted or decrypted: both are the same in counter mode. -/
def ctrLine (key : BitVec 512) (line ctr region : Nat) (data : List Byte) : List Byte :=
  let ks := roundKeys (keyOne key)
  xorBytes data ((List.range 4).flatMap fun q => aesEncrypt ks (bytesHigh (counterBlock line ctr region q) 16))

/-- Multiplication in the field of GHASH, a block as the number whose most significant bit comes first. -/
def ghashMul (x y : Nat) : Nat :=
  ((List.range 128).foldl (fun (a : Nat × Nat) i =>
    (if x.testBit (127 - i) then a.1 ^^^ a.2 else a.1,
      if a.2.testBit 0 then (a.2 / 2) ^^^ (0xE1 * 2 ^ 120) else a.2 / 2)) (0, y)).1

/-- The 96-bit vector of a MAC (R404): of a data line, or of a tree node. -/
def macIv (line ctr region : Nat) (node : Bool) : Nat :=
  line % 2 ^ 32 * 2 ^ 64 + ctr % 2 ^ 40 * 2 ^ 24 + region % 16 * 2 ^ 20 + (if node then 2 ^ 16 else 0)

/-- The least significant 64 bits of GMAC under K2 over at most 64 bytes of authenticated data. -/
def gmac64 (key : BitVec 512) (iv : Nat) (aad : List Byte) : Nat :=
  let ks := roundKeys (keyTwo key)
  let num (b : List Byte) : Nat := natOfBytes b.reverse
  let h := num (aesEncrypt ks (List.replicate 16 0))
  let blocks := (List.range ((aad.length + 15) / 16)).map fun q =>
    num ((((aad.drop (16 * q)).take 16) ++ List.replicate 16 0).take 16)
  let y := (blocks ++ [8 * aad.length * 2 ^ 64]).foldl (fun y b => ghashMul (y ^^^ b) h) 0
  (y ^^^ num (aesEncrypt ks (bytesHigh (iv * 2 ^ 32 + 1) 16))) % 2 ^ 64

end Sys2Proof.Machine
end

