-- ==== Sys2Proof/Machine/State.lean ====
section
/-!
DEFINITION. The state of the device as plain data, the reasons a step can stop, and the state after reset.

`State.csr` holds the content of every register of the spec that is not derived from other state; an unlisted
register holds its reset value (`regReset`). The other fields hold what the spec gives the device besides registers:
memories, queues, the life of the cycle, the link layers, the engines. Defaults of the fields are their reset values.
-/

namespace Sys2Proof.Machine

/-- The reasons a step can end in a fault. No meaning of this model ends in one: the device reports its errors in
records and error responses, and goes on (R24, R469). Safe. -/
inductive Fault where
  /-- Raised by nothing: kept so that the type is not empty. Safe. -/
  | unused
  deriving DecidableEq, Repr

/-- The reasons a step can be refused. -/
inductive Refusal where
  /-- Raised by `exec` for a command that has no meaning yet, by its mnemonic. Safe. -/
  | notModelled (mnemonic : String)
  deriving DecidableEq, Repr

/-- Identity fused into the part (R1, R3) and the DDR the board fits (R510). -/
structure Fuses where
  is9416 : Bool := true
  tempGrade : Nat := 0
  revMajor : Nat := 0
  revMinor : Nat := 0
  ddrBytes : Nat := 0x10_0000_0000
  keyHash : Map (BitVec 384) := []     -- four slots, 0 = blank (R457)
  revoked : Nat := 0
  svnMin : Nat := 0
  straps : Straps := {}                -- as last sampled (R456)
  deriving DecidableEq, Repr

/-- One fault record (R469, R470): 128 bits as its fields; `raw` holds bits [95:24] of a CLAMPED record instead
of TS and ECN. -/
structure Record where
  cls : Nat
  source : Nat
  code : Nat
  ecn : Nat
  ts : Nat
  detail : Nat
  deriving DecidableEq, Repr

/-- The fault ring and the queues of the source blocks (R471). -/
structure Faults where
  queues : Map (List Record) := []      -- key: source block
  ring : Map (Option Record) := []      -- key: position modulo 256
  wpos : Nat := 0
  deriving DecidableEq, Repr

/-- The stall causes in the order of R37, numbered in CL_STATUS.STALL_CAUSE from 1. -/
inductive StallCause where
  | inbox | waitq | waitp | send
  deriving DecidableEq, Repr

/-- A stall of a cluster (R37, R40, R41). -/
structure Stall where
  first : StallCause     -- the cause shown when the stall began
  cause : StallCause     -- the cause shown now
  index : Nat            -- CL_WAIT.WAIT_INDEX
  shown : Nat            -- TB0 when the present cause came to be shown
  began : Nat            -- TB0 when the stall began
  wdDone : Bool          -- its watchdog record is written
  deriving DecidableEq, Repr

/-- What a cluster does: CL_STATUS.PHASE; stalled, rolling back and disabled follow from other state (R67). -/
inductive ClPhase where
  | idle | stepping | waitCommit
  deriving DecidableEq, Repr

/-- A deposited bit with the step and BP whose deposit is taken (R79, R80). -/
structure Deposit where
  val : Bool
  cluster : Nat
  step : Nat
  bp : Nat
  deriving DecidableEq, Repr

/-- An input window (R55, R56, R95, R97): the source in force and the head word latched, with its position. -/
structure Window where
  source : Nat := 0x3F
  word : Option W64 := none
  seq : Nat := 0
  pop : Bool := false
  deriving DecidableEq, Repr

/-- A response on its way to DMRESP (R88). -/
structure DmResp where
  readable : Nat
  arith : Bool
  value : W128
  deriving DecidableEq, Repr

/-- An outstanding XQ tag (R85, R89, R105, R155-R157). `data = none`: no response data. -/
structure XqTag where
  serial : Nat
  fromStep : Nat
  arrived : Bool
  data : Option W128
  issuedAt : Nat
  deriving DecidableEq, Repr

/-- A write request in a write log, and in the pending store (R85, R120, R158). -/
structure XqWrite where
  ecn : Nat
  cluster : Nat
  region : Nat
  word : Nat
  be : Nat
  data : W64
  deriving DecidableEq, Repr

/-- A cluster's state within a cycle (chapters 02, 03, 06). -/
structure Cluster where
  phase : ClPhase := .idle
  step : Nat := 0
  opened : Bool := false                     -- the stall check of the present step is passed
  doneBps : List Nat := []                   -- BPs that have executed the present step
  ended : List Nat := []                     -- BPs that have executed END this cycle (R35)
  inboxRead : List (Nat × Bool) := []        -- inbox bits of the present step as read at its start (R78)
  near : List (Nat × Bool) := []             -- results of the previous step (R42)
  nearNext : List (Nat × Bool) := []         -- results of the present step
  stall : Option Stall := none
  scratch : Map (Option Bool) := []          -- key bp * 1024 + bit; unlisted: not valid (R43)
  next : Map (Option Bool) := []             -- key bp * 256 + bit: next-state bits written (R45)
  sent : List Nat := []                      -- outbox bits sent this cycle (R50)
  windows : Map Window := []                 -- 16 windows
  dmReq : Map (Option Deposit) := []         -- DMB request word (R79, R83)
  xqReq : Map (Option Deposit) := []
  arReq : Map (Option Deposit) := []         -- X in 0-53, Y in 64-117 (R86)
  staging : Map (Option Deposit) := []       -- key channel * 64 + bit (R90)
  pushed : Map (Option W64) := []            -- key channel (R91)
  goDm : List Nat := []                      -- BPs raising GO at the present step
  goXq : List Nat := []
  goAr : List (Nat × Nat) := []              -- BP and mode
  pushNow : List Nat := []                   -- channels pushed at the present step
  retire : List (Nat × Nat) := []            -- BP and tag of the WAITQs of the present step
  dmResp : W128 := 0
  dmFlight : List DmResp := []
  xqResp : W128 := 0
  tags : Map (Option XqTag) := []
  retiredTags : List Nat := []               -- tags retired by a WAITQ this cycle (SCH_WAITQ_NO_REQUEST)
  waitqBad : List (Nat × Nat × Bool) := []   -- WAITQs of the step on no outstanding tag: BP, tag, already retired
  xqSerial : Nat := 0                        -- requests issued; kept from cycle to cycle, so that late responses match none
  dmLog : List (Nat × Nat × W64) := []       -- DMB writes of the cycle: word, BE, WDATA, in issue order
  xqLog : List XqWrite := []
  deriving DecidableEq, Repr

/-- A word to be framed, or held in the receive path: the slot word of R196-R206. -/
structure SlotWord where
  port : Nat             -- the port it goes to, or came from
  slot : Nat
  cycle : Nat
  gen : Nat
  full : Bool            -- FULL or MASKED
  mask : W64
  word : W64
  own : Bool := true     -- assembled here, not relayed
  deriving DecidableEq, Repr

/-- A frame of R199 in a replay buffer. -/
structure Frame where
  seq : Nat
  full : Bool
  gen : Nat
  cycle : Nat
  words : List SlotWord
  retries : Nat := 0
  sent : Bool := false       -- it has been transmitted (R201)
  poisoned : Bool := false   -- it ends in K30.7 (R200)
  deriving DecidableEq, Repr

/-- The link layer of a port (chapter 08). -/
structure Link where
  nextSeq : Nat := 0
  expSeq : Nat := 0
  ackedSeq : Nat := 0            -- LINK_STAT.ACKED_SEQ
  limitSeq : Nat := 63           -- the peer's latest LIMIT_SEQ
  nakSent : Bool := false
  nakSeen : Option Nat := none   -- the expected SEQ of the latest NAK acted on (R214)
  sentAck : Nat := 0             -- TB0 of the latest ACK of the 1 µs timer
  limitTold : Nat := 63          -- LIMIT_SEQ of the latest ACK sent
  lastAck : Nat := 0             -- TB0 when an ACK last advanced
  framer : List SlotWord := []   -- framer queue of 512 words
  replay : List Frame := []
  resend : Nat := 0              -- frames of the replay buffer still to be sent again
  rx : List Frame := []          -- receive buffer of 64 frames
  peerDown : Bool := false
  heardA : Nat := 0              -- TB0 of the latest valid set of tree A, of tree B
  heardB : Nat := 0
  frInit : Nat := 0              -- valid INIT sequences received (R225)
  frCycle : Nat := 0             -- cycle of the previous forerunner frame (R228)
  frRecv : List SlotWord := []   -- forerunner ingress buffer, kept until sealed
  frDone : Nat := 0              -- words of frRecv already delivered in the present execution
  frSend : List SlotWord := []   -- forerunner words held until their seal (R227)
  deriving DecidableEq, Repr

/-- The three map tables of one bank (R196, R204). -/
structure MapBank where
  send : Map W32 := []           -- c * 4096 + e
  recv : Map W32 := []           -- p * 8192 + s
  relay : Map W32 := []
  deriving DecidableEq, Repr

/-- A tree or link message (R214), its content only. -/
inductive Msg where
  | ack (seq limit : Nat)
  | nak (seq : Nat)
  | committed (w : Nat)
  | globalSeal (w : Nat)
  | abortUp (n dev : Nat)
  | abort (n : Nat)
  | rolledBack (n : Nat)
  | replayGo (n gen : Nat)
  | schedStop (n dev : Nat)
  | schedPause (target : Nat)
  | haltReport (dev : Nat)
  | systemHalt (ecn dev : Nat)
  | rewindReport (s : Nat) (refused : Bool) (reason : Nat)
  | rewindGo (s gen : Nat)
  | command (target cseq code param : Nat)
  | commandRelay (target cseq code param : Nat)
  | triggerUp (ecn origin seq lines : Nat)
  | trigger (ecn origin seq lines : Nat)
  | deviceDown (ecn dev reason : Nat)
  deriving DecidableEq, Repr

/-- The system network apart from the links (chapter 08). -/
structure Net where
  gen : Nat := 0
  prevGen : Nat := 0
  prevLimit : Nat := 0
  fence : Option Nat := none
  active : MapBank := {}
  shadow : MapBank := {}                     -- the shadow, or the bank that is retiring
  activeBank : Nat := 0
  busy : Bool := false
  shadowReady : Bool := false
  armed : Option Nat := none                 -- E of an armed swap
  retiring : Option Nat := none              -- E while the old bank retires
  assembly : Map (Option (W64 × W64)) := []  -- key port * 65536 + slot: bits, mask sent
  childA : Map Nat := []                     -- per child port: one above its watermark (0: none)
  childB : Map Nat := []
  acted : List (Nat × Nat × Nat) := []       -- keys of R214 acted on: TYPE, key, GEN
  lastSealUp : Nat := 0                      -- one above the latest GLOBAL_SEAL watermark acted on
  sentUp : Map Nat := []                     -- per tree: one above the latest COMMITTED watermark sent up
  repeats : List (Nat × Msg) := []           -- upward reports unanswered, by tree (R215)
  rolledA : List (Nat × Nat) := []           -- child port (8: this device), n: ROLLED_BACK held
  rolledB : List (Nat × Nat) := []
  rewindA : List (Nat × Nat) := []           -- child port (8: this device), S: successful reports
  rewindB : List (Nat × Nat) := []
  aborts : List (Nat × Nat) := []            -- root: cycle, ABORTs broadcast for it (R131)
  trigSeq : Nat := 0                         -- origin sequence (R222)
  trigOut : List Nat := []                   -- origin sequences whose TRIGGER is awaited
  trigWait : List (Nat × Nat) := []          -- lines and ECN of triggers that wait
  repeatAt : Nat := 0                        -- when the sets of R215 were last repeated
  deriving DecidableEq, Repr

/-- The run-control states, in the numbering of R238. -/
inductive RcState where
  | idle | loading | loaded | running | paused | replaying | halted | fatal
  deriving DecidableEq, Repr

/-- What a cycle start waits for (R121, R123, R139, R252, R268, R273, R323); pace and egress name their bridge. -/
inductive WaitKind where
  | seal | pace (b : Nat) | pending | snapBank | hostOut | egress (b : Nat) | capture
  deriving DecidableEq, Repr

/-- An abort on this device (R125, R130, R132). -/
structure Abort where
  n : Nat                    -- the cycle to roll back to
  since : Nat                -- TB0 of its own detection or of the receipt, whichever came first
  received : Bool            -- ABORT received; else only detected here
  rolled : Bool := false     -- rollback done, ROLLED_BACK sent
  discarded : Nat := 0       -- cycles discarded on this device
  extendedFrom : Option Nat := none
  deriving DecidableEq, Repr

/-- A system command broadcast and not yet in effect (R242-R246). -/
structure Pending where
  code : Nat
  param : Nat
  target : Nat
  cseq : Nat
  deriving DecidableEq, Repr

/-- A snapshot being copied (R138-R140): the content to be saved, as it stood at the start of S. -/
structure SnapJob where
  ecn : Nat
  slot : Nat
  bank : Nat
  bankHeld : Bool := true
  waited : Bool := false                -- its first bank wait is recorded
  content : Map Byte                    -- bytes of the slot from 0x1000 on
  header : Map Byte                     -- bytes of the header before VALID and CRC
  deriving DecidableEq, Repr

/-- A word pushed in a cycle and held until its seal (R92, R118). -/
structure OutWord where
  channel : Nat
  cluster : Nat
  word : W64
  deriving DecidableEq, Repr

/-- A run of qualified cycles that is being averaged (R320). -/
structure AvgRun where
  count : Nat
  ecn : Nat
  tb0 : Nat
  tb1 : Nat
  sums : List Nat            -- of the selected probe words, ascending, modulo 2^64
  trig : Option Nat          -- the trigger cycle, where the run holds it
  deriving DecidableEq, Repr

/-- A measurement channel within its windows (R324, R325). -/
structure MeasRun where
  n0 : Nat
  h : Bool := false
  prev : Nat := 0            -- x of the previous cycle, as bits
  start : Nat := 0
  sum : Int := 0
  sumSq : Nat := 0
  min : Int := 0
  minEcn : Nat := 0
  max : Int := 0
  maxEcn : Nat := 0
  rising : Nat := 0
  firstRise : Nat := 0
  lastRise : Nat := 0
  high : Nat := 0
  edges : Nat := 0
  toggles : Nat := 0
  deriving DecidableEq, Repr

/-- The acquisition state that a rollback returns to its value at the start of the cycle (R309). -/
structure AcqRun where
  cap : Nat := 0                        -- capture state (R318)
  seq : Nat := 0                        -- sequencer state
  cnt : Map Nat := []                   -- counters
  prevX : Map Nat := []                 -- previous x of each comparator
  fresh : Bool := false                 -- armed at this cycle: the previous x is the present one (R313)
  prevE : Nat := 0                      -- E of the previous evaluation
  avg : Option AvgRun := none
  armPos : Nat := 0                     -- ARM_POS
  capture : Nat := 0                    -- which capture since reset it is
  after : Option Nat := none            -- records formed after the trigger record; none: no trigger record yet
  meas : Map (Option MeasRun) := []
  deriving DecidableEq, Repr

/-- What one unsealed cycle keeps, taken at its start (R117, R118, R126), with what its commit added. -/
structure CycleRec where
  ecn : Nat
  bank : Nat := 0                                -- the bank that holds its start state
  acc : Map W128 := []                           -- accumulators at its start
  popped : List Nat := []                        -- sources that lost their head word at its commit
  undo : List (Nat × Nat × W64) := []            -- DMB words written at its commit: cluster, word, content before; newest first
  out : List OutWord := []                       -- pushed words (channels 0-23), in ascending cluster order
  committedAt : Option Nat := none               -- TB0 when COMMITTED was sent; none: not yet
  committed : Bool := false
  acq : AcqRun := {}                             -- acquisition at its start (R309)
  deriving DecidableEq, Repr

/-- The input latch log of one cycle (R117, R128): whether source `src` had a head word at the start, and the windows
that presented it. -/
structure LatchEntry where
  ecn : Nat
  src : Nat
  seq : Option Nat
  windows : List Nat             -- the windows bound to the source then: cluster * 16 + window
  deriving DecidableEq, Repr

/-- Run control and the life of the cycle (chapters 01, 05, 09). -/
structure RunCtl where
  state : RcState := .idle
  inReplay : Bool := false
  variant : Bool := false
  ret : RcState := .idle
  ecn : Nat := 0                 -- the cycle in progress, or the next to begin
  fresh : Bool := true           -- no cycle of the run has begun yet (R334)
  begun : Bool := false          -- cycle `ecn` has begun
  stepping : Bool := false       -- its waits before step 0 are over
  sealNext : Nat := 0            -- every cycle of the run below it is sealed
  runStart : Nat := 0
  pauseAt : Option Nat := none
  stop : Option Nat := none      -- schedule stop held: lowest faulting cycle (R110, R113)
  schedPause : Option Nat := none
  stopLow : Bool := false         -- an abort has discarded the faulting cycle: the pause is at its start (R113)
  waits : List (WaitKind × Nat) := []         -- what the start of `ecn` waits for, each since when
  abort : Option Abort := none
  resume : Option Abort := none  -- an abort whose REPLAY_GO has come and whose replay has not begun (R132)
  halting : Bool := false        -- a halt has reached the device, which has yet to roll back (R133 order 3)
  faults : Map Nat := []         -- SCHEDULE faults by cycle, of its present execution (R109)
  unsaid : Nat := 0              -- of those, the ones that no record tells of yet
  cmd : Option Pending := none
  cseq : Nat := 0                -- CSEQ of the latest system command
  rewindLimit : Nat := 0         -- lambda of the latest REWIND_LIMIT
  rewind : Option Nat := none    -- S of a REWIND whose reports are out, or whose restore runs
  rewindGone : Bool := false     -- the go-ahead is received: the restore runs
  rewindOk : Bool := true
  curBank : Nat := 0
  firstArmed : Bool := false     -- a WITH_INIT load, and no cycle begun since (R73)
  first : Option Nat := none     -- the cycle in which FIRST reads 1
  unsealed : List CycleRec := [] -- ascending
  latch : List LatchEntry := []
  executed : Nat := 0            -- every cycle of the run below it has begun at least once
  reached : Nat := 0             -- one above the highest cycle begun since the run from LOADED (R430)
  again : Bool := false          -- the cycle in progress was begun before, or is re-run in REPLAYING (R430)
  liveLimit : Map Nat := []      -- per source: the position below which REPLAYING presents words
  seenAt : Map Nat := []         -- host-in channel * 2^64 + position: one above the cycle at whose start it was first the head word
  pendingStore : List XqWrite := []
  drainWait : Option Nat := none -- TB0 since which the drain waits for journal space (R165)
  snap : Option SnapJob := none
  trim : Option Nat := none      -- target of a journal trim in progress
  loadBusy : List Nat := []      -- clusters whose IMEM load runs
  loadInit : List Nat := []      -- of those, the ones whose LOAD had WITH_INIT = 1
  dmBusy : List Nat := []
  loadErr : List Nat := []       -- clusters whose IMEM load ended with ERROR since LOAD_BEGIN
  dmErr : List Nat := []
  mapErr : Bool := false
  lastZero : Map Bool := []      -- per cluster: ZERO of the last DMB load (R168)
  deriving DecidableEq, Repr

/-- What a port has put on its lanes: a run of symbol times in which every lane that sends sent K28.5 (and the active lanes K28.3 in
the marker columns due), or the line symbols of one symbol time (R175-R178), of the active lanes in ascending order and then of the
others. -/
inductive Wire where
  | idle (n : Nat)
  | col (l : List (BitVec 10))
  deriving DecidableEq, Repr

/-- The lines of a port (R175, R178); lanes are physical. -/
structure Line where
  txRd : Map Bool := []      -- lanes whose transmitter's running disparity is positive
  rxRd : Map Bool := []      -- the same of the receiver
  since : Nat := 0           -- columns since the previous marker column
  ahead : Nat := 0           -- columns sent whose symbol times have still to pass
  pos : Nat := 0             -- in training: the next symbol of the sequence that repeats
  lag : Map Nat := []        -- by lane: how many symbol times it lags the earliest, as its marker last showed (R178)
  missed : Map Nat := []     -- by lane: markers missed in succession
  frac : Nat := 0            -- the part of a symbol time that has passed, in fs
  viol : Map (Nat × Nat) := []   -- by lane: code violations of the present deskew interval, and when it began
  out : List Wire := []      -- what has been sent, the model's own record
  deriving DecidableEq, Repr

/-- What left the device, in order (log 5): the model's own output record. -/
inductive TxItem where
  | set (port tree copies gen : Nat) (m : Msg)             -- control ordered set (R213-R215)
  | frame (port : Nat) (f : Frame) (resent : Bool)
  | frSeq (port kind a b : Nat)                            -- forerunner sequence (R225)
  | msix (vector : Nat)
  | hostWrite (addr : Nat) (data : List Byte) (ecrc : Bool) -- a memory write to the host, a memory read of it (R232)
  | hostRead (addr n : Nat) (ecrc : Bool)
  | lynxWord (bridge : Nat) (word : W64) (last : Bool)
  | pulse (pin ns : Nat)                                   -- TRIG[k], 8: STAR_TRIG_OUT (R316)
  | exch (port typ tree seq master stamp : Nat)            -- time-exchange set (R339)
  | tseq (port lane : Nat) (syms : List Nat)               -- TSEQ1 or TSEQ2 on a lane: its symbols 1 to 15 (R179)
  | bitError (port lane : Nat)                             -- one transmitted bit is inverted (R189)
  | laneBits (port lane : Nat) (bits : List Bool)          -- what a lane under test transmits (R188, R189)
  | shWindow (off : Nat) (value : Option Nat)              -- an access that Shale sees in its register window: RW_ADDR, and
                                                           -- RW_WDATA with RW_WE; none: RW_RE (R287)
  | epr (lane : Nat) (data : W64) (k cv : Nat)             -- a receive word of an edge lane (R285)
  | eprLock (lane : Nat) (on : Bool)                       -- EPR_LOCK of an edge lane as Shale sees it (R285)
  | flashRead (mode mhz : Nat) (cmd : List Nat) (addr dummy n : Nat)  -- a read of the flash (R292)
  | chain (c : ChainSym)                                   -- CFG_DOUT (R293)
  | pmbus (command value : Nat)                            -- a write to the regulator (R441, R443)
  | ringError (src target tag : Nat)                       -- an error response to a parked request (R393)
  | completerAbort                                         -- Completer Abort to the host (R371)
  deriving DecidableEq, Repr

/-- What the latest access returned to its initiator: the data, and whether it was an error response. -/
structure Bus where
  data : Nat := 0
  err : Bool := false
  deriving DecidableEq, Repr

/-- How a 64-byte line of DDR is stored (R400; log 9): no entry means as written. -/
inductive LineTag where
  | conf (key : BitVec 512)                    -- CONF under this key
  | int (key : BitVec 512) (region : Nat)      -- CONF_INT data line under this key
  | metadata (key : BitVec 512) (region base pages : Nat) -- a line of a CONF_INT metadata area: where the area begins, and the
                                               -- number of data pages before it
  deriving DecidableEq, Repr

/-- A CONF_INT write that waits for the re-key of its page (R413). -/
structure WaitWrite where
  who : Initiator
  line : Nat
  data : List (Nat × Byte)   -- offsets in the line
  deriving DecidableEq, Repr

/-- Memory protection (chapter 16), apart from its registers. What DDR holds of the metadata follows from it: the counters of
`ctrs` and `nodes`, but where `stale` lists a node, and the MACs of the stored lines, but where `macs` lists one. -/
structure Crypt where
  keys : Map (BitVec 512) := []                -- 32 key slots
  tags : List (Nat × Nat × LineTag) := []      -- line ranges [lo, hi), disjoint
  ctrs : Map Nat := []                         -- data-line counters of CONF_INT lines
  macs : Map (Option Nat) := []                -- MACs that stand in DDR for data lines CRYPT did not write last
  nodes : Map Nat := []                        -- counters of the tree nodes, by the line that stores the node; the parent
                                               -- holds them (R402, R403)
  gens : List Nat := []                        -- lines of nodes whose KEY_GEN is 1 (R411)
  stale : Map (List Nat) := []                 -- by the line of a node changed since it was written to DDR: the counters there
  cache : Map (Option (Nat × Nat)) := []       -- the node cache (R408): by cache line, the DDR line of the node, its region
  parity : List Nat := []                      -- DDR lines of cached nodes that hold a parity error not yet found
  rootBad : List Nat := []                     -- regions whose on-chip root holds one
  flaky : List Nat := []                       -- DDR lines whose next check fails once (R406)
  roots : Map (List Nat) := []                 -- by region: the counters that the on-chip root holds (R402)
  waits : List WaitWrite := []
  byEnd : List Nat := []                       -- regions whose re-key a counter end asked for
  deriving DecidableEq, Repr

/-- Spoor (chapter 17), apart from its registers. -/
structure Spoor where
  pos : Nat := 0                   -- stream position
  lastSync : Nat := 0              -- position of the previous SYNC
  buf : Map Byte := []             -- on-chip buffer, 1 MiB, with DDR = 0
  queue : List Byte := []          -- the queue in front of the DDR ring, with DDR = 1
  atoms : Map (List Bool) := []    -- outcomes of each core's pending ATOM, oldest first
  lost : Map Nat := []             -- packets lost per SRC since its last OVERFLOW
  upsets : List (Nat × Bool) := [] -- 64-bit words of the buffer that hold an error no read has found: double-bit (R425)
  resumed : List Nat := []         -- cores back from debug halt whose ISYNC is owed (R419)
  trigAt : Nat := 0                -- TB0 at order 1 of the trigger
  trigEnd : Nat := 0               -- stream position after the TRIGGER packet
  tsAt : Nat := 0                  -- TB0 of the latest TS
  err : Bool := false              -- the trace stops with ERROR
  deriving DecidableEq, Repr

/-- One ingress entry (R257). The whole acceptance times stand beside the 32 bits that DDR holds. -/
structure LxEntry where
  word : W64
  tb0 : Nat
  tb1 : Nat
  ecn : Nat := 0xFFFF_FFFF      -- the cycle that consumed it, low 32 bits, from its seal on
  deriving DecidableEq, Repr

/-- One egress frame (R270): MODE, its data words not yet passed, when it was released on each base, and the earliest
launch time it took then, which it keeps (R271, R274). -/
structure LxFrame where
  ecn : Nat
  mode : Nat
  due : Int                    -- in ns
  base : Nat                   -- the base of `due`: 0 TB0, 1 TB1
  pos : Nat                    -- place of its next word: how many words the buffer took before it
  words : List W64
  rel0 : Nat
  rel1 : Nat
  cut : Bool := false          -- it ends without LAST (R274)
  deriving DecidableEq, Repr

/-- The Lynx bridges (chapter 10), apart from their registers; keys are bridge numbers. -/
structure Lynx where
  entries : Map (Option LxEntry) := []    -- key b * 2^64 + position: the entries the channel still holds
  keep : Map Nat := []                    -- KEEP_POS in effect (it takes effect on the write of _HI)
  present : List Nat := []                -- channels that present their head word in the cycle
  headAt : Map Nat := []                  -- HEAD_POS at the start of the cycle
  bpSince : Map (Option Nat) := []        -- TB0 since which READY is held low for lack of space
  waiting : Map (List LxFrame) := []      -- released frames, in ECN order
  current : Map (Option LxFrame) := []    -- the frame in progress
  last0 : Map Nat := []                   -- TB0, and TB1, when the latest frame passed its last word
  last1 : Map Nat := []
  egPos : Map Nat := []                   -- words put into the egress buffer
  deriving DecidableEq, Repr

/-- A request on a ring, delivered to its target and not yet answered (R385), or parked (R388). -/
structure RingReq where
  src : Nat                  -- stop of its source interface
  target : Nat
  tag : Nat                  -- which of the requests of its source it is
  dom : Option Nat           -- the power domain of its initiator (R387)
  down : Bool                -- the route it was injected with (R382): its ring, false 0, true 1
  hops : Nat
  since : Nat
  stale : Bool := false      -- issued before an isolation: its response is discarded (R385, R386)
  deriving DecidableEq, Repr

/-- The rings (chapter 15), apart from their registers. -/
structure Ring where
  flights : List (RingReq × Bool) := []  -- requests, and (true) responses to them, on a ring
  outst : List RingReq := []
  parked : List RingReq := []            -- the park buffers, in arrival order (R388)
  fencing : List (Nat × Nat) := []       -- stop and domain: FENCE_REQ received, FENCE_ACK not yet sent
  fences : List (Nat × Nat) := []        -- stop and domain: FENCE_ACK sent
  deriving DecidableEq, Repr

/-- The scratchpad banks (chapter 15), apart from their registers. -/
structure Spad where
  mem : Map Byte := []                          -- key bank * 2^18 + offset
  bad : List Nat := []                          -- 64-bit words (byte key / 8) that hold a double-bit error
  soft : List Nat := []                         -- 64-bit words that hold a single-bit error no access has found (R392)
  handover : Map (Option (Nat × Bool)) := []    -- per bank: new owner and CLEAR of the handover in progress
  deriving DecidableEq, Repr

/-- A record formed and not yet written (R321, R322). -/
structure AcqRec where
  data : List Byte
  armPos : Nat
  capture : Nat                         -- the capture that formed it
  trig : Option Nat                     -- the trigger cycle, where the record carries the trigger
  last : Bool                           -- it is record TRIG_POS + POST
  deriving DecidableEq, Repr

/-- What acquisition holds for the seal of one cycle (R309, R316, R326). -/
structure AcqHeld where
  ecn : Nat
  recs : List AcqRec := []
  out : Nat := 0
  star : Bool := false
  sys : Nat := 0
  blocks : List (Nat × List (Nat × Nat) × Bool) := []   -- channel; register offset and value; REPLAY
  deriving DecidableEq, Repr

/-- An arm, a disarm or the enabling of a measurement channel, bound to a cycle start (R319, R324). -/
inductive AcqBindKind where
  | arm (lowest : Nat)
  | disarm
  | meas (m : Nat)
  deriving DecidableEq, Repr

/-- A binding: the cycle start at which it took effect, none while it waits for one. -/
structure AcqBind where
  kind : AcqBindKind
  at_ : Option Nat := none
  deriving DecidableEq, Repr

/-- The block that waits behind the one shown, and SEQ (R326); key 0-3 the channels, 4 the DSP. -/
structure ResBlock where
  seq : Nat := 0                                          -- SEQ of the latest block completed
  wait : Option (Nat × List (Nat × Nat) × Nat) := none    -- SEQ, registers, other RES_STAT bits
  lostNoted : Bool := false
  deriving DecidableEq, Repr

/-- The measurement DSP (R327-R330). -/
structure Dsp where
  index : Nat := 0
  addr : Nat := 0
  acc : List Int := [0, 0, 0, 0]
  mx : Option Nat := none
  maxMag : Nat := 0
  bexp : Nat := 0              -- bexp_total
  scanExp : Int := 0           -- bexp of the latest BSCAN
  sat : Bool := false
  min : Int := 0
  max : Int := 0
  minIdx : Nat := 0
  maxIdx : Nat := 0
  deriving DecidableEq, Repr

/-- The acquisition engine (chapter 12), apart from its registers. -/
structure Acq where
  run : AcqRun := {}
  ext : List (Nat × Nat) := []          -- external-event words of the unsealed cycles (R311)
  extNext : Nat := 0                    -- external events not yet assigned to a cycle
  held : List AcqHeld := []             -- ascending
  binds : List AcqBind := []            -- in the order of their writes
  blocks : Map ResBlock := []
  sysIn : Option (Nat × Nat) := none    -- lines and ECN of the latest system trigger passed to the sequencer (R222)
  pulses : Map (Option Nat) := []       -- end of the pulse on TRIG[k], 8: STAR_TRIG_OUT (R316)
  dsp : Dsp := {}
  deriving DecidableEq, Repr

/-- A time-exchange servo (R338-R342). -/
structure Servo where
  state : Nat := 0                 -- 0 OFF, 1 ACQUIRING, 2 LOCKED, 3 HOLDOVER (R342)
  known : Bool := false            -- an exchange has completed since OFF
  est : Int := 0                   -- its estimate of master time, in 10^-9 ns
  rate : Int := 0                  -- against TB0, in ppb
  delay : Int := 0                 -- filtered path delay, in 2^-16 ns
  good : Nat := 0                  -- successive exchanges with a small offset error
  poor : Nat := 0                  -- successive exchanges with a large one
  last : Nat := 0                  -- when the latest exchange completed
  deriving DecidableEq, Repr

/-- An exchange in progress on the parent's side (R340); key port * 2 + tree. -/
structure ExchParent where
  seq : Nat
  began : Nat
  asym : Int := 0            -- RX_PS as the exchange began (R341)
  deriving DecidableEq, Repr

/-- An exchange in progress on the child's side; stamps in 2^-16 ns. -/
structure ExchChild where
  port : Nat
  seq : Nat
  began : Nat
  t2 : Int
  t1 : Option Int := none
  t3 : Int := 0
  asym : Int := 0            -- TX_PS as the exchange began (R341)
  deriving DecidableEq, Repr

/-- The time bases (chapter 13), apart from their registers. -/
structure TimeBase where
  clock : Nat := 0                 -- TB0 increments since reset, in ns: what durations count (R335)
  tb0 : Nat := 0                   -- TB0, in ns
  frac : Nat := 0                  -- its fraction, in 10^-9 ns
  rate : Int := 0                  -- increment correction, in ppb
  slew : Int := 0                  -- what TB0_ADJ has still to slew, in 10^-9 ns
  edges : Nat := 0                 -- successive edges with a small error
  lastEdge : Nat := 0
  lostNoted : Bool := false
  setAt : Option Nat := none       -- when SET_NOW was last written, on `clock` (R348)
  tb1 : Nat := 0                   -- TB1 output, in ns
  tb1Frac : Nat := 0
  started : Bool := false          -- TB1 has been locked since reset (R344)
  tb1Locked : Bool := false        -- TB1 is locked to a master
  target : Nat := 0
  slewing : Bool := false
  aLocked : Option Nat := none     -- since when servo A has been LOCKED (R343)
  holdRate : Int := 0              -- the rate of the last target TB1 was locked to (R344)
  servoA : Servo := {}
  servoB : Servo := {}
  exchP : Map (Option ExchParent) := []
  exchC : Map (Option ExchChild) := []   -- key: tree
  dueAt : Map Nat := []            -- when an exchange last fell due; key port * 2 + tree
  seqs : Map Nat := []             -- SEQ of the next exchange
  noted : List Nat := []           -- port * 2 + tree of the mismatches recorded
  tmrTime : Map Nat := []          -- TMR_TIME in effect
  tmrPeriod : Map Nat := []
  late : List Nat := []            -- timers that are to fire with TIME_TIMER_LATE
  skip : List Nat := []            -- those whose time a forward step has passed
  deriving DecidableEq, Repr

/-- A power domain (R436-R440): below RUN and HOLD, or on the way there. -/
structure Domain where
  level : Nat := 0             -- 0: RUN or HOLD, 2 RETAIN, 3 OFF
  idle : Nat := 0              -- since when it has had no work
  goal : Option Nat := none    -- the handshake of R387 runs toward this state
  deriving DecidableEq, Repr

/-- Power, the regulator link and the adaptive loops (chapter 18), apart from their registers. -/
structure Power where
  doms : Map Domain := []
  stale : Bool := true           -- the reading is stale (R441)
  setMv : Option Nat := none     -- the setpoint last written
  voutExp : Nat := 0             -- the exponent last read from VOUT_MODE, 5 bits in two's complement (R441)
  pmbusFail : Bool := false      -- a failed transaction is being retried
  polledAt : Nat := 0
  failedAt : Nat := 0
  energyRest : Nat := 0          -- energy not yet counted in ENERGY, in 10 nJ
  owed : List Nat := []          -- PMBus commands still to be made, or to be made again after a failure (R441)
  samples : List (Nat × Nat) := []  -- the readings of the latest 100 µs: time, mW (R442)
  decidedAt : Nat := 0
  overSince : Nat := 0                -- since when P has exceeded the cap at level 7 (R444)
  overOn : Bool := false
  unreachNoted : Bool := false
  sensorNoted : List Nat := []   -- sensors whose fault is recorded
  ddrAt : Map Nat := []          -- per subchannel: its previous retraining
  ddrTemp : Map Int := []        -- and the temperature of then, in 0.25 °C
  ddrCount : Nat := 0            -- retraining bursts run
  vrefMoved : Map Nat := []      -- per pin: when its CODE last moved
  deriving DecidableEq, Repr

/-- A Badger core (chapter 14): what the Dvorbeng instructions, the dispatcher, the trace and the debug path see of it, and the
registers of the RISC-V specifications that they reach (log 8). -/
structure Core where
  state : Nat := 0              -- 0 reset; 1 running; 2 waiting in TAKE; 3 WFI; 4 debug halt
  since : Nat := 0              -- when it entered TAKE
  task : Option Nat := none     -- the task it holds
  rd : Nat := 0                 -- the destination of its latest TAKE or TRYTAKE
  x : Map W64 := []             -- integer registers x1-x31 as the Dvorbeng instructions have left them
  pc : Nat := 0                 -- as its trace port or its latest Dvorbeng instruction last showed it
  machine : Bool := true
  mepc : Nat := 0               -- of its latest illegal-instruction exception, or interrupt of a wait
  mcause : Nat := 0
  mtval : Nat := 0
  epoch : Nat := 0              -- reset epoch (R371)
  deriving DecidableEq, Repr

/-- A cache line of a core (R352-R354). -/
structure CacheLine where
  data : Map Byte
  dirty : Bool
  deriving DecidableEq, Repr

/-- A task descriptor apart from CFG and TAG (R358). -/
structure Task where
  state : Nat := 1              -- while VALID: 1 IDLE, 2 READY, 3 DELAYED, 4 RUNNING
  core : Nat := 0               -- the core it runs on
  last : Option Nat := none     -- LAST_CORE
  pending : Bool := false
  held : Option Nat := none     -- the tick at which its hold began (R361)
  deadline : Nat := 0
  deriving DecidableEq, Repr

/-- A mailbox (R370). -/
structure Mbox where
  word : W64 := 0
  full : Bool := false
  collision : Bool := false
  lost : Bool := false
  lostCount : Nat := 0
  sender : Nat := 0
  senderEpoch : Nat := 0
  deriving DecidableEq, Repr

/-- Badger cores, dispatcher and mailboxes (chapter 14), apart from their registers. -/
structure Badger where
  cores : Map Core := []
  icache : Map (Option CacheLine) := []     -- key core * 2^34 + address / 64
  dcache : Map (Option CacheLine) := []
  hostEpoch : Nat := 0
  dbgEpoch : Nat := 0
  tasks : Map Task := []
  ready : List Nat := []                    -- READY tasks in the order in which they became READY
  delayed : List Nat := []                  -- DELAYED tasks in the order of their DEFERs
  tick : Nat := 0
  tickAt : Nat := 0                         -- when the tick last advanced
  boxes : Map Mbox := []
  deriving DecidableEq, Repr

/-- Training of a port (R179-R184), apart from the registers. -/
structure Port where
  first : Bool := true             -- the training is a first training
  since : Nat := 0                 -- when order 1 of R180 last began
  counts : Map Nat := []           -- successive valid TSEQ1, by lane
  ready : Nat := 0                 -- ready lanes
  offered : Nat := 0               -- the peer's offered mask
  agreed : Nat := 0                -- the agreed set
  was : Nat := 0                   -- the agreed set with which the port was last UP
  peer : Nat := 0                  -- PORT_PEER as its TSEQs name it
  mismatch : Nat := 0              -- cause of a failure: 1 RATE, 2 ROLE, 3 lane number
  failNoted : Bool := false        -- LANE_TRAIN_FAIL is written
  fault : Option (Nat × Nat) := none  -- lane and cause of the failure that the retraining follows
  fails : List Nat := []           -- when lanes of the agreed set failed since the port was UP
  due : Option Nat := none         -- a lane has failed: when the retraining begins (R180 order 1)
  second : Bool := false           -- TSEQ2 is being sent (R180 order 4)
  follows : Bool := false          -- the retraining follows a lane failure at the other end
  deriving DecidableEq, Repr

/-- The PRBS generator and checker of a lane (R189). -/
structure LaneTest where
  gen : List Bool := []        -- the latest bits of the generator, newest first; [] before its first bit
  inject : Bool := false       -- the next bit goes out inverted
  ref : List Bool := []        -- the checker's sequence, newest first: bits received while it seeds itself, then its own
  good : Nat := 0              -- error-free bits since it seeded itself, before lock
  errs : List Bool := []       -- under lock, the errors of the latest 128 bits, newest first
  deriving DecidableEq, Repr

/-- The host link and the message ports (chapters 01, 09, 19), apart from their registers. -/
structure HostLink where
  up : Bool := false               -- the link has trained
  d3hot : Bool := false
  keep : Map Nat := []             -- KEEP_POS in effect (it takes effect on the write of _HI)
  perst : Bool := false            -- PERST_N is asserted
  maxPayload : Nat := 128          -- the settings of the function (R232): max payload size, in bytes
  maxRead : Nat := 512             -- max read request size
  ecrcGen : Bool := false          -- AER: ECRC generation
  ecrcCheck : Bool := false        -- ECRC checking
  aspmL1 : Bool := false           -- ASPM L1 is enabled
  width : Nat := 0                 -- lanes of the trained link; 0 while it is down
  rate : Nat := 0                  -- its rate in MT/s
  aerAbort : Bool := false         -- a Completer Abort is logged
  released : Option Nat := some 0  -- when PERST_N, or COLD_RST_N, was deasserted and training has not begun (R453)
  deriving DecidableEq, Repr

/-- A load of Shale in progress (R291-R300). -/
structure ShLoad where
  src : Nat                    -- 0 FLASH, 1 DDR, 2 CHAIN
  phase : Nat := 0             -- 0 preamble awaited, 1 header awaited, 2 frames, 3 CFG_DONE awaited, 4 release
  zone : Option Nat := none    -- none: a full load
  count : Nat := 0             -- FRAME_COUNT
  next : Nat := 0              -- frame records taken
  done : List Nat := []        -- the frames it has written
  addr : Nat := 0              -- where the bitstream lies
  sync : Bool := false         -- SYNC_DONE
  seq : Nat := 0x1234          -- release order in force
  steps : List Nat := []       -- release steps still to be performed
  since : Nat := 0             -- when the LOCK step began
  again : Bool := false        -- a release without loading (R306)
  boot : Bool := false         -- started by the boot ROM: the bitstream lies where the preamble says (R292)
  deriving DecidableEq, Repr

/-- How Shale, or one zone, is held (R297, R300). -/
structure ShHold where
  resets : Bool                -- flip-flops held in set or reset
  writes : Bool                -- block-memory writes disabled
  outputs : Bool               -- pins high-impedance, interfaces closed, boundary signals at PARK
  park : BitVec 256 := 0
  deriving DecidableEq, Repr

/-- What the user logic of a scope holds (R278): its flip-flops, block memories and boundary signals. The spec does not say
what user logic computes (R278, log 8). -/
structure ShUser where
  seed : Nat := 0              -- the number of the undefined content that what it has computed reads as (log 7)
  clocked : Bool := false      -- it has run since its release: flip-flops no longer have the values they were held at
  deriving DecidableEq, Repr

/-- What is stored with a frame for the scrubber (R301). -/
structure FrameGuard where
  check : BitVec 13            -- SEC-DED check bits
  crc : Nat                    -- its CRC-32 in the hard table
  deriving DecidableEq, Repr

/-- The flash preamble in use, apart from SH_FLASH_STAT (R292). -/
structure Preamble where
  cmd : Nat := 0x03            -- read command
  dummy : Nat := 0             -- dummy cycles
  first : Nat := 0             -- byte address of the first bitstream
  chain : Nat := 0             -- CHAIN_COUNT
  deriving DecidableEq, Repr

/-- A symbol that an edge lane delivers to Shale: byte, K flag, code violation (R173). -/
structure EprSym where
  byte : Nat
  k : Bool
  cv : Bool
  deriving DecidableEq, Repr

/-- Shale (chapter 11), apart from its registers. -/
structure Shale where
  frames : Map (BitVec 2048) := []     -- configuration memory by linear frame index (R288)
  guards : Map FrameGuard := []        -- what the scrubber checks them by; unlisted: that of a cleared frame
  lost : Map (Option Nat) := []        -- zones whose content is undefined (R296), and the number of that content
  user : Map ShUser := []              -- key 0-7 the zones, 8 the static region
  load : Option ShLoad := none
  exit : Option ShLoad := none         -- the release without loading on the exit from RETAIN (R306)
  holds : Map ShHold := []             -- key 0-7 the zones, 8 all of Shale
  cfgReleased : Bool := false          -- the device no longer holds CFG_DONE low (R294)
  lastSeq : Nat := 0x1234              -- release order of the latest full load
  bad : List Nat := []                 -- frames recorded as uncorrectable (R302)
  scrubOn : Bool := true
  scrubPos : Nat := 0                  -- the next frame of the pass
  passAt : Nat := 0                    -- when the pass began
  preamble : Preamble := {}
  eprLock : List Nat := []             -- edge lanes whose EPR_LOCK reads 1 to Shale (R285)
  epr : Map (Option (List EprSym)) := []  -- by edge lane: the receive word in progress; none: the first comma is awaited
  chainOwn : Bool := false             -- the first bitstream of the chain has been received (R293)
  chainSent : Nat := 0                 -- bitstreams sent on to the chain since the preamble was read
  chainOpen : Bool := false            -- one of them is being sent
  chainBuf : List Byte := []           -- bytes of the record being received
  chainAt : Nat := 0                   -- when the latest chain byte came
  deriving DecidableEq, Repr

/-- The debug path and the TAP (R461-R463), apart from the DEVICE registers. -/
structure Debug where
  core : Nat := 0              -- the core the debug path acts for (R390)
  ir : Nat := 2                -- the instruction the TAP holds; IDCODE at test-logic reset
  data : Nat := 0              -- what a capture of DBG_ACCESS returns
  err : Bool := false
  halted : List Nat := []      -- cores the debug path has halted
  boundary : Nat := 0          -- the boundary register
  fuses : Option Fuses := none -- fuses programmed, in effect from the next COLD reset (R461)
  deriving DecidableEq, Repr

/-- Start-up (R452-R460), apart from the DEVICE registers. -/
structure Boot where
  begun : Bool := false          -- the reset has ended and the Warden runs the boot ROM
  inReset : Bool := false        -- a SYSTEM reset is in progress (R454)
  cause : Nat := 0               -- source of the reset, for DEV_RESET
  trained : Bool := false        -- order 4 of R457 has ended
  low : Bool := false            -- a rail is below its level: the device is held in COLD reset (R487)
  announce : Option Record := none  -- the DEV_RESET record that is to enter the ring before any other (R455)
  taking : Bool := false         -- the boot ROM awaits the handover of SP0-SP3 (R460)
  image : Option (Nat × Nat × Nat) := none  -- verified image that waits for order 4: KEY_INDEX, SVN, ENTRY
  deriving DecidableEq, Repr

/-- The state of the device, and the queue of waiting commands. -/
structure State where
  pending : List Instr := []
  fuses : Fuses := {}
  csr : Map W32 := []                 -- register content by offset; unlisted: the reset value
  latchHi : Map W32 := []             -- latches of the _LO/_HI pairs, by the _HI offset (R511)
  ddr : Map Byte := []                -- DDR bytes, a list of Host.Cell; unlisted: 0 (log 2)
  bus : Bus := {}
  tx : List TxItem := []
  faults : Faults := {}
  rc : RunCtl := {}
  clusters : Map Cluster := []
  imem : Map W96 := []                -- key (cluster * 2048 + word) * 256 + BP
  banks : Map (Map Bool) := []        -- bank, then key (cluster * 256 + BP) * 256 + bit
  inbox : Map (List (Nat × Bool)) := []  -- key cluster * 2048 + bit: the FULL entries, tag and value
  held : List SlotWord := []          -- held stores of the ports, in arrival order; the mask is of the bits still waiting (R205)
  probes : Map (Option Deposit) := []
  fabTrig : Map (Option Deposit) := []
  dmb : Map W64 := []                 -- key cluster * 32768 + word
  acc : Map W128 := []
  scrubPos : Map Nat := []            -- position of the background pass, by cluster (R63)
  stepped : Map Nat := []             -- by cluster: one above the time at which it last completed a step (R58)
  links : Map Link := []
  lines : Map Line := []
  net : Net := {}
  crypt : Crypt := {}
  spoor : Spoor := {}
  lynx : Lynx := {}
  ring : Ring := {}
  spad : Spad := {}
  acq : Acq := {}
  time : TimeBase := {}
  power : Power := {}
  badger : Badger := {}
  ports : Map Port := []
  tests : Map LaneTest := []          -- key port * 8 + lane
  shale : Shale := {}
  dbg : Debug := {}
  boot : Boot := {}
  host : HostLink := {}
  freeCount : Nat := 0                -- the model's own: how many free values have been taken (log 7)
  deriving DecidableEq, Repr

/-- The device right after a COLD reset, before any command: nothing is listed, every register holds its reset value,
no command waits. -/
def State.reset : State := {}

end Sys2Proof.Machine
end

