-- ==== Sys2Proof/Machine/Registers.lean ====
section
/-!
DEFINITION. Every software-visible register of the spec: its offset, its fields with access code, reset value and
clamp target (R9, R10, R26, and the register tables of every chapter). `Reg.<NAME>` is the offset of a register,
with its indices.
-/

namespace Sys2Proof.Machine

/-- The access codes of R9; `rww` is RW of a register that only the Warden writes (R355). -/
inductive FieldAcc where
  | rw | ro | wo | w1c | w1s | rc | rwl | rww
  deriving DecidableEq, Repr

/-- The clamp targets of the register tables (R10). -/
inductive Clamp where
  | no                       -- "—"
  | rng (lo hi : Nat)        -- lo if written below lo, hi if written above hi
  | tgt (lo hi t : Nat)      -- t if written lo to hi
  | ddrBase                  -- BAR2_CTRL.DDR_BASE
  | children                 -- TREE_CFG.CHILDREN
  | mapIndex                 -- MAP_RD_SEL.INDEX
  | dmaTail                  -- DMA_TAIL.INDEX
  | maxPerCycle              -- MP_OUT_CFG.MAX_PER_CYCLE
  | regionSize               -- CR_REG_SIZE.SIZE
  | special (k : Nat)        -- the rules of `clampSpecial`
  deriving DecidableEq, Repr

/-- One field. -/
structure FieldSpec where
  lsb : Nat
  width : Nat
  acc : FieldAcc
  reset : Nat
  clamp : Clamp
  deriving DecidableEq, Repr

/-- One register, or an array of them with up to two indices: base offset, and count and stride of each index. -/
structure RegSpec where
  base : Nat
  n1 : Nat
  s1 : Nat
  n2 : Nat
  s2 : Nat
  fields : List FieldSpec
  deriving DecidableEq, Repr


namespace Reg

abbrev DEVICE_ID : Nat := 0x0
abbrev BEHAVIOUR_LEVEL : Nat := 0x4
abbrev BAR2_CTRL : Nat := 0x10
abbrev DEV_RST : Nat := 0x20
abbrev DEV_STRAPS : Nat := 0x24
abbrev BOOT_STAT : Nat := 0x28
abbrev DEV_INT_STAT : Nat := 0x2C
abbrev DEV_INT_EN : Nat := 0x30
abbrev DBG_AUTH : Nat := 0x40
abbrev DBG_CHAL_LO : Nat := 0x48
abbrev DBG_CHAL_HI : Nat := 0x4C
abbrev DBG_RESP (i : Nat) : Nat := 0x50 + i * 0x4
abbrev IMG_CFG : Nat := 0xA0
abbrev IMG_CFG_ID : Nat := 0xA4
abbrev IMG_BODY_ID : Nat := 0xA8
abbrev IMG_PROBE_ID : Nat := 0xAC
abbrev IMG_ACTIVE_CFG_ID : Nat := 0xB0
abbrev IMG_ACTIVE_BODY_ID : Nat := 0xB4
abbrev IMG_ACTIVE_PROBE_ID : Nat := 0xB8
abbrev INT_ROUTE (i : Nat) : Nat := 0x100 + i * 0x4
abbrev INT_PEND : Nat := 0x180
abbrev CR_CFG : Nat := 0x101000
abbrev CR_COMMITTED_LO : Nat := 0x101008
abbrev CR_COMMITTED_HI : Nat := 0x10100C
abbrev CR_SEALED_LO : Nat := 0x101010
abbrev CR_SEALED_HI : Nat := 0x101014
abbrev ABORT_ECN_LO : Nat := 0x101034
abbrev ABORT_ECN_HI : Nat := 0x101038
abbrev HALT_ECN_LO : Nat := 0x101040
abbrev HALT_ECN_HI : Nat := 0x101044
abbrev SNAP_ECN_LO : Nat := 0x101064
abbrev SNAP_ECN_HI : Nat := 0x101068
abbrev REPLAY_LIMIT_LO : Nat := 0x101078
abbrev REPLAY_LIMIT_HI : Nat := 0x10107C
abbrev SEAL_WAIT_EVENTS : Nat := 0x101018
abbrev SEAL_WAIT_NS : Nat := 0x10101C
abbrev PENDING_WAIT_EVENTS : Nat := 0x101020
abbrev PENDING_WAIT_NS : Nat := 0x101024
abbrev SNAP_SKIPPED : Nat := 0x10106C
abbrev SNAP_BANK_WAIT_EVENTS : Nat := 0x101070
abbrev SNAP_BANK_WAIT_NS : Nat := 0x101074
abbrev SEAL_RTT : Nat := 0x101028
abbrev ABORT_STAT : Nat := 0x101030
abbrev SNAP_BASE_LO : Nat := 0x101050
abbrev SNAP_BASE_HI : Nat := 0x101054
abbrev SNAP_CFG : Nat := 0x101058
abbrev SNAP_PERIOD : Nat := 0x10105C
abbrev SNAP_STATUS : Nat := 0x101060
abbrev CR_INT_STAT : Nat := 0x101080
abbrev CR_INT_EN : Nat := 0x101084
abbrev RC_STATE : Nat := 0x100000
abbrev RC_CFG : Nat := 0x100004
abbrev CMD : Nat := 0x100008
abbrev CMD_STATUS : Nat := 0x10000C
abbrev CMD_TARGET_LO : Nat := 0x100010
abbrev CMD_TARGET_HI : Nat := 0x100014
abbrev CMD_ACTED_LO : Nat := 0x100018
abbrev CMD_ACTED_HI : Nat := 0x10001C
abbrev RC_NEXT_ECN_LO : Nat := 0x100020
abbrev RC_NEXT_ECN_HI : Nat := 0x100024
abbrev RC_RUN_START_LO : Nat := 0x100028
abbrev RC_RUN_START_HI : Nat := 0x10002C
abbrev PAUSE_AT_LO : Nat := 0x100030
abbrev PAUSE_AT_HI : Nat := 0x100034
abbrev RC_INT_STAT : Nat := 0x100040
abbrev RC_INT_EN : Nat := 0x100044
abbrev MP_INT_STAT : Nat := 0x100048
abbrev MP_INT_EN : Nat := 0x10004C
abbrev MP_OUT_WAIT_EVENTS : Nat := 0x100050
abbrev MP_OUT_WAIT_NS : Nat := 0x100054
abbrev DMA_RING_BASE_LO (i : Nat) : Nat := 0x102000 + i * 0x40
abbrev DMA_RING_BASE_HI (i : Nat) : Nat := 0x102004 + i * 0x40
abbrev DMA_CFG (i : Nat) : Nat := 0x102008 + i * 0x40
abbrev DMA_TAIL (i : Nat) : Nat := 0x10200C + i * 0x40
abbrev DMA_HEAD (i : Nat) : Nat := 0x102010 + i * 0x40
abbrev MP_IN_BASE_LO (i : Nat) : Nat := 0x103000 + i * 0x40
abbrev MP_IN_BASE_HI (i : Nat) : Nat := 0x103004 + i * 0x40
abbrev MP_IN_CFG (i : Nat) : Nat := 0x103008 + i * 0x40
abbrev MP_IN_WRITE_POS_LO (i : Nat) : Nat := 0x103010 + i * 0x40
abbrev MP_IN_WRITE_POS_HI (i : Nat) : Nat := 0x103014 + i * 0x40
abbrev MP_IN_HEAD_POS_LO (i : Nat) : Nat := 0x103018 + i * 0x40
abbrev MP_IN_HEAD_POS_HI (i : Nat) : Nat := 0x10301C + i * 0x40
abbrev MP_IN_RELEASE_POS_LO (i : Nat) : Nat := 0x103020 + i * 0x40
abbrev MP_IN_RELEASE_POS_HI (i : Nat) : Nat := 0x103024 + i * 0x40
abbrev MP_IN_KEEP_POS_LO (i : Nat) : Nat := 0x103028 + i * 0x40
abbrev MP_IN_KEEP_POS_HI (i : Nat) : Nat := 0x10302C + i * 0x40
abbrev MP_IN_FULL_DROPS (i : Nat) : Nat := 0x103030 + i * 0x40
abbrev MP_OUT_BASE_LO (i : Nat) : Nat := 0x103400 + i * 0x40
abbrev MP_OUT_BASE_HI (i : Nat) : Nat := 0x103404 + i * 0x40
abbrev MP_OUT_CFG (i : Nat) : Nat := 0x103408 + i * 0x40
abbrev MP_OUT_WRITE_POS_LO (i : Nat) : Nat := 0x103410 + i * 0x40
abbrev MP_OUT_WRITE_POS_HI (i : Nat) : Nat := 0x103414 + i * 0x40
abbrev MP_OUT_READ_POS_LO (i : Nat) : Nat := 0x103418 + i * 0x40
abbrev MP_OUT_READ_POS_HI (i : Nat) : Nat := 0x10341C + i * 0x40
abbrev MP_OUT_DROPPED (i : Nat) : Nat := 0x103430 + i * 0x40
abbrev MP_OUT_EXCESS (i : Nat) : Nat := 0x103434 + i * 0x40
abbrev MSIX_TABLE (i j : Nat) : Nat := 0x108000 + i * 0x10 + j * 0x4
abbrev MSIX_PBA (i : Nat) : Nat := 0x109000 + i * 0x4
abbrev CL_STATUS (i : Nat) : Nat := 0x200000 + i * 0x4000
abbrev CL_WAIT (i : Nat) : Nat := 0x200004 + i * 0x4000
abbrev CL_CTRL (i : Nat) : Nat := 0x200008 + i * 0x4000
abbrev IMEM_BASE_LO (i : Nat) : Nat := 0x200010 + i * 0x4000
abbrev IMEM_BASE_HI (i : Nat) : Nat := 0x200014 + i * 0x4000
abbrev INIT_BASE_LO (i : Nat) : Nat := 0x200018 + i * 0x4000
abbrev INIT_BASE_HI (i : Nat) : Nat := 0x20001C + i * 0x4000
abbrev IMEM_CTRL (i : Nat) : Nat := 0x200020 + i * 0x4000
abbrev PORT_WIN_MAP (i j : Nat) : Nat := 0x200030 + i * 0x4000 + j * 0x4
abbrev STALL_EVENTS (i j : Nat) : Nat := 0x200080 + i * 0x4000 + j * 0x4
abbrev STALL_NS (i j : Nat) : Nat := 0x200090 + i * 0x4000 + j * 0x4
abbrev OUTBOX_REWRITE (i : Nat) : Nat := 0x2000A0 + i * 0x4000
abbrev ECC_CNT (i : Nat) : Nat := 0x2000A4 + i * 0x4000
abbrev INBOX_HELD (i : Nat) : Nat := 0x2000B0 + i * 0x4000
abbrev FAB_CFG : Nat := 0x203F00
abbrev FAB_INFO : Nat := 0x203F04
abbrev FAB_STEP_PS : Nat := 0x203F08
abbrev FAB_WD : Nat := 0x203F0C
abbrev FAB_INT_STAT : Nat := 0x203F10
abbrev FAB_INT_EN : Nat := 0x203F14
abbrev FAB_SCRUB : Nat := 0x203F18
abbrev DM_INIT (i : Nat) : Nat := 0x400000 + i * 0x1000
abbrev DM_CTRL (i : Nat) : Nat := 0x400004 + i * 0x1000
abbrev AR_CFG (i : Nat) : Nat := 0x400008 + i * 0x1000
abbrev XQ_STAT (i : Nat) : Nat := 0x40000C + i * 0x1000
abbrev XQ_REGION_BASE (i j : Nat) : Nat := 0x400100 + i * 0x1000 + j * 0x10
abbrev XQ_REGION_IMG (i j : Nat) : Nat := 0x400104 + i * 0x1000 + j * 0x10
abbrev XQ_REGION_CFG (i j : Nat) : Nat := 0x400108 + i * 0x1000 + j * 0x10
abbrev JRNL_BASE : Nat := 0x440000
abbrev JRNL_CFG : Nat := 0x440004
abbrev JRNL_HEAD_LO : Nat := 0x440008
abbrev JRNL_HEAD_HI : Nat := 0x44000C
abbrev JRNL_TAIL_LO : Nat := 0x440010
abbrev JRNL_TAIL_HI : Nat := 0x440014
abbrev JRNL_TAIL_ECN_LO : Nat := 0x440018
abbrev JRNL_TAIL_ECN_HI : Nat := 0x44001C
abbrev JRNL_TRIM_LO : Nat := 0x440020
abbrev JRNL_TRIM_HI : Nat := 0x440024
abbrev JRNL_STAT : Nat := 0x440028
abbrev JRNL_FULL_NS : Nat := 0x44002C
abbrev DM_INT_STAT : Nat := 0x440030
abbrev DM_INT_EN : Nat := 0x440034
abbrev PORT_CFG (i : Nat) : Nat := 0x500000 + i * 0x1000
abbrev PORT_CTRL (i : Nat) : Nat := 0x500004 + i * 0x1000
abbrev PORT_STAT (i : Nat) : Nat := 0x500008 + i * 0x1000
abbrev PORT_PEER (i : Nat) : Nat := 0x50000C + i * 0x1000
abbrev PORT_EVENTS (i : Nat) : Nat := 0x500010 + i * 0x1000
abbrev LANE_STAT (i j : Nat) : Nat := 0x500100 + i * 0x1000 + j * 0x40
abbrev LANE_TXEQ (i j : Nat) : Nat := 0x500104 + i * 0x1000 + j * 0x40
abbrev LANE_RXEQ (i j : Nat) : Nat := 0x500108 + i * 0x1000 + j * 0x40
abbrev LANE_TEST (i j : Nat) : Nat := 0x50010C + i * 0x1000 + j * 0x40
abbrev LANE_BITS_LO (i j : Nat) : Nat := 0x500110 + i * 0x1000 + j * 0x40
abbrev LANE_BITS_HI (i j : Nat) : Nat := 0x500114 + i * 0x1000 + j * 0x40
abbrev LANE_ERRS_LO (i j : Nat) : Nat := 0x500118 + i * 0x1000 + j * 0x40
abbrev LANE_ERRS_HI (i j : Nat) : Nat := 0x50011C + i * 0x1000 + j * 0x40
abbrev LANE_CV (i j : Nat) : Nat := 0x500120 + i * 0x1000 + j * 0x40
abbrev LANES_PLL : Nat := 0x508008
abbrev LANES_INT_STAT : Nat := 0x508000
abbrev LANES_INT_EN : Nat := 0x508004
abbrev NET_ID : Nat := 0x600000
abbrev TREE_CFG (i : Nat) : Nat := 0x600010 + i * 0x8
abbrev TREE_ID (i : Nat) : Nat := 0x600014 + i * 0x8
abbrev TREE_STAT : Nat := 0x600020
abbrev NET_GEN : Nat := 0x600024
abbrev MAP_SEND_BASE : Nat := 0x600030
abbrev MAP_RECV_BASE : Nat := 0x600034
abbrev MAP_RELAY_BASE : Nat := 0x600038
abbrev MAP_CTRL : Nat := 0x60003C
abbrev MAP_SWAP_ECN_LO : Nat := 0x600040
abbrev MAP_SWAP_ECN_HI : Nat := 0x600044
abbrev MAP_RD_SEL : Nat := 0x600048
abbrev MAP_RD_DATA : Nat := 0x60004C
abbrev NET_INT_STAT : Nat := 0x600050
abbrev NET_INT_EN : Nat := 0x600054
abbrev LINK_CFG (i : Nat) : Nat := 0x601000 + i * 0x100
abbrev LINK_STAT (i : Nat) : Nat := 0x601004 + i * 0x100
abbrev HELD (i : Nat) : Nat := 0x601008 + i * 0x100
abbrev LINK_RETRIES (i : Nat) : Nat := 0x60100C + i * 0x100
abbrev LINK_NAKS (i : Nat) : Nat := 0x601010 + i * 0x100
abbrev FRAME_ERR (i : Nat) : Nat := 0x601014 + i * 0x100
abbrev STALE_DROP (i : Nat) : Nat := 0x601018 + i * 0x100
abbrev CTRL_ERR (i : Nat) : Nat := 0x60101C + i * 0x100
abbrev FR_WORDS (i : Nat) : Nat := 0x601020 + i * 0x100
abbrev LX_IN_CFG (i : Nat) : Nat := 0x700000 + i * 0x400
abbrev LX_IN_SPILL_BASE (i : Nat) : Nat := 0x700004 + i * 0x400
abbrev LX_IN_CYC_BASE (i : Nat) : Nat := 0x700008 + i * 0x400
abbrev LX_EG_SPILL_BASE (i : Nat) : Nat := 0x700204 + i * 0x400
abbrev LX_IN_WRITE_POS_LO (i : Nat) : Nat := 0x700010 + i * 0x400
abbrev LX_IN_WRITE_POS_HI (i : Nat) : Nat := 0x700014 + i * 0x400
abbrev LX_IN_HEAD_POS_LO (i : Nat) : Nat := 0x700018 + i * 0x400
abbrev LX_IN_HEAD_POS_HI (i : Nat) : Nat := 0x70001C + i * 0x400
abbrev LX_IN_RELEASE_POS_LO (i : Nat) : Nat := 0x700020 + i * 0x400
abbrev LX_IN_RELEASE_POS_HI (i : Nat) : Nat := 0x700024 + i * 0x400
abbrev LX_IN_KEEP_POS_LO (i : Nat) : Nat := 0x700028 + i * 0x400
abbrev LX_IN_KEEP_POS_HI (i : Nat) : Nat := 0x70002C + i * 0x400
abbrev LX_PACE_N0_LO (i : Nat) : Nat := 0x700108 + i * 0x400
abbrev LX_PACE_N0_HI (i : Nat) : Nat := 0x70010C + i * 0x400
abbrev LX_PACE_T0_LO (i : Nat) : Nat := 0x700110 + i * 0x400
abbrev LX_PACE_T0_HI (i : Nat) : Nat := 0x700114 + i * 0x400
abbrev LX_EG_LAST_LAUNCH_LO (i : Nat) : Nat := 0x700228 + i * 0x400
abbrev LX_EG_LAST_LAUNCH_HI (i : Nat) : Nat := 0x70022C + i * 0x400
abbrev LX_PACE_CFG (i : Nat) : Nat := 0x700100 + i * 0x400
abbrev LX_PACE_PERIOD (i : Nat) : Nat := 0x700104 + i * 0x400
abbrev LX_PACE_LAG (i : Nat) : Nat := 0x70011C + i * 0x400
abbrev LX_EG_CFG (i : Nat) : Nat := 0x700200 + i * 0x400
abbrev LX_EG_DELAY (i : Nat) : Nat := 0x700208 + i * 0x400
abbrev LX_EG_LEVEL (i : Nat) : Nat := 0x70020C + i * 0x400
abbrev LX_IN_DROPPED (i : Nat) : Nat := 0x700030 + i * 0x400
abbrev LX_IN_BP_NS (i : Nat) : Nat := 0x700034 + i * 0x400
abbrev LX_PACE_WAIT_NS (i : Nat) : Nat := 0x700118 + i * 0x400
abbrev LX_EG_DROPPED (i : Nat) : Nat := 0x700210 + i * 0x400
abbrev LX_EG_EXCESS (i : Nat) : Nat := 0x700214 + i * 0x400
abbrev LX_EG_LATE (i : Nat) : Nat := 0x700218 + i * 0x400
abbrev LX_EG_WAIT_EVENTS (i : Nat) : Nat := 0x70021C + i * 0x400
abbrev LX_EG_WAIT_NS (i : Nat) : Nat := 0x700220 + i * 0x400
abbrev LX_INT_STAT : Nat := 0x704000
abbrev LX_INT_EN : Nat := 0x704004
abbrev SH_STATUS : Nat := 0x800000
abbrev SH_LOAD_CTRL : Nat := 0x800004
abbrev SH_LOAD_ADDR_LO : Nat := 0x800008
abbrev SH_LOAD_ADDR_HI : Nat := 0x80000C
abbrev SH_LOAD_STAT : Nat := 0x800010
abbrev SH_ZONE_STAT : Nat := 0x800014
abbrev STARTUP_SEQ : Nat := 0x800018
abbrev SH_FLASH_STAT : Nat := 0x80001C
abbrev SH_SCRUB_CFG : Nat := 0x800020
abbrev SH_GOLD_BASE : Nat := 0x800024
abbrev SH_SCRUB_CNT : Nat := 0x800028
abbrev SH_SCRUB_STAT : Nat := 0x80002C
abbrev SH_IO_STAT : Nat := 0x800030
abbrev SH_LOOP_STAT : Nat := 0x800034
abbrev SH_INT_STAT : Nat := 0x800040
abbrev SH_INT_EN : Nat := 0x800044
abbrev ACQ_CTRL : Nat := 0x900000
abbrev ACQ_STAT : Nat := 0x900004
abbrev ACQ_CAP_CFG : Nat := 0x900008
abbrev ACQ_AVG : Nat := 0x90000C
abbrev ACQ_PROBE_SEL_LO : Nat := 0x900010
abbrev ACQ_PROBE_SEL_HI : Nat := 0x900014
abbrev ACQ_QUAL_MASK_LO : Nat := 0x900018
abbrev ACQ_QUAL_MASK_HI : Nat := 0x90001C
abbrev ACQ_PRE : Nat := 0x900020
abbrev ACQ_POST : Nat := 0x900024
abbrev ACQ_STORE_BASE : Nat := 0x900028
abbrev ACQ_STORE_CFG : Nat := 0x90002C
abbrev ACQ_ARM_ECN_LO : Nat := 0x900030
abbrev ACQ_ARM_ECN_HI : Nat := 0x900034
abbrev ACQ_EVLOG_BASE : Nat := 0x900038
abbrev ACQ_EVLOG_CFG : Nat := 0x90003C
abbrev ACQ_TRIG_ECN_LO : Nat := 0x900040
abbrev ACQ_TRIG_ECN_HI : Nat := 0x900044
abbrev ACQ_TRIG_POS_LO : Nat := 0x900048
abbrev ACQ_TRIG_POS_HI : Nat := 0x90004C
abbrev ACQ_FIRST_POS_LO : Nat := 0x900050
abbrev ACQ_FIRST_POS_HI : Nat := 0x900054
abbrev ACQ_WRITE_POS_LO : Nat := 0x900058
abbrev ACQ_WRITE_POS_HI : Nat := 0x90005C
abbrev ACQ_WAIT_NS : Nat := 0x900060
abbrev CMP_CFG (i : Nat) : Nat := 0x900200 + i * 0x20
abbrev CMP_VALUE_LO (i : Nat) : Nat := 0x900204 + i * 0x20
abbrev CMP_VALUE_HI (i : Nat) : Nat := 0x900208 + i * 0x20
abbrev CMP_MASK_LO (i : Nat) : Nat := 0x90020C + i * 0x20
abbrev CMP_MASK_HI (i : Nat) : Nat := 0x900210 + i * 0x20
abbrev CNT_CFG (i : Nat) : Nat := 0x900400 + i * 0x20
abbrev CNT_LIMIT_LO (i : Nat) : Nat := 0x900404 + i * 0x20
abbrev CNT_LIMIT_HI (i : Nat) : Nat := 0x900408 + i * 0x20
abbrev CNT_VALUE_LO (i : Nat) : Nat := 0x90040C + i * 0x20
abbrev CNT_VALUE_HI (i : Nat) : Nat := 0x900410 + i * 0x20
abbrev BR_MASK_LO (i j : Nat) : Nat := 0x900600 + i * 0x20 + j * 0x10
abbrev BR_MASK_HI (i j : Nat) : Nat := 0x900604 + i * 0x20 + j * 0x10
abbrev BR_CTRL (i j : Nat) : Nat := 0x900608 + i * 0x20 + j * 0x10
abbrev ACQ_TRIGIO (i : Nat) : Nat := 0x900800 + i * 0x4
abbrev ACQ_STAR_CFG : Nat := 0x900820
abbrev ACQ_OUT_CFG : Nat := 0x900824
abbrev MEAS_CFG (i : Nat) : Nat := 0x901000 + i * 0x100
abbrev WIN (i : Nat) : Nat := 0x901004 + i * 0x100
abbrev TH_HI_LO (i : Nat) : Nat := 0x901008 + i * 0x100
abbrev TH_HI_HI (i : Nat) : Nat := 0x90100C + i * 0x100
abbrev TH_LO_LO (i : Nat) : Nat := 0x901010 + i * 0x100
abbrev TH_LO_HI (i : Nat) : Nat := 0x901014 + i * 0x100
abbrev LOST (i : Nat) : Nat := 0x901018 + i * 0x100
abbrev RES_STAT (i : Nat) : Nat := 0x901040 + i * 0x100
abbrev RES_ACK (i : Nat) : Nat := 0x901044 + i * 0x100
abbrev RES_START_ECN_LO (i : Nat) : Nat := 0x901048 + i * 0x100
abbrev RES_START_ECN_HI (i : Nat) : Nat := 0x90104C + i * 0x100
abbrev RES_MIN_LO (i : Nat) : Nat := 0x901050 + i * 0x100
abbrev RES_MIN_HI (i : Nat) : Nat := 0x901054 + i * 0x100
abbrev RES_MIN_ECN_LO (i : Nat) : Nat := 0x901058 + i * 0x100
abbrev RES_MIN_ECN_HI (i : Nat) : Nat := 0x90105C + i * 0x100
abbrev RES_MAX_LO (i : Nat) : Nat := 0x901060 + i * 0x100
abbrev RES_MAX_HI (i : Nat) : Nat := 0x901064 + i * 0x100
abbrev RES_MAX_ECN_LO (i : Nat) : Nat := 0x901068 + i * 0x100
abbrev RES_MAX_ECN_HI (i : Nat) : Nat := 0x90106C + i * 0x100
abbrev RES_MEAN_LO (i : Nat) : Nat := 0x901070 + i * 0x100
abbrev RES_MEAN_HI (i : Nat) : Nat := 0x901074 + i * 0x100
abbrev RES_RMS_LO (i : Nat) : Nat := 0x901078 + i * 0x100
abbrev RES_RMS_HI (i : Nat) : Nat := 0x90107C + i * 0x100
abbrev RES_AMPL_LO (i : Nat) : Nat := 0x901080 + i * 0x100
abbrev RES_AMPL_HI (i : Nat) : Nat := 0x901084 + i * 0x100
abbrev RES_CROSSINGS (i : Nat) : Nat := 0x901088 + i * 0x100
abbrev RES_HIGH (i : Nat) : Nat := 0x90108C + i * 0x100
abbrev RES_EDGES (i : Nat) : Nat := 0x901090 + i * 0x100
abbrev RES_PERIOD_SPAN (i : Nat) : Nat := 0x901094 + i * 0x100
abbrev RES_TOGGLES_LO (i : Nat) : Nat := 0x901098 + i * 0x100
abbrev RES_TOGGLES_HI (i : Nat) : Nat := 0x90109C + i * 0x100
abbrev DSP_RES_STAT : Nat := 0x902040
abbrev DSP_RES_ACK : Nat := 0x902044
abbrev DSP_BEXP_TOTAL : Nat := 0x902048
abbrev DSP_MAXMAG : Nat := 0x90204C
abbrev DSP_ACC_LO (i : Nat) : Nat := 0x902050 + i * 0x8
abbrev DSP_ACC_HI (i : Nat) : Nat := 0x902054 + i * 0x8
abbrev DSP_MIN_LO : Nat := 0x902070
abbrev DSP_MIN_HI : Nat := 0x902074
abbrev DSP_MAX_LO : Nat := 0x902078
abbrev DSP_MAX_HI : Nat := 0x90207C
abbrev DSP_MIN_IDX : Nat := 0x902080
abbrev DSP_MAX_IDX : Nat := 0x902084
abbrev DSP_CHAIN_LO : Nat := 0x902000
abbrev DSP_CHAIN_HI : Nat := 0x902004
abbrev DSP_CTRL : Nat := 0x902008
abbrev ACQ_INT_STAT : Nat := 0x903000
abbrev ACQ_INT_EN : Nat := 0x903004
abbrev TB0_LO : Nat := 0xA00000
abbrev TB0_HI : Nat := 0xA00004
abbrev TB1_LO : Nat := 0xA00008
abbrev TB1_HI : Nat := 0xA0000C
abbrev TB2_LO : Nat := 0xA00010
abbrev TB2_HI : Nat := 0xA00014
abbrev TB0_EPOCH : Nat := 0xA00018
abbrev TB1_EPOCH : Nat := 0xA0001C
abbrev TB0_CFG : Nat := 0xA00020
abbrev TB0_SET_LO : Nat := 0xA00024
abbrev TB0_SET_HI : Nat := 0xA00028
abbrev TB0_ADJ : Nat := 0xA00030
abbrev TB0_EDGE_LO : Nat := 0xA0003C
abbrev TB0_EDGE_HI : Nat := 0xA00040
abbrev TB0_RATE : Nat := 0xA00044
abbrev TB0_CTRL : Nat := 0xA0002C
abbrev TB0_STAT : Nat := 0xA00034
abbrev TB0_SYNC_PERIOD : Nat := 0xA00038
abbrev TB1_CFG : Nat := 0xA00080
abbrev TB1_SLEW : Nat := 0xA00084
abbrev TB1_MASTER_ID : Nat := 0xA00088
abbrev TB1_STAT : Nat := 0xA0008C
abbrev TB1_OFFSET (i : Nat) : Nat := 0xA00090 + i * 0x4
abbrev TB1_DELAY (i : Nat) : Nat := 0xA00098 + i * 0x4
abbrev EXCH_ERR : Nat := 0xA000A0
abbrev EXCH_LOST : Nat := 0xA000A4
abbrev PORT_ASYM (i : Nat) : Nat := 0xA00100 + i * 0x4
abbrev TMR_CFG (i : Nat) : Nat := 0xA00200 + i * 0x20
abbrev TMR_TIME_LO (i : Nat) : Nat := 0xA00204 + i * 0x20
abbrev TMR_TIME_HI (i : Nat) : Nat := 0xA00208 + i * 0x20
abbrev TMR_PERIOD_LO (i : Nat) : Nat := 0xA0020C + i * 0x20
abbrev TMR_PERIOD_HI (i : Nat) : Nat := 0xA00210 + i * 0x20
abbrev TMR_CMD (i : Nat) : Nat := 0xA00214 + i * 0x20
abbrev TMR_STAT (i : Nat) : Nat := 0xA00218 + i * 0x20
abbrev TIME_INT_STAT : Nat := 0xA00400
abbrev TIME_INT_EN : Nat := 0xA00404
abbrev BG_CORE_CTRL (i : Nat) : Nat := 0xB00000 + i * 0x10
abbrev BG_BOOT_LO (i : Nat) : Nat := 0xB00004 + i * 0x10
abbrev BG_BOOT_HI (i : Nat) : Nat := 0xB00008 + i * 0x10
abbrev BG_CORE_STAT (i : Nat) : Nat := 0xB0000C + i * 0x10
abbrev BG_EPOCH0 : Nat := 0xB00100
abbrev BG_EPOCH1 : Nat := 0xB00104
abbrev BG_EPOCH2 : Nat := 0xB00108
abbrev BG_CACHE_CNT : Nat := 0xB00110
abbrev DISP_CTRL : Nat := 0xB01000
abbrev DISP_STAT : Nat := 0xB01004
abbrev DISP_TICK_LO : Nat := 0xB01008
abbrev DISP_TICK_HI : Nat := 0xB0100C
abbrev DISP_READY : Nat := 0xB01010
abbrev DISP_INT_STAT : Nat := 0xB01020
abbrev DISP_INT_EN : Nat := 0xB01024
abbrev DISP_CFG (i : Nat) : Nat := 0xB04000 + i * 0x10
abbrev DISP_TAG_LO (i : Nat) : Nat := 0xB04004 + i * 0x10
abbrev DISP_TAG_HI (i : Nat) : Nat := 0xB04008 + i * 0x10
abbrev DISP_STAT_T (i : Nat) : Nat := 0xB0400C + i * 0x10
abbrev MB_CFG (i : Nat) : Nat := 0xC00000 + i * 0x10
abbrev MB_COUNT (i : Nat) : Nat := 0xC00004 + i * 0x10
abbrev MB_PEND_LO (i : Nat) : Nat := 0xC01000 + i * 0x8
abbrev MB_PEND_HI (i : Nat) : Nat := 0xC01004 + i * 0x8
abbrev RING_CFG : Nat := 0xD00000
abbrev RING_ISO_LO : Nat := 0xD00004
abbrev RING_ISO_HI : Nat := 0xD00008
abbrev RING_FENCE : Nat := 0xD0000C
abbrev RING_ECC_CNT : Nat := 0xD00010
abbrev RING_INT_STAT : Nat := 0xD00020
abbrev RING_INT_EN : Nat := 0xD00024
abbrev RING_STOP_STAT (i : Nat) : Nat := 0xD00100 + i * 0x4
abbrev RING_ROUTE (i j : Nat) : Nat := 0xD01000 + i * 0x100 + j * 0x4
abbrev RING_ROUTE_SP (i j : Nat) : Nat := 0xD01080 + i * 0x100 + j * 0x4
abbrev SPAD_OWNER (i : Nat) : Nat := 0xE00000 + i * 0x4
abbrev SPAD_ECC : Nat := 0xE00040
abbrev SPAD_INT_STAT : Nat := 0xE00050
abbrev SPAD_INT_EN : Nat := 0xE00054
abbrev CRYPT_CTRL : Nat := 0xF00000
abbrev CRYPT_STAT : Nat := 0xF00004
abbrev CRYPT_KEY_DATA (i : Nat) : Nat := 0xF00010 + i * 0x4
abbrev CRYPT_KEY_CMD : Nat := 0xF00050
abbrev CRYPT_KEY_STAT : Nat := 0xF00054
abbrev CRYPT_REKEY_CFG : Nat := 0xF00058
abbrev CR_REG_BASE (i : Nat) : Nat := 0xF00100 + i * 0x20
abbrev CR_REG_SIZE (i : Nat) : Nat := 0xF00104 + i * 0x20
abbrev CR_REG_CFG (i : Nat) : Nat := 0xF00108 + i * 0x20
abbrev CR_REG_RIGHTS (i : Nat) : Nat := 0xF0010C + i * 0x20
abbrev CR_REG_STAT (i : Nat) : Nat := 0xF00110 + i * 0x20
abbrev CRYPT_DENIED_CNT : Nat := 0xF00060
abbrev CRYPT_REREAD_CNT : Nat := 0xF00064
abbrev CRYPT_NODE_CNT : Nat := 0xF00068
abbrev CRYPT_INT_STAT : Nat := 0xF00070
abbrev CRYPT_INT_EN : Nat := 0xF00074
abbrev SPOOR_CTRL : Nat := 0x1000000
abbrev SPOOR_STAT : Nat := 0x1000004
abbrev SPOOR_CFG : Nat := 0x1000008
abbrev SPOOR_SCOPE : Nat := 0x100000C
abbrev SPOOR_RING_BASE : Nat := 0x1000010
abbrev SPOOR_TRIG_CFG : Nat := 0x1000014
abbrev SPOOR_STOP : Nat := 0x1000018
abbrev SPOOR_SRC : Nat := 0x100001C
abbrev SPOOR_FAB_CFG : Nat := 0x1000020
abbrev SPOOR_RING_CFG : Nat := 0x100002C
abbrev SPOOR_FAB_CL_LO : Nat := 0x1000024
abbrev SPOOR_FAB_CL_HI : Nat := 0x1000028
abbrev DF_LO (i : Nat) : Nat := 0x1000040 + i * 0x10
abbrev DF_HI (i : Nat) : Nat := 0x1000044 + i * 0x10
abbrev DF_CFG (i : Nat) : Nat := 0x1000048 + i * 0x10
abbrev SPOOR_EVT (i : Nat) : Nat := 0x1000080 + i * 0x4
abbrev SPOOR_WRITE_POS_LO : Nat := 0x1000100
abbrev SPOOR_WRITE_POS_HI : Nat := 0x1000104
abbrev SPOOR_TRIG_POS_LO : Nat := 0x1000108
abbrev SPOOR_TRIG_POS_HI : Nat := 0x100010C
abbrev SPOOR_STOP_POS_LO : Nat := 0x1000110
abbrev SPOOR_STOP_POS_HI : Nat := 0x1000114
abbrev SPOOR_LOST : Nat := 0x1000118
abbrev SPOOR_ECC : Nat := 0x100011C
abbrev SPOOR_BUF_ADDR : Nat := 0x1000130
abbrev SPOOR_BUF_DATA : Nat := 0x1000134
abbrev SPOOR_INT_STAT : Nat := 0x1000120
abbrev SPOOR_INT_EN : Nat := 0x1000124
abbrev POW_CFG : Nat := 0x1100000
abbrev POW_LTR (i : Nat) : Nat := 0x1100010 + i * 0x4
abbrev POW_CAP : Nat := 0x1100040
abbrev POW_AUX : Nat := 0x1100044
abbrev AVS_CFG : Nat := 0x1100050
abbrev AVS_TARGET : Nat := 0x1100054
abbrev AVS_STAT : Nat := 0x1100058
abbrev PMBUS_CFG : Nat := 0x110005C
abbrev POW_NOW : Nat := 0x1100060
abbrev POW_ICORE : Nat := 0x1100064
abbrev THROT_STAT : Nat := 0x1100070
abbrev THERM_CFG : Nat := 0x1100080
abbrev THERM_STAT : Nat := 0x1100084
abbrev THERM_FAULT : Nat := 0x1100088
abbrev DDR_RETRAIN : Nat := 0x1100090
abbrev THERM_SENSOR (i : Nat) : Nat := 0x11000C0 + i * 0x4
abbrev ENERGY_LO : Nat := 0x1100068
abbrev ENERGY_HI : Nat := 0x110006C
abbrev POW_DOM_STAT (i : Nat) : Nat := 0x1101000 + i * 0x4
abbrev VREF_STAT (i : Nat) : Nat := 0x1102000 + i * 0x4
abbrev POW_INT_STAT : Nat := 0x11000A0
abbrev POW_INT_EN : Nat := 0x11000A4
abbrev FAULT_WPOS : Nat := 0x1200000
abbrev FAULT_OVERWRITES : Nat := 0x1200004
abbrev FAULT_DROPPED : Nat := 0x1200010
abbrev FAULT_INT_STAT : Nat := 0x1200008
abbrev FAULT_INT_EN : Nat := 0x120000C
abbrev FAULT_ENTRY (i j : Nat) : Nat := 0x1201000 + i * 0x10 + j * 0x4

end Reg

/-- The registers of block DEVICE. -/
def regsDevice : List RegSpec :=
  [
    ⟨0x0, 1, 0x0, 1, 0x0, [⟨16, 16, .ro, 0x9416, .no⟩, ⟨12, 4, .ro, 0, .no⟩, ⟨8, 4, .ro, 0, .no⟩, ⟨4, 4, .ro, 0, .no⟩]⟩ /- DEVICE_ID -/,
    ⟨0x4, 1, 0x0, 1, 0x0, [⟨0, 8, .ro, 1, .no⟩]⟩ /- BEHAVIOUR_LEVEL -/,
    ⟨0x10, 1, 0x0, 1, 0x0, [⟨31, 1, .w1s, 0, .no⟩, ⟨24, 1, .rw, 0, .no⟩, ⟨8, 8, .rw, 0, .ddrBase⟩, ⟨0, 6, .rwl, 0x22, .rng 30 38⟩]⟩ /- BAR2_CTRL -/,
    ⟨0x20, 1, 0x0, 1, 0x0, [⟨24, 8, .wo, 0, .no⟩, ⟨0, 1, .wo, 0, .no⟩]⟩ /- DEV_RST -/,
    ⟨0x24, 1, 0x0, 1, 0x0, [⟨4, 2, .ro, 0, .no⟩, ⟨3, 1, .ro, 0, .no⟩, ⟨2, 1, .ro, 0, .no⟩, ⟨0, 2, .ro, 0, .no⟩]⟩ /- DEV_STRAPS -/,
    ⟨0x28, 1, 0x0, 1, 0x0, [⟨29, 3, .ro, 0, .no⟩, ⟨28, 1, .ro, 0, .no⟩, ⟨26, 2, .ro, 0, .no⟩, ⟨20, 6, .ro, 0, .no⟩, ⟨14, 6, .ro, 0, .no⟩, ⟨10, 4, .ro, 0, .no⟩, ⟨0, 3, .ro, 0, .no⟩]⟩ /- BOOT_STAT -/,
    ⟨0x2C, 1, 0x0, 1, 0x0, [⟨2, 1, .w1c, 0, .no⟩, ⟨1, 1, .w1c, 0, .no⟩, ⟨0, 1, .w1c, 0, .no⟩]⟩ /- DEV_INT_STAT -/,
    ⟨0x30, 1, 0x0, 1, 0x0, [⟨2, 1, .rw, 0, .no⟩, ⟨1, 1, .rw, 0, .no⟩, ⟨0, 1, .rw, 0, .no⟩]⟩ /- DEV_INT_EN -/,
    ⟨0x40, 1, 0x0, 1, 0x0, [⟨31, 1, .w1c, 0, .no⟩, ⟨0, 2, .rww, 0, .tgt 3 3 0⟩]⟩ /- DBG_AUTH -/,
    ⟨0x48, 1, 0x0, 1, 0x0, [⟨0, 32, .ro, 0, .no⟩]⟩ /- DBG_CHAL_LO -/,
    ⟨0x4C, 1, 0x0, 1, 0x0, [⟨0, 32, .ro, 0, .no⟩]⟩ /- DBG_CHAL_HI -/,
    ⟨0x50, 16, 0x4, 1, 0x0, [⟨0, 32, .ro, 0, .no⟩]⟩ /- DBG_RESP -/,
    ⟨0xA0, 1, 0x0, 1, 0x0, [⟨24, 4, .rw, 0, .no⟩, ⟨16, 4, .rw, 0, .no⟩, ⟨0, 12, .rw, 0, .no⟩]⟩ /- IMG_CFG -/,
    ⟨0xA4, 1, 0x0, 1, 0x0, [⟨0, 32, .rw, 0, .no⟩]⟩ /- IMG_CFG_ID -/,
    ⟨0xA8, 1, 0x0, 1, 0x0, [⟨0, 32, .rw, 0, .no⟩]⟩ /- IMG_BODY_ID -/,
    ⟨0xAC, 1, 0x0, 1, 0x0, [⟨0, 32, .rw, 0, .no⟩]⟩ /- IMG_PROBE_ID -/,
    ⟨0xB0, 1, 0x0, 1, 0x0, [⟨0, 32, .ro, 0, .no⟩]⟩ /- IMG_ACTIVE_CFG_ID -/,
    ⟨0xB4, 1, 0x0, 1, 0x0, [⟨0, 32, .ro, 0, .no⟩]⟩ /- IMG_ACTIVE_BODY_ID -/,
    ⟨0xB8, 1, 0x0, 1, 0x0, [⟨0, 32, .ro, 0, .no⟩]⟩ /- IMG_ACTIVE_PROBE_ID -/,
    ⟨0x100, 20, 0x4, 1, 0x0, [⟨31, 1, .rw, 0, .no⟩, ⟨24, 6, .rw, 0, .no⟩, ⟨0, 8, .rw, 1, .no⟩]⟩ /- INT_ROUTE -/,
    ⟨0x180, 1, 0x0, 1, 0x0, [⟨0, 20, .ro, 0, .no⟩]⟩ /- INT_PEND -/]

/-- The registers of block RUNCTL. -/
def regsRunctl : List RegSpec :=
  [
    ⟨0x101000, 1, 0x0, 1, 0x0, [⟨0, 4, .rw, 4, .rng 2 8⟩]⟩ /- CR_CFG -/,
    ⟨0x101008, 1, 0x0, 1, 0x0, [⟨0, 32, .ro, 0, .no⟩]⟩ /- CR_COMMITTED_LO -/,
    ⟨0x10100C, 1, 0x0, 1, 0x0, [⟨0, 32, .ro, 0, .no⟩]⟩ /- CR_COMMITTED_HI -/,
    ⟨0x101010, 1, 0x0, 1, 0x0, [⟨0, 32, .ro, 0, .no⟩]⟩ /- CR_SEALED_LO -/,
    ⟨0x101014, 1, 0x0, 1, 0x0, [⟨0, 32, .ro, 0, .no⟩]⟩ /- CR_SEALED_HI -/,
    ⟨0x101034, 1, 0x0, 1, 0x0, [⟨0, 32, .ro, 0, .no⟩]⟩ /- ABORT_ECN_LO -/,
    ⟨0x101038, 1, 0x0, 1, 0x0, [⟨0, 32, .ro, 0, .no⟩]⟩ /- ABORT_ECN_HI -/,
    ⟨0x101040, 1, 0x0, 1, 0x0, [⟨0, 32, .ro, 0, .no⟩]⟩ /- HALT_ECN_LO -/,
    ⟨0x101044, 1, 0x0, 1, 0x0, [⟨0, 32, .ro, 0, .no⟩]⟩ /- HALT_ECN_HI -/,
    ⟨0x101064, 1, 0x0, 1, 0x0, [⟨0, 32, .ro, 0, .no⟩]⟩ /- SNAP_ECN_LO -/,
    ⟨0x101068, 1, 0x0, 1, 0x0, [⟨0, 32, .ro, 0, .no⟩]⟩ /- SNAP_ECN_HI -/,
    ⟨0x101078, 1, 0x0, 1, 0x0, [⟨0, 32, .ro, 0, .no⟩]⟩ /- REPLAY_LIMIT_LO -/,
    ⟨0x10107C, 1, 0x0, 1, 0x0, [⟨0, 32, .ro, 0, .no⟩]⟩ /- REPLAY_LIMIT_HI -/,
    ⟨0x101018, 1, 0x0, 1, 0x0, [⟨0, 32, .rc, 0, .no⟩]⟩ /- SEAL_WAIT_EVENTS -/,
    ⟨0x10101C, 1, 0x0, 1, 0x0, [⟨0, 32, .rc, 0, .no⟩]⟩ /- SEAL_WAIT_NS -/,
    ⟨0x101020, 1, 0x0, 1, 0x0, [⟨0, 32, .rc, 0, .no⟩]⟩ /- PENDING_WAIT_EVENTS -/,
    ⟨0x101024, 1, 0x0, 1, 0x0, [⟨0, 32, .rc, 0, .no⟩]⟩ /- PENDING_WAIT_NS -/,
    ⟨0x10106C, 1, 0x0, 1, 0x0, [⟨0, 32, .rc, 0, .no⟩]⟩ /- SNAP_SKIPPED -/,
    ⟨0x101070, 1, 0x0, 1, 0x0, [⟨0, 32, .rc, 0, .no⟩]⟩ /- SNAP_BANK_WAIT_EVENTS -/,
    ⟨0x101074, 1, 0x0, 1, 0x0, [⟨0, 32, .rc, 0, .no⟩]⟩ /- SNAP_BANK_WAIT_NS -/,
    ⟨0x101028, 1, 0x0, 1, 0x0, [⟨16, 16, .rc, 0, .no⟩, ⟨0, 16, .ro, 0, .no⟩]⟩ /- SEAL_RTT -/,
    ⟨0x101030, 1, 0x0, 1, 0x0, [⟨24, 8, .rc, 0, .no⟩, ⟨16, 8, .rc, 0, .no⟩, ⟨0, 16, .ro, 0, .no⟩]⟩ /- ABORT_STAT -/,
    ⟨0x101050, 1, 0x0, 1, 0x0, [⟨25, 7, .rw, 0, .no⟩]⟩ /- SNAP_BASE_LO -/,
    ⟨0x101054, 1, 0x0, 1, 0x0, [⟨0, 6, .rw, 0, .no⟩]⟩ /- SNAP_BASE_HI -/,
    ⟨0x101058, 1, 0x0, 1, 0x0, [⟨31, 1, .rw, 0, .no⟩, ⟨16, 5, .rw, 4, .rng 1 16⟩]⟩ /- SNAP_CFG -/,
    ⟨0x10105C, 1, 0x0, 1, 0x0, [⟨0, 32, .rw, 0x10000, .rng 4096 4294967295⟩]⟩ /- SNAP_PERIOD -/,
    ⟨0x101060, 1, 0x0, 1, 0x0, [⟨31, 1, .ro, 0, .no⟩, ⟨16, 5, .ro, 0, .no⟩, ⟨0, 5, .ro, 0, .no⟩]⟩ /- SNAP_STATUS -/,
    ⟨0x101080, 1, 0x0, 1, 0x0, [⟨5, 1, .w1c, 0, .no⟩, ⟨4, 1, .w1c, 0, .no⟩, ⟨3, 1, .w1c, 0, .no⟩, ⟨2, 1, .w1c, 0, .no⟩, ⟨1, 1, .w1c, 0, .no⟩, ⟨0, 1, .w1c, 0, .no⟩]⟩ /- CR_INT_STAT -/,
    ⟨0x101084, 1, 0x0, 1, 0x0, [⟨5, 1, .rw, 0, .no⟩, ⟨4, 1, .rw, 0, .no⟩, ⟨3, 1, .rw, 0, .no⟩, ⟨2, 1, .rw, 0, .no⟩, ⟨1, 1, .rw, 0, .no⟩, ⟨0, 1, .rw, 0, .no⟩]⟩ /- CR_INT_EN -/,
    ⟨0x100000, 1, 0x0, 1, 0x0, [⟨31, 1, .ro, 0, .no⟩, ⟨30, 1, .ro, 0, .no⟩, ⟨27, 3, .ro, 0, .no⟩, ⟨0, 3, .ro, 0, .no⟩]⟩ /- RC_STATE -/,
    ⟨0x100004, 1, 0x0, 1, 0x0, [⟨0, 8, .rw, 0x10, .rng 1 255⟩]⟩ /- RC_CFG -/,
    ⟨0x100008, 1, 0x0, 1, 0x0, [⟨31, 1, .wo, 0, .no⟩, ⟨8, 16, .wo, 0, .no⟩, ⟨0, 8, .wo, 0, .no⟩]⟩ /- CMD -/,
    ⟨0x10000C, 1, 0x0, 1, 0x0, [⟨28, 4, .ro, 0, .no⟩, ⟨16, 8, .ro, 0, .no⟩, ⟨0, 16, .ro, 0, .no⟩]⟩ /- CMD_STATUS -/,
    ⟨0x100010, 1, 0x0, 1, 0x0, [⟨0, 32, .rw, 0, .no⟩]⟩ /- CMD_TARGET_LO -/,
    ⟨0x100014, 1, 0x0, 1, 0x0, [⟨0, 32, .rw, 0, .no⟩]⟩ /- CMD_TARGET_HI -/,
    ⟨0x100018, 1, 0x0, 1, 0x0, [⟨0, 32, .ro, 0, .no⟩]⟩ /- CMD_ACTED_LO -/,
    ⟨0x10001C, 1, 0x0, 1, 0x0, [⟨0, 32, .ro, 0, .no⟩]⟩ /- CMD_ACTED_HI -/,
    ⟨0x100020, 1, 0x0, 1, 0x0, [⟨0, 32, .ro, 0, .no⟩]⟩ /- RC_NEXT_ECN_LO -/,
    ⟨0x100024, 1, 0x0, 1, 0x0, [⟨0, 32, .ro, 0, .no⟩]⟩ /- RC_NEXT_ECN_HI -/,
    ⟨0x100028, 1, 0x0, 1, 0x0, [⟨0, 32, .ro, 0, .no⟩]⟩ /- RC_RUN_START_LO -/] ++ [
    ⟨0x10002C, 1, 0x0, 1, 0x0, [⟨0, 32, .ro, 0, .no⟩]⟩ /- RC_RUN_START_HI -/,
    ⟨0x100030, 1, 0x0, 1, 0x0, [⟨0, 32, .ro, 0xFFFFFFFF, .no⟩]⟩ /- PAUSE_AT_LO -/,
    ⟨0x100034, 1, 0x0, 1, 0x0, [⟨0, 32, .ro, 0xFFFFFFFF, .no⟩]⟩ /- PAUSE_AT_HI -/,
    ⟨0x100040, 1, 0x0, 1, 0x0, [⟨24, 8, .w1c, 0, .no⟩, ⟨16, 8, .w1c, 0, .no⟩, ⟨5, 1, .w1c, 0, .no⟩, ⟨4, 1, .w1c, 0, .no⟩, ⟨3, 1, .w1c, 0, .no⟩, ⟨2, 1, .w1c, 0, .no⟩, ⟨1, 1, .w1c, 0, .no⟩, ⟨0, 1, .w1c, 0, .no⟩]⟩ /- RC_INT_STAT -/,
    ⟨0x100044, 1, 0x0, 1, 0x0, [⟨24, 8, .rw, 0, .no⟩, ⟨16, 8, .rw, 0, .no⟩, ⟨5, 1, .rw, 0, .no⟩, ⟨4, 1, .rw, 0, .no⟩, ⟨3, 1, .rw, 0, .no⟩, ⟨2, 1, .rw, 0, .no⟩, ⟨1, 1, .rw, 0, .no⟩, ⟨0, 1, .rw, 0, .no⟩]⟩ /- RC_INT_EN -/,
    ⟨0x100048, 1, 0x0, 1, 0x0, [⟨16, 16, .w1c, 0, .no⟩, ⟨0, 16, .w1c, 0, .no⟩]⟩ /- MP_INT_STAT -/,
    ⟨0x10004C, 1, 0x0, 1, 0x0, [⟨16, 16, .rw, 0, .no⟩, ⟨0, 16, .rw, 0, .no⟩]⟩ /- MP_INT_EN -/,
    ⟨0x100050, 1, 0x0, 1, 0x0, [⟨0, 32, .rc, 0, .no⟩]⟩ /- MP_OUT_WAIT_EVENTS -/,
    ⟨0x100054, 1, 0x0, 1, 0x0, [⟨0, 32, .rc, 0, .no⟩]⟩ /- MP_OUT_WAIT_NS -/,
    ⟨0x102000, 8, 0x40, 1, 0x0, [⟨5, 27, .rw, 0, .no⟩]⟩ /- DMA_RING_BASE_LO -/,
    ⟨0x102004, 8, 0x40, 1, 0x0, [⟨0, 8, .rw, 0, .no⟩]⟩ /- DMA_RING_BASE_HI -/,
    ⟨0x102008, 8, 0x40, 1, 0x0, [⟨31, 1, .rw, 0, .no⟩, ⟨0, 4, .rw, 4, .rng 4 12⟩]⟩ /- DMA_CFG -/,
    ⟨0x10200C, 8, 0x40, 1, 0x0, [⟨0, 12, .rw, 0, .dmaTail⟩]⟩ /- DMA_TAIL -/,
    ⟨0x102010, 8, 0x40, 1, 0x0, [⟨0, 12, .ro, 0, .no⟩]⟩ /- DMA_HEAD -/,
    ⟨0x103000, 16, 0x40, 1, 0x0, [⟨6, 26, .rw, 0, .no⟩]⟩ /- MP_IN_BASE_LO -/,
    ⟨0x103004, 16, 0x40, 1, 0x0, [⟨0, 8, .rw, 0, .no⟩]⟩ /- MP_IN_BASE_HI -/,
    ⟨0x103008, 16, 0x40, 1, 0x0, [⟨31, 1, .rw, 0, .no⟩, ⟨30, 1, .rw, 0, .no⟩, ⟨0, 5, .rw, 0xA, .rng 4 16⟩]⟩ /- MP_IN_CFG -/,
    ⟨0x103010, 16, 0x40, 1, 0x0, [⟨0, 32, .ro, 0, .no⟩]⟩ /- MP_IN_WRITE_POS_LO -/,
    ⟨0x103014, 16, 0x40, 1, 0x0, [⟨0, 32, .ro, 0, .no⟩]⟩ /- MP_IN_WRITE_POS_HI -/,
    ⟨0x103018, 16, 0x40, 1, 0x0, [⟨0, 32, .ro, 0, .no⟩]⟩ /- MP_IN_HEAD_POS_LO -/,
    ⟨0x10301C, 16, 0x40, 1, 0x0, [⟨0, 32, .ro, 0, .no⟩]⟩ /- MP_IN_HEAD_POS_HI -/,
    ⟨0x103020, 16, 0x40, 1, 0x0, [⟨0, 32, .ro, 0, .no⟩]⟩ /- MP_IN_RELEASE_POS_LO -/,
    ⟨0x103024, 16, 0x40, 1, 0x0, [⟨0, 32, .ro, 0, .no⟩]⟩ /- MP_IN_RELEASE_POS_HI -/,
    ⟨0x103028, 16, 0x40, 1, 0x0, [⟨0, 32, .rw, 0, .no⟩]⟩ /- MP_IN_KEEP_POS_LO -/,
    ⟨0x10302C, 16, 0x40, 1, 0x0, [⟨0, 32, .rw, 0, .no⟩]⟩ /- MP_IN_KEEP_POS_HI -/,
    ⟨0x103030, 16, 0x40, 1, 0x0, [⟨0, 32, .rc, 0, .no⟩]⟩ /- MP_IN_FULL_DROPS -/,
    ⟨0x103400, 16, 0x40, 1, 0x0, [⟨6, 26, .rw, 0, .no⟩]⟩ /- MP_OUT_BASE_LO -/,
    ⟨0x103404, 16, 0x40, 1, 0x0, [⟨0, 8, .rw, 0, .no⟩]⟩ /- MP_OUT_BASE_HI -/,
    ⟨0x103408, 16, 0x40, 1, 0x0, [⟨31, 1, .rw, 0, .no⟩, ⟨30, 1, .rw, 0, .no⟩, ⟨16, 7, .rw, 0x40, .maxPerCycle⟩, ⟨0, 5, .rw, 0xA, .rng 4 16⟩]⟩ /- MP_OUT_CFG -/,
    ⟨0x103410, 16, 0x40, 1, 0x0, [⟨0, 32, .ro, 0, .no⟩]⟩ /- MP_OUT_WRITE_POS_LO -/,
    ⟨0x103414, 16, 0x40, 1, 0x0, [⟨0, 32, .ro, 0, .no⟩]⟩ /- MP_OUT_WRITE_POS_HI -/,
    ⟨0x103418, 16, 0x40, 1, 0x0, [⟨0, 32, .ro, 0, .no⟩]⟩ /- MP_OUT_READ_POS_LO -/,
    ⟨0x10341C, 16, 0x40, 1, 0x0, [⟨0, 32, .ro, 0, .no⟩]⟩ /- MP_OUT_READ_POS_HI -/,
    ⟨0x103430, 16, 0x40, 1, 0x0, [⟨0, 32, .rc, 0, .no⟩]⟩ /- MP_OUT_DROPPED -/,
    ⟨0x103434, 16, 0x40, 1, 0x0, [⟨0, 32, .rc, 0, .no⟩]⟩ /- MP_OUT_EXCESS -/,
    ⟨0x108000, 64, 0x10, 4, 0x4, [⟨0, 32, .rw, 0, .no⟩]⟩ /- MSIX_TABLE -/,
    ⟨0x109000, 2, 0x4, 1, 0x0, [⟨0, 32, .ro, 0, .no⟩]⟩ /- MSIX_PBA -/]

/-- The registers of block FABRIC. -/
def regsFabric : List RegSpec :=
  [
    ⟨0x200000, 64, 0x4000, 1, 0x0, [⟨31, 1, .ro, 1, .no⟩, ⟨28, 3, .ro, 0, .no⟩, ⟨24, 4, .ro, 0, .no⟩, ⟨0, 12, .ro, 0, .no⟩]⟩ /- CL_STATUS -/,
    ⟨0x200004, 64, 0x4000, 1, 0x0, [⟨31, 1, .ro, 0, .no⟩, ⟨0, 12, .ro, 0, .no⟩]⟩ /- CL_WAIT -/,
    ⟨0x200008, 64, 0x4000, 1, 0x0, [⟨0, 1, .rw, 1, .no⟩]⟩ /- CL_CTRL -/,
    ⟨0x200010, 64, 0x4000, 1, 0x0, [⟨12, 20, .rw, 0, .no⟩]⟩ /- IMEM_BASE_LO -/,
    ⟨0x200014, 64, 0x4000, 1, 0x0, [⟨0, 6, .rw, 0, .no⟩]⟩ /- IMEM_BASE_HI -/,
    ⟨0x200018, 64, 0x4000, 1, 0x0, [⟨12, 20, .rw, 0, .no⟩]⟩ /- INIT_BASE_LO -/,
    ⟨0x20001C, 64, 0x4000, 1, 0x0, [⟨0, 6, .rw, 0, .no⟩]⟩ /- INIT_BASE_HI -/,
    ⟨0x200020, 64, 0x4000, 1, 0x0, [⟨31, 1, .wo, 0, .no⟩, ⟨30, 1, .ro, 0, .no⟩, ⟨29, 1, .w1c, 0, .no⟩, ⟨28, 1, .w1c, 0, .no⟩, ⟨0, 1, .rw, 1, .no⟩]⟩ /- IMEM_CTRL -/,
    ⟨0x200030, 64, 0x4000, 16, 0x4, [⟨0, 6, .rw, 0x3F, .tgt 24 62 63⟩]⟩ /- PORT_WIN_MAP -/,
    ⟨0x200080, 64, 0x4000, 4, 0x4, [⟨0, 32, .rc, 0, .no⟩]⟩ /- STALL_EVENTS -/,
    ⟨0x200090, 64, 0x4000, 4, 0x4, [⟨0, 32, .rc, 0, .no⟩]⟩ /- STALL_NS -/,
    ⟨0x2000A0, 64, 0x4000, 1, 0x0, [⟨0, 32, .rc, 0, .no⟩]⟩ /- OUTBOX_REWRITE -/,
    ⟨0x2000A4, 64, 0x4000, 1, 0x0, [⟨24, 8, .rc, 0, .no⟩, ⟨16, 8, .rc, 0, .no⟩, ⟨8, 8, .rc, 0, .no⟩, ⟨0, 8, .rc, 0, .no⟩]⟩ /- ECC_CNT -/,
    ⟨0x2000B0, 64, 0x4000, 1, 0x0, [⟨0, 16, .ro, 0, .no⟩]⟩ /- INBOX_HELD -/,
    ⟨0x203F00, 1, 0x0, 1, 0x0, [⟨16, 4, .rw, 5, .rng 2 9⟩, ⟨0, 12, .rw, 0x800, .rng 1 2048⟩]⟩ /- FAB_CFG -/,
    ⟨0x203F04, 1, 0x0, 1, 0x0, [⟨16, 8, .ro, 9, .no⟩, ⟨8, 8, .ro, 0, .no⟩, ⟨0, 8, .ro, 0x40, .no⟩]⟩ /- FAB_INFO -/,
    ⟨0x203F08, 1, 0x0, 1, 0x0, [⟨16, 16, .ro, 0, .no⟩, ⟨0, 16, .ro, 0, .no⟩]⟩ /- FAB_STEP_PS -/,
    ⟨0x203F0C, 1, 0x0, 1, 0x0, [⟨0, 16, .rw, 0x3E8, .no⟩]⟩ /- FAB_WD -/,
    ⟨0x203F10, 1, 0x0, 1, 0x0, [⟨4, 1, .w1c, 0, .no⟩, ⟨3, 1, .w1c, 0, .no⟩, ⟨2, 1, .w1c, 0, .no⟩, ⟨1, 1, .w1c, 0, .no⟩, ⟨0, 1, .w1c, 0, .no⟩]⟩ /- FAB_INT_STAT -/,
    ⟨0x203F14, 1, 0x0, 1, 0x0, [⟨4, 1, .rw, 0, .no⟩, ⟨3, 1, .rw, 0, .no⟩, ⟨2, 1, .rw, 0, .no⟩, ⟨1, 1, .rw, 0, .no⟩, ⟨0, 1, .rw, 0, .no⟩]⟩ /- FAB_INT_EN -/,
    ⟨0x203F18, 1, 0x0, 1, 0x0, [⟨0, 1, .rw, 1, .no⟩]⟩ /- FAB_SCRUB -/]

/-- The registers of block DMEMQ. -/
def regsDmemq : List RegSpec :=
  [
    ⟨0x400000, 64, 0x1000, 1, 0x0, [⟨0, 26, .rw, 0, .no⟩]⟩ /- DM_INIT -/,
    ⟨0x400004, 64, 0x1000, 1, 0x0, [⟨31, 1, .wo, 0, .no⟩, ⟨30, 1, .ro, 0, .no⟩, ⟨29, 1, .w1c, 0, .no⟩, ⟨28, 1, .w1c, 0, .no⟩, ⟨0, 1, .rw, 0, .no⟩]⟩ /- DM_CTRL -/,
    ⟨0x400008, 64, 0x1000, 1, 0x0, [⟨0, 1, .rw, 1, .no⟩]⟩ /- AR_CFG -/,
    ⟨0x40000C, 64, 0x1000, 1, 0x0, [⟨16, 16, .rc, 0, .no⟩, ⟨0, 6, .ro, 0, .no⟩]⟩ /- XQ_STAT -/,
    ⟨0x400100, 64, 0x1000, 16, 0x10, [⟨0, 26, .rw, 0, .no⟩]⟩ /- XQ_REGION_BASE -/,
    ⟨0x400104, 64, 0x1000, 16, 0x10, [⟨0, 26, .rw, 0, .no⟩]⟩ /- XQ_REGION_IMG -/,
    ⟨0x400108, 64, 0x1000, 16, 0x10, [⟨31, 1, .rw, 0, .no⟩, ⟨30, 1, .rw, 0, .no⟩, ⟨29, 1, .rw, 0, .no⟩, ⟨0, 6, .rw, 6, .rng 6 32⟩]⟩ /- XQ_REGION_CFG -/,
    ⟨0x440000, 1, 0x0, 1, 0x0, [⟨0, 26, .rw, 0, .no⟩]⟩ /- JRNL_BASE -/,
    ⟨0x440004, 1, 0x0, 1, 0x0, [⟨31, 1, .rw, 0, .no⟩, ⟨30, 1, .wo, 0, .no⟩, ⟨0, 6, .rw, 0x1E, .rng 20 36⟩]⟩ /- JRNL_CFG -/,
    ⟨0x440008, 1, 0x0, 1, 0x0, [⟨0, 32, .ro, 0, .no⟩]⟩ /- JRNL_HEAD_LO -/,
    ⟨0x44000C, 1, 0x0, 1, 0x0, [⟨0, 32, .ro, 0, .no⟩]⟩ /- JRNL_HEAD_HI -/,
    ⟨0x440010, 1, 0x0, 1, 0x0, [⟨0, 32, .ro, 0, .no⟩]⟩ /- JRNL_TAIL_LO -/,
    ⟨0x440014, 1, 0x0, 1, 0x0, [⟨0, 32, .ro, 0, .no⟩]⟩ /- JRNL_TAIL_HI -/,
    ⟨0x440018, 1, 0x0, 1, 0x0, [⟨0, 32, .rw, 0, .no⟩]⟩ /- JRNL_TAIL_ECN_LO -/,
    ⟨0x44001C, 1, 0x0, 1, 0x0, [⟨0, 32, .rw, 0, .no⟩]⟩ /- JRNL_TAIL_ECN_HI -/,
    ⟨0x440020, 1, 0x0, 1, 0x0, [⟨0, 32, .wo, 0, .no⟩]⟩ /- JRNL_TRIM_LO -/,
    ⟨0x440024, 1, 0x0, 1, 0x0, [⟨0, 32, .wo, 0, .no⟩]⟩ /- JRNL_TRIM_HI -/,
    ⟨0x440028, 1, 0x0, 1, 0x0, [⟨31, 1, .ro, 0, .no⟩]⟩ /- JRNL_STAT -/,
    ⟨0x44002C, 1, 0x0, 1, 0x0, [⟨0, 32, .rc, 0, .no⟩]⟩ /- JRNL_FULL_NS -/,
    ⟨0x440030, 1, 0x0, 1, 0x0, [⟨4, 1, .w1c, 0, .no⟩, ⟨3, 1, .w1c, 0, .no⟩, ⟨2, 1, .w1c, 0, .no⟩, ⟨1, 1, .w1c, 0, .no⟩, ⟨0, 1, .w1c, 0, .no⟩]⟩ /- DM_INT_STAT -/,
    ⟨0x440034, 1, 0x0, 1, 0x0, [⟨4, 1, .rw, 0, .no⟩, ⟨3, 1, .rw, 0, .no⟩, ⟨2, 1, .rw, 0, .no⟩, ⟨1, 1, .rw, 0, .no⟩, ⟨0, 1, .rw, 0, .no⟩]⟩ /- DM_INT_EN -/]

/-- The registers of block LANES. -/
def regsLanes : List RegSpec :=
  [
    ⟨0x500000, 8, 0x1000, 1, 0x0, [⟨16, 3, .rw, 0, .tgt 5 7 0⟩, ⟨12, 2, .rw, 0, .special 14⟩, ⟨0, 8, .rw, 0xFF, .no⟩]⟩ /- PORT_CFG -/,
    ⟨0x500004, 8, 0x1000, 1, 0x0, [⟨31, 1, .wo, 0, .no⟩, ⟨30, 1, .wo, 0, .no⟩, ⟨0, 1, .rw, 0, .no⟩]⟩ /- PORT_CTRL -/,
    ⟨0x500008, 8, 0x1000, 1, 0x0, [⟨31, 1, .ro, 0, .no⟩, ⟨30, 1, .ro, 0, .no⟩, ⟨29, 1, .ro, 0, .no⟩, ⟨24, 4, .ro, 0, .no⟩, ⟨16, 8, .ro, 0, .no⟩, ⟨8, 8, .ro, 0, .no⟩, ⟨0, 8, .ro, 0, .no⟩]⟩ /- PORT_STAT -/,
    ⟨0x50000C, 8, 0x1000, 1, 0x0, [⟨31, 1, .ro, 0, .no⟩, ⟨13, 3, .ro, 0, .no⟩, ⟨0, 13, .ro, 0, .no⟩]⟩ /- PORT_PEER -/,
    ⟨0x500010, 8, 0x1000, 1, 0x0, [⟨24, 8, .rc, 0, .no⟩, ⟨16, 8, .rc, 0, .no⟩, ⟨0, 16, .rc, 0, .no⟩]⟩ /- PORT_EVENTS -/,
    ⟨0x500100, 8, 0x1000, 8, 0x40, [⟨31, 1, .ro, 1, .no⟩, ⟨30, 1, .ro, 1, .no⟩, ⟨29, 1, .ro, 0, .no⟩, ⟨28, 1, .w1c, 0, .no⟩, ⟨27, 1, .w1c, 0, .no⟩, ⟨26, 1, .ro, 0, .no⟩, ⟨0, 8, .ro, 0xFF, .no⟩]⟩ /- LANE_STAT -/,
    ⟨0x500104, 8, 0x1000, 8, 0x40, [⟨16, 5, .rw, 4, .no⟩, ⟨8, 6, .rw, 0x30, .special 13⟩, ⟨0, 5, .rw, 0xB, .no⟩]⟩ /- LANE_TXEQ -/,
    ⟨0x500108, 8, 0x1000, 8, 0x40, [⟨31, 1, .rw, 0, .no⟩, ⟨30, 1, .ro, 0, .no⟩, ⟨26, 4, .ro, 0, .no⟩, ⟨16, 6, .ro, 0, .no⟩, ⟨12, 4, .ro, 0, .no⟩, ⟨8, 4, .ro, 0, .no⟩, ⟨4, 4, .ro, 0, .no⟩, ⟨0, 4, .ro, 0, .no⟩]⟩ /- LANE_RXEQ -/,
    ⟨0x50010C, 8, 0x1000, 8, 0x40, [⟨31, 1, .wo, 0, .no⟩, ⟨30, 1, .ro, 0, .no⟩, ⟨29, 1, .rw, 0, .no⟩, ⟨24, 3, .rw, 0, .tgt 4 7 0⟩, ⟨20, 2, .rw, 3, .no⟩, ⟨18, 1, .wo, 0, .no⟩, ⟨17, 1, .rw, 0, .no⟩, ⟨16, 1, .rw, 0, .no⟩]⟩ /- LANE_TEST -/,
    ⟨0x500110, 8, 0x1000, 8, 0x40, [⟨0, 32, .ro, 0, .no⟩]⟩ /- LANE_BITS_LO -/,
    ⟨0x500114, 8, 0x1000, 8, 0x40, [⟨0, 16, .ro, 0, .no⟩]⟩ /- LANE_BITS_HI -/,
    ⟨0x500118, 8, 0x1000, 8, 0x40, [⟨0, 32, .ro, 0, .no⟩]⟩ /- LANE_ERRS_LO -/,
    ⟨0x50011C, 8, 0x1000, 8, 0x40, [⟨0, 16, .ro, 0, .no⟩]⟩ /- LANE_ERRS_HI -/,
    ⟨0x500120, 8, 0x1000, 8, 0x40, [⟨16, 16, .rc, 0, .no⟩, ⟨0, 16, .rc, 0, .no⟩]⟩ /- LANE_CV -/,
    ⟨0x508008, 1, 0x0, 1, 0x0, [⟨31, 1, .ro, 0, .no⟩, ⟨30, 1, .w1c, 0, .no⟩]⟩ /- LANES_PLL -/,
    ⟨0x508000, 1, 0x0, 1, 0x0, [⟨4, 1, .w1c, 0, .no⟩, ⟨3, 1, .w1c, 0, .no⟩, ⟨2, 1, .w1c, 0, .no⟩, ⟨1, 1, .w1c, 0, .no⟩, ⟨0, 1, .w1c, 0, .no⟩]⟩ /- LANES_INT_STAT -/,
    ⟨0x508004, 1, 0x0, 1, 0x0, [⟨4, 1, .rw, 0, .no⟩, ⟨3, 1, .rw, 0, .no⟩, ⟨2, 1, .rw, 0, .no⟩, ⟨1, 1, .rw, 0, .no⟩, ⟨0, 1, .rw, 0, .no⟩]⟩ /- LANES_INT_EN -/]

/-- The registers of block SYSNET. -/
def regsSysnet : List RegSpec :=
  [
    ⟨0x600000, 1, 0x0, 1, 0x0, [⟨0, 13, .rw, 0, .no⟩]⟩ /- NET_ID -/,
    ⟨0x600010, 2, 0x8, 1, 0x0, [⟨31, 1, .rw, 0, .no⟩, ⟨24, 3, .rw, 0, .no⟩, ⟨16, 8, .rw, 0, .children⟩]⟩ /- TREE_CFG -/,
    ⟨0x600014, 2, 0x8, 1, 0x0, [⟨16, 13, .rw, 0, .no⟩, ⟨0, 13, .rw, 0, .no⟩]⟩ /- TREE_ID -/,
    ⟨0x600020, 1, 0x0, 1, 0x0, [⟨24, 8, .ro, 0, .no⟩, ⟨16, 8, .ro, 0, .no⟩]⟩ /- TREE_STAT -/,
    ⟨0x600024, 1, 0x0, 1, 0x0, [⟨0, 4, .ro, 0, .no⟩]⟩ /- NET_GEN -/,
    ⟨0x600030, 1, 0x0, 1, 0x0, [⟨0, 26, .rw, 0, .no⟩]⟩ /- MAP_SEND_BASE -/,
    ⟨0x600034, 1, 0x0, 1, 0x0, [⟨0, 26, .rw, 0, .no⟩]⟩ /- MAP_RECV_BASE -/,
    ⟨0x600038, 1, 0x0, 1, 0x0, [⟨0, 26, .rw, 0, .no⟩]⟩ /- MAP_RELAY_BASE -/,
    ⟨0x60003C, 1, 0x0, 1, 0x0, [⟨31, 1, .wo, 0, .no⟩, ⟨30, 1, .wo, 0, .no⟩, ⟨29, 1, .ro, 0, .no⟩, ⟨28, 1, .ro, 0, .no⟩, ⟨27, 1, .ro, 0, .no⟩, ⟨26, 1, .ro, 0, .no⟩, ⟨25, 1, .w1c, 0, .no⟩, ⟨0, 1, .ro, 0, .no⟩]⟩ /- MAP_CTRL -/,
    ⟨0x600040, 1, 0x0, 1, 0x0, [⟨0, 32, .rw, 0, .no⟩]⟩ /- MAP_SWAP_ECN_LO -/,
    ⟨0x600044, 1, 0x0, 1, 0x0, [⟨0, 32, .rw, 0, .no⟩]⟩ /- MAP_SWAP_ECN_HI -/,
    ⟨0x600048, 1, 0x0, 1, 0x0, [⟨31, 1, .rw, 0, .no⟩, ⟨29, 2, .rw, 0, .tgt 3 3 0⟩, ⟨0, 18, .rw, 0, .mapIndex⟩]⟩ /- MAP_RD_SEL -/,
    ⟨0x60004C, 1, 0x0, 1, 0x0, [⟨0, 32, .ro, 0, .no⟩]⟩ /- MAP_RD_DATA -/,
    ⟨0x600050, 1, 0x0, 1, 0x0, [⟨6, 1, .w1c, 0, .no⟩, ⟨5, 1, .w1c, 0, .no⟩, ⟨4, 1, .w1c, 0, .no⟩, ⟨3, 1, .w1c, 0, .no⟩, ⟨2, 1, .w1c, 0, .no⟩, ⟨1, 1, .w1c, 0, .no⟩, ⟨0, 1, .w1c, 0, .no⟩]⟩ /- NET_INT_STAT -/,
    ⟨0x600054, 1, 0x0, 1, 0x0, [⟨6, 1, .rw, 0, .no⟩, ⟨5, 1, .rw, 0, .no⟩, ⟨4, 1, .rw, 0, .no⟩, ⟨3, 1, .rw, 0, .no⟩, ⟨2, 1, .rw, 0, .no⟩, ⟨1, 1, .rw, 0, .no⟩, ⟨0, 1, .rw, 0, .no⟩]⟩ /- NET_INT_EN -/,
    ⟨0x601000, 8, 0x100, 1, 0x0, [⟨8, 8, .rw, 0x14, .rng 5 255⟩, ⟨0, 4, .rw, 4, .rng 1 15⟩]⟩ /- LINK_CFG -/,
    ⟨0x601004, 8, 0x100, 1, 0x0, [⟨31, 1, .ro, 0, .no⟩, ⟨16, 7, .ro, 0, .no⟩, ⟨8, 8, .ro, 0, .no⟩, ⟨0, 8, .ro, 0, .no⟩]⟩ /- LINK_STAT -/,
    ⟨0x601008, 8, 0x100, 1, 0x0, [⟨16, 16, .rc, 0, .no⟩, ⟨0, 16, .ro, 0, .no⟩]⟩ /- HELD -/,
    ⟨0x60100C, 8, 0x100, 1, 0x0, [⟨0, 32, .rc, 0, .no⟩]⟩ /- LINK_RETRIES -/,
    ⟨0x601010, 8, 0x100, 1, 0x0, [⟨0, 32, .rc, 0, .no⟩]⟩ /- LINK_NAKS -/,
    ⟨0x601014, 8, 0x100, 1, 0x0, [⟨0, 32, .rc, 0, .no⟩]⟩ /- FRAME_ERR -/,
    ⟨0x601018, 8, 0x100, 1, 0x0, [⟨0, 32, .rc, 0, .no⟩]⟩ /- STALE_DROP -/,
    ⟨0x60101C, 8, 0x100, 1, 0x0, [⟨0, 32, .rc, 0, .no⟩]⟩ /- CTRL_ERR -/,
    ⟨0x601020, 8, 0x100, 1, 0x0, [⟨0, 32, .rc, 0, .no⟩]⟩ /- FR_WORDS -/]

/-- The registers of block LYNX. -/
def regsLynx : List RegSpec :=
  [
    ⟨0x700000, 8, 0x400, 1, 0x0, [⟨31, 1, .rw, 0, .no⟩, ⟨30, 1, .rw, 0, .no⟩, ⟨29, 1, .rw, 0, .no⟩, ⟨28, 1, .rw, 0, .no⟩, ⟨24, 2, .rw, 0, .tgt 3 3 0⟩, ⟨8, 5, .rw, 0x10, .rng 10 24⟩, ⟨0, 5, .rw, 0x14, .rng 20 31⟩]⟩ /- LX_IN_CFG -/,
    ⟨0x700004, 8, 0x400, 1, 0x0, [⟨0, 26, .rw, 0, .special 5⟩]⟩ /- LX_IN_SPILL_BASE -/,
    ⟨0x700008, 8, 0x400, 1, 0x0, [⟨0, 26, .rw, 0, .special 6⟩]⟩ /- LX_IN_CYC_BASE -/,
    ⟨0x700204, 8, 0x400, 1, 0x0, [⟨0, 26, .rw, 0, .special 8⟩]⟩ /- LX_EG_SPILL_BASE -/,
    ⟨0x700010, 8, 0x400, 1, 0x0, [⟨0, 32, .ro, 0, .no⟩]⟩ /- LX_IN_WRITE_POS_LO -/,
    ⟨0x700014, 8, 0x400, 1, 0x0, [⟨0, 32, .ro, 0, .no⟩]⟩ /- LX_IN_WRITE_POS_HI -/,
    ⟨0x700018, 8, 0x400, 1, 0x0, [⟨0, 32, .ro, 0, .no⟩]⟩ /- LX_IN_HEAD_POS_LO -/,
    ⟨0x70001C, 8, 0x400, 1, 0x0, [⟨0, 32, .ro, 0, .no⟩]⟩ /- LX_IN_HEAD_POS_HI -/,
    ⟨0x700020, 8, 0x400, 1, 0x0, [⟨0, 32, .ro, 0, .no⟩]⟩ /- LX_IN_RELEASE_POS_LO -/,
    ⟨0x700024, 8, 0x400, 1, 0x0, [⟨0, 32, .ro, 0, .no⟩]⟩ /- LX_IN_RELEASE_POS_HI -/,
    ⟨0x700028, 8, 0x400, 1, 0x0, [⟨0, 32, .rw, 0, .no⟩]⟩ /- LX_IN_KEEP_POS_LO -/,
    ⟨0x70002C, 8, 0x400, 1, 0x0, [⟨0, 32, .rw, 0, .no⟩]⟩ /- LX_IN_KEEP_POS_HI -/,
    ⟨0x700108, 8, 0x400, 1, 0x0, [⟨0, 32, .rw, 0, .no⟩]⟩ /- LX_PACE_N0_LO -/,
    ⟨0x70010C, 8, 0x400, 1, 0x0, [⟨0, 32, .rw, 0, .no⟩]⟩ /- LX_PACE_N0_HI -/,
    ⟨0x700110, 8, 0x400, 1, 0x0, [⟨0, 32, .rw, 0, .no⟩]⟩ /- LX_PACE_T0_LO -/,
    ⟨0x700114, 8, 0x400, 1, 0x0, [⟨0, 32, .rw, 0, .no⟩]⟩ /- LX_PACE_T0_HI -/,
    ⟨0x700228, 8, 0x400, 1, 0x0, [⟨0, 32, .ro, 0, .no⟩]⟩ /- LX_EG_LAST_LAUNCH_LO -/,
    ⟨0x70022C, 8, 0x400, 1, 0x0, [⟨0, 32, .ro, 0, .no⟩]⟩ /- LX_EG_LAST_LAUNCH_HI -/,
    ⟨0x700100, 8, 0x400, 1, 0x0, [⟨31, 1, .rw, 1, .no⟩, ⟨30, 1, .rw, 0, .no⟩, ⟨0, 16, .rw, 0x400, .rng 1 65535⟩]⟩ /- LX_PACE_CFG -/,
    ⟨0x700104, 8, 0x400, 1, 0x0, [⟨0, 32, .rw, 0xF4240, .rng 1000 4294967295⟩]⟩ /- LX_PACE_PERIOD -/,
    ⟨0x70011C, 8, 0x400, 1, 0x0, [⟨16, 16, .rc, 0, .no⟩, ⟨0, 16, .ro, 0, .no⟩]⟩ /- LX_PACE_LAG -/,
    ⟨0x700200, 8, 0x400, 1, 0x0, [⟨31, 1, .rw, 0, .no⟩, ⟨30, 1, .rw, 0, .no⟩, ⟨29, 1, .rw, 0, .no⟩, ⟨28, 1, .rw, 0, .no⟩, ⟨24, 2, .rw, 0, .tgt 2 3 0⟩, ⟨16, 7, .rw, 0x40, .special 7⟩, ⟨0, 5, .rw, 0x14, .rng 20 31⟩]⟩ /- LX_EG_CFG -/,
    ⟨0x700208, 8, 0x400, 1, 0x0, [⟨0, 32, .rw, 0x2710, .no⟩]⟩ /- LX_EG_DELAY -/,
    ⟨0x70020C, 8, 0x400, 1, 0x0, [⟨0, 32, .ro, 0, .no⟩]⟩ /- LX_EG_LEVEL -/,
    ⟨0x700030, 8, 0x400, 1, 0x0, [⟨0, 32, .rc, 0, .no⟩]⟩ /- LX_IN_DROPPED -/,
    ⟨0x700034, 8, 0x400, 1, 0x0, [⟨0, 32, .rc, 0, .no⟩]⟩ /- LX_IN_BP_NS -/,
    ⟨0x700118, 8, 0x400, 1, 0x0, [⟨0, 32, .rc, 0, .no⟩]⟩ /- LX_PACE_WAIT_NS -/,
    ⟨0x700210, 8, 0x400, 1, 0x0, [⟨0, 32, .rc, 0, .no⟩]⟩ /- LX_EG_DROPPED -/,
    ⟨0x700214, 8, 0x400, 1, 0x0, [⟨0, 32, .rc, 0, .no⟩]⟩ /- LX_EG_EXCESS -/,
    ⟨0x700218, 8, 0x400, 1, 0x0, [⟨0, 32, .rc, 0, .no⟩]⟩ /- LX_EG_LATE -/,
    ⟨0x70021C, 8, 0x400, 1, 0x0, [⟨0, 32, .rc, 0, .no⟩]⟩ /- LX_EG_WAIT_EVENTS -/,
    ⟨0x700220, 8, 0x400, 1, 0x0, [⟨0, 32, .rc, 0, .no⟩]⟩ /- LX_EG_WAIT_NS -/,
    ⟨0x704000, 1, 0x0, 1, 0x0, [⟨24, 8, .w1c, 0, .no⟩, ⟨16, 8, .w1c, 0, .no⟩, ⟨8, 8, .w1c, 0, .no⟩, ⟨0, 8, .w1c, 0, .no⟩]⟩ /- LX_INT_STAT -/,
    ⟨0x704004, 1, 0x0, 1, 0x0, [⟨24, 8, .rw, 0, .no⟩, ⟨16, 8, .rw, 0, .no⟩, ⟨8, 8, .rw, 0, .no⟩, ⟨0, 8, .rw, 0, .no⟩]⟩ /- LX_INT_EN -/]

/-- The registers of block SHALE. -/
def regsShale : List RegSpec :=
  [
    ⟨0x800000, 1, 0x0, 1, 0x0, [⟨29, 3, .ro, 0, .no⟩, ⟨28, 1, .ro, 0, .no⟩, ⟨27, 1, .ro, 0, .no⟩]⟩ /- SH_STATUS -/,
    ⟨0x800004, 1, 0x0, 1, 0x0, [⟨31, 1, .wo, 0, .no⟩, ⟨29, 2, .rw, 0, .tgt 3 3 1⟩, ⟨0, 1, .rw, 0, .no⟩]⟩ /- SH_LOAD_CTRL -/,
    ⟨0x800008, 1, 0x0, 1, 0x0, [⟨2, 30, .rw, 0, .no⟩]⟩ /- SH_LOAD_ADDR_LO -/,
    ⟨0x80000C, 1, 0x0, 1, 0x0, [⟨0, 8, .rw, 0, .no⟩]⟩ /- SH_LOAD_ADDR_HI -/,
    ⟨0x800010, 1, 0x0, 1, 0x0, [⟨31, 1, .ro, 0, .no⟩, ⟨30, 1, .w1c, 0, .no⟩, ⟨29, 1, .w1c, 0, .no⟩, ⟨16, 4, .ro, 0xF, .no⟩, ⟨0, 16, .ro, 0, .no⟩]⟩ /- SH_LOAD_STAT -/,
    ⟨0x800014, 1, 0x0, 1, 0x0, [⟨0, 32, .ro, 0, .no⟩]⟩ /- SH_ZONE_STAT -/,
    ⟨0x800018, 1, 0x0, 1, 0x0, [⟨0, 16, .rw, 0x1234, .special 15⟩]⟩ /- STARTUP_SEQ -/,
    ⟨0x80001C, 1, 0x0, 1, 0x0, [⟨31, 1, .ro, 0, .no⟩, ⟨24, 3, .ro, 0, .no⟩, ⟨16, 8, .ro, 0, .no⟩]⟩ /- SH_FLASH_STAT -/,
    ⟨0x800020, 1, 0x0, 1, 0x0, [⟨31, 1, .rw, 1, .no⟩, ⟨30, 1, .rw, 0, .no⟩, ⟨0, 10, .rw, 0xA, .rng 2 1000⟩]⟩ /- SH_SCRUB_CFG -/,
    ⟨0x800024, 1, 0x0, 1, 0x0, [⟨0, 26, .rw, 0, .no⟩]⟩ /- SH_GOLD_BASE -/,
    ⟨0x800028, 1, 0x0, 1, 0x0, [⟨24, 8, .rc, 0, .no⟩, ⟨16, 8, .rc, 0, .no⟩, ⟨8, 8, .rc, 0, .no⟩, ⟨0, 8, .rc, 0, .no⟩]⟩ /- SH_SCRUB_CNT -/,
    ⟨0x80002C, 1, 0x0, 1, 0x0, [⟨16, 16, .ro, 0, .no⟩, ⟨0, 16, .ro, 0, .no⟩]⟩ /- SH_SCRUB_STAT -/,
    ⟨0x800030, 1, 0x0, 1, 0x0, [⟨31, 1, .ro, 0, .no⟩, ⟨29, 2, .ro, 0, .no⟩, ⟨23, 1, .ro, 0, .no⟩, ⟨21, 2, .ro, 0, .no⟩, ⟨15, 1, .ro, 0, .no⟩, ⟨13, 2, .ro, 0, .no⟩, ⟨7, 1, .ro, 0, .no⟩, ⟨5, 2, .ro, 0, .no⟩]⟩ /- SH_IO_STAT -/,
    ⟨0x800034, 1, 0x0, 1, 0x0, [⟨16, 8, .ro, 0, .no⟩, ⟨8, 8, .w1c, 0, .no⟩, ⟨0, 8, .ro, 0, .no⟩]⟩ /- SH_LOOP_STAT -/,
    ⟨0x800040, 1, 0x0, 1, 0x0, [⟨5, 1, .w1c, 0, .no⟩, ⟨4, 1, .w1c, 0, .no⟩, ⟨3, 1, .w1c, 0, .no⟩, ⟨2, 1, .w1c, 0, .no⟩, ⟨1, 1, .w1c, 0, .no⟩, ⟨0, 1, .w1c, 0, .no⟩]⟩ /- SH_INT_STAT -/,
    ⟨0x800044, 1, 0x0, 1, 0x0, [⟨5, 1, .rw, 0, .no⟩, ⟨4, 1, .rw, 0, .no⟩, ⟨3, 1, .rw, 0, .no⟩, ⟨2, 1, .rw, 0, .no⟩, ⟨1, 1, .rw, 0, .no⟩, ⟨0, 1, .rw, 0, .no⟩]⟩ /- SH_INT_EN -/]

/-- The registers of block ACQ. -/
def regsAcq : List RegSpec :=
  [
    ⟨0x900000, 1, 0x0, 1, 0x0, [⟨31, 1, .wo, 0, .no⟩, ⟨30, 1, .wo, 0, .no⟩, ⟨29, 1, .rw, 0, .no⟩]⟩ /- ACQ_CTRL -/,
    ⟨0x900004, 1, 0x0, 1, 0x0, [⟨29, 3, .ro, 0, .no⟩, ⟨16, 4, .ro, 0, .no⟩]⟩ /- ACQ_STAT -/,
    ⟨0x900008, 1, 0x0, 1, 0x0, [⟨30, 2, .rw, 2, .no⟩]⟩ /- ACQ_CAP_CFG -/,
    ⟨0x90000C, 1, 0x0, 1, 0x0, [⟨31, 1, .rw, 0, .no⟩, ⟨24, 6, .rw, 0x30, .rng 1 48⟩, ⟨0, 17, .rw, 1, .rng 1 65536⟩]⟩ /- ACQ_AVG -/,
    ⟨0x900010, 1, 0x0, 1, 0x0, [⟨0, 32, .rw, 0, .no⟩]⟩ /- ACQ_PROBE_SEL_LO -/,
    ⟨0x900014, 1, 0x0, 1, 0x0, [⟨0, 32, .rw, 0, .no⟩]⟩ /- ACQ_PROBE_SEL_HI -/,
    ⟨0x900018, 1, 0x0, 1, 0x0, [⟨0, 32, .rw, 0, .no⟩]⟩ /- ACQ_QUAL_MASK_LO -/,
    ⟨0x90001C, 1, 0x0, 1, 0x0, [⟨0, 32, .rw, 0, .no⟩]⟩ /- ACQ_QUAL_MASK_HI -/,
    ⟨0x900020, 1, 0x0, 1, 0x0, [⟨0, 32, .rw, 0, .no⟩]⟩ /- ACQ_PRE -/,
    ⟨0x900024, 1, 0x0, 1, 0x0, [⟨0, 32, .rw, 0, .no⟩]⟩ /- ACQ_POST -/,
    ⟨0x900028, 1, 0x0, 1, 0x0, [⟨0, 26, .rw, 0, .no⟩]⟩ /- ACQ_STORE_BASE -/,
    ⟨0x90002C, 1, 0x0, 1, 0x0, [⟨0, 6, .rw, 0x14, .rng 12 36⟩]⟩ /- ACQ_STORE_CFG -/,
    ⟨0x900030, 1, 0x0, 1, 0x0, [⟨0, 32, .rw, 0, .no⟩]⟩ /- ACQ_ARM_ECN_LO -/,
    ⟨0x900034, 1, 0x0, 1, 0x0, [⟨0, 32, .rw, 0, .no⟩]⟩ /- ACQ_ARM_ECN_HI -/,
    ⟨0x900038, 1, 0x0, 1, 0x0, [⟨0, 26, .rw, 0, .no⟩]⟩ /- ACQ_EVLOG_BASE -/,
    ⟨0x90003C, 1, 0x0, 1, 0x0, [⟨31, 1, .rw, 0, .no⟩, ⟨0, 5, .rw, 0x10, .rng 10 24⟩]⟩ /- ACQ_EVLOG_CFG -/,
    ⟨0x900040, 1, 0x0, 1, 0x0, [⟨0, 32, .ro, 0, .no⟩]⟩ /- ACQ_TRIG_ECN_LO -/,
    ⟨0x900044, 1, 0x0, 1, 0x0, [⟨0, 32, .ro, 0, .no⟩]⟩ /- ACQ_TRIG_ECN_HI -/,
    ⟨0x900048, 1, 0x0, 1, 0x0, [⟨0, 32, .ro, 0, .no⟩]⟩ /- ACQ_TRIG_POS_LO -/,
    ⟨0x90004C, 1, 0x0, 1, 0x0, [⟨0, 32, .ro, 0, .no⟩]⟩ /- ACQ_TRIG_POS_HI -/,
    ⟨0x900050, 1, 0x0, 1, 0x0, [⟨0, 32, .ro, 0, .no⟩]⟩ /- ACQ_FIRST_POS_LO -/,
    ⟨0x900054, 1, 0x0, 1, 0x0, [⟨0, 32, .ro, 0, .no⟩]⟩ /- ACQ_FIRST_POS_HI -/,
    ⟨0x900058, 1, 0x0, 1, 0x0, [⟨0, 32, .ro, 0, .no⟩]⟩ /- ACQ_WRITE_POS_LO -/,
    ⟨0x90005C, 1, 0x0, 1, 0x0, [⟨0, 32, .ro, 0, .no⟩]⟩ /- ACQ_WRITE_POS_HI -/,
    ⟨0x900060, 1, 0x0, 1, 0x0, [⟨0, 32, .rc, 0, .no⟩]⟩ /- ACQ_WAIT_NS -/,
    ⟨0x900200, 16, 0x20, 1, 0x0, [⟨26, 6, .rw, 0, .no⟩, ⟨20, 6, .rw, 0, .no⟩, ⟨13, 7, .rw, 0x40, .rng 1 64⟩, ⟨12, 1, .rw, 0, .no⟩, ⟨0, 3, .rw, 0, .tgt 6 7 0⟩]⟩ /- CMP_CFG -/,
    ⟨0x900204, 16, 0x20, 1, 0x0, [⟨0, 32, .rw, 0, .no⟩]⟩ /- CMP_VALUE_LO -/,
    ⟨0x900208, 16, 0x20, 1, 0x0, [⟨0, 32, .rw, 0, .no⟩]⟩ /- CMP_VALUE_HI -/,
    ⟨0x90020C, 16, 0x20, 1, 0x0, [⟨0, 32, .rw, 0, .no⟩]⟩ /- CMP_MASK_LO -/,
    ⟨0x900210, 16, 0x20, 1, 0x0, [⟨0, 32, .rw, 0, .no⟩]⟩ /- CMP_MASK_HI -/,
    ⟨0x900400, 8, 0x20, 1, 0x0, [⟨16, 16, .rw, 0, .no⟩, ⟨14, 2, .rw, 0, .no⟩, ⟨0, 6, .rw, 0, .rng 0 55⟩]⟩ /- CNT_CFG -/,
    ⟨0x900404, 8, 0x20, 1, 0x0, [⟨0, 32, .rw, 0, .no⟩]⟩ /- CNT_LIMIT_LO -/,
    ⟨0x900408, 8, 0x20, 1, 0x0, [⟨0, 16, .rw, 0, .no⟩]⟩ /- CNT_LIMIT_HI -/,
    ⟨0x90040C, 8, 0x20, 1, 0x0, [⟨0, 32, .ro, 0, .no⟩]⟩ /- CNT_VALUE_LO -/,
    ⟨0x900410, 8, 0x20, 1, 0x0, [⟨0, 32, .ro, 0, .no⟩]⟩ /- CNT_VALUE_HI -/,
    ⟨0x900600, 16, 0x20, 2, 0x10, [⟨0, 32, .rw, 0, .no⟩]⟩ /- BR_MASK_LO -/,
    ⟨0x900604, 16, 0x20, 2, 0x10, [⟨0, 32, .rw, 0, .no⟩]⟩ /- BR_MASK_HI -/,
    ⟨0x900608, 16, 0x20, 2, 0x10, [⟨30, 2, .rw, 0, .no⟩, ⟨26, 4, .rw, 0, .no⟩, ⟨25, 1, .rw, 0, .no⟩, ⟨24, 1, .rw, 0, .no⟩, ⟨16, 8, .rw, 0, .no⟩, ⟨8, 8, .rw, 0, .no⟩, ⟨0, 8, .rw, 0, .no⟩]⟩ /- BR_CTRL -/,
    ⟨0x900800, 8, 0x4, 1, 0x0, [⟨3, 2, .rw, 0, .tgt 3 3 0⟩, ⟨2, 1, .rw, 0, .no⟩, ⟨1, 1, .rw, 0, .no⟩, ⟨0, 1, .rw, 0, .no⟩]⟩ /- ACQ_TRIGIO -/,
    ⟨0x900820, 1, 0x0, 1, 0x0, [⟨0, 2, .rw, 0, .tgt 3 3 0⟩]⟩ /- ACQ_STAR_CFG -/] ++ [
    ⟨0x900824, 1, 0x0, 1, 0x0, [⟨0, 20, .rw, 0x64, .rng 20 1000000⟩]⟩ /- ACQ_OUT_CFG -/,
    ⟨0x901000, 4, 0x100, 1, 0x0, [⟨31, 1, .rw, 0, .no⟩, ⟨30, 1, .rw, 0, .no⟩, ⟨24, 6, .rw, 0, .no⟩, ⟨18, 6, .rw, 0, .no⟩, ⟨12, 6, .rw, 1, .rng 1 48⟩]⟩ /- MEAS_CFG -/,
    ⟨0x901004, 4, 0x100, 1, 0x0, [⟨0, 25, .rw, 0x400, .rng 1 16777216⟩]⟩ /- WIN -/,
    ⟨0x901008, 4, 0x100, 1, 0x0, [⟨0, 32, .rw, 0, .no⟩]⟩ /- TH_HI_LO -/,
    ⟨0x90100C, 4, 0x100, 1, 0x0, [⟨0, 32, .rw, 0, .no⟩]⟩ /- TH_HI_HI -/,
    ⟨0x901010, 4, 0x100, 1, 0x0, [⟨0, 32, .rw, 0, .no⟩]⟩ /- TH_LO_LO -/,
    ⟨0x901014, 4, 0x100, 1, 0x0, [⟨0, 32, .rw, 0, .no⟩]⟩ /- TH_LO_HI -/,
    ⟨0x901018, 4, 0x100, 1, 0x0, [⟨0, 32, .rc, 0, .no⟩]⟩ /- LOST -/,
    ⟨0x901040, 4, 0x100, 1, 0x0, [⟨31, 1, .ro, 0, .no⟩, ⟨30, 1, .ro, 0, .no⟩, ⟨0, 16, .ro, 0, .no⟩]⟩ /- RES_STAT -/,
    ⟨0x901044, 4, 0x100, 1, 0x0, [⟨0, 16, .wo, 0, .no⟩]⟩ /- RES_ACK -/,
    ⟨0x901048, 4, 0x100, 1, 0x0, [⟨0, 32, .ro, 0, .no⟩]⟩ /- RES_START_ECN_LO -/,
    ⟨0x90104C, 4, 0x100, 1, 0x0, [⟨0, 32, .ro, 0, .no⟩]⟩ /- RES_START_ECN_HI -/,
    ⟨0x901050, 4, 0x100, 1, 0x0, [⟨0, 32, .ro, 0, .no⟩]⟩ /- RES_MIN_LO -/,
    ⟨0x901054, 4, 0x100, 1, 0x0, [⟨0, 32, .ro, 0, .no⟩]⟩ /- RES_MIN_HI -/,
    ⟨0x901058, 4, 0x100, 1, 0x0, [⟨0, 32, .ro, 0, .no⟩]⟩ /- RES_MIN_ECN_LO -/,
    ⟨0x90105C, 4, 0x100, 1, 0x0, [⟨0, 32, .ro, 0, .no⟩]⟩ /- RES_MIN_ECN_HI -/,
    ⟨0x901060, 4, 0x100, 1, 0x0, [⟨0, 32, .ro, 0, .no⟩]⟩ /- RES_MAX_LO -/,
    ⟨0x901064, 4, 0x100, 1, 0x0, [⟨0, 32, .ro, 0, .no⟩]⟩ /- RES_MAX_HI -/,
    ⟨0x901068, 4, 0x100, 1, 0x0, [⟨0, 32, .ro, 0, .no⟩]⟩ /- RES_MAX_ECN_LO -/,
    ⟨0x90106C, 4, 0x100, 1, 0x0, [⟨0, 32, .ro, 0, .no⟩]⟩ /- RES_MAX_ECN_HI -/,
    ⟨0x901070, 4, 0x100, 1, 0x0, [⟨0, 32, .ro, 0, .no⟩]⟩ /- RES_MEAN_LO -/,
    ⟨0x901074, 4, 0x100, 1, 0x0, [⟨0, 32, .ro, 0, .no⟩]⟩ /- RES_MEAN_HI -/,
    ⟨0x901078, 4, 0x100, 1, 0x0, [⟨0, 32, .ro, 0, .no⟩]⟩ /- RES_RMS_LO -/,
    ⟨0x90107C, 4, 0x100, 1, 0x0, [⟨0, 32, .ro, 0, .no⟩]⟩ /- RES_RMS_HI -/,
    ⟨0x901080, 4, 0x100, 1, 0x0, [⟨0, 32, .ro, 0, .no⟩]⟩ /- RES_AMPL_LO -/,
    ⟨0x901084, 4, 0x100, 1, 0x0, [⟨0, 32, .ro, 0, .no⟩]⟩ /- RES_AMPL_HI -/,
    ⟨0x901088, 4, 0x100, 1, 0x0, [⟨0, 32, .ro, 0, .no⟩]⟩ /- RES_CROSSINGS -/,
    ⟨0x90108C, 4, 0x100, 1, 0x0, [⟨0, 32, .ro, 0, .no⟩]⟩ /- RES_HIGH -/,
    ⟨0x901090, 4, 0x100, 1, 0x0, [⟨0, 32, .ro, 0, .no⟩]⟩ /- RES_EDGES -/,
    ⟨0x901094, 4, 0x100, 1, 0x0, [⟨0, 32, .ro, 0, .no⟩]⟩ /- RES_PERIOD_SPAN -/,
    ⟨0x901098, 4, 0x100, 1, 0x0, [⟨0, 32, .ro, 0, .no⟩]⟩ /- RES_TOGGLES_LO -/,
    ⟨0x90109C, 4, 0x100, 1, 0x0, [⟨0, 32, .ro, 0, .no⟩]⟩ /- RES_TOGGLES_HI -/,
    ⟨0x902040, 1, 0x0, 1, 0x0, [⟨31, 1, .ro, 0, .no⟩, ⟨29, 1, .ro, 0, .no⟩, ⟨0, 16, .ro, 0, .no⟩]⟩ /- DSP_RES_STAT -/,
    ⟨0x902044, 1, 0x0, 1, 0x0, [⟨0, 16, .wo, 0, .no⟩]⟩ /- DSP_RES_ACK -/,
    ⟨0x902048, 1, 0x0, 1, 0x0, [⟨0, 8, .ro, 0, .no⟩]⟩ /- DSP_BEXP_TOTAL -/,
    ⟨0x90204C, 1, 0x0, 1, 0x0, [⟨0, 27, .ro, 0, .no⟩]⟩ /- DSP_MAXMAG -/,
    ⟨0x902050, 4, 0x8, 1, 0x0, [⟨0, 32, .ro, 0, .no⟩]⟩ /- DSP_ACC_LO -/,
    ⟨0x902054, 4, 0x8, 1, 0x0, [⟨0, 32, .ro, 0, .no⟩]⟩ /- DSP_ACC_HI -/,
    ⟨0x902070, 1, 0x0, 1, 0x0, [⟨0, 32, .ro, 0, .no⟩]⟩ /- DSP_MIN_LO -/,
    ⟨0x902074, 1, 0x0, 1, 0x0, [⟨0, 32, .ro, 0, .no⟩]⟩ /- DSP_MIN_HI -/] ++ [
    ⟨0x902078, 1, 0x0, 1, 0x0, [⟨0, 32, .ro, 0, .no⟩]⟩ /- DSP_MAX_LO -/,
    ⟨0x90207C, 1, 0x0, 1, 0x0, [⟨0, 32, .ro, 0, .no⟩]⟩ /- DSP_MAX_HI -/,
    ⟨0x902080, 1, 0x0, 1, 0x0, [⟨0, 32, .ro, 0, .no⟩]⟩ /- DSP_MIN_IDX -/,
    ⟨0x902084, 1, 0x0, 1, 0x0, [⟨0, 32, .ro, 0, .no⟩]⟩ /- DSP_MAX_IDX -/,
    ⟨0x902000, 1, 0x0, 1, 0x0, [⟨6, 26, .rw, 0, .no⟩]⟩ /- DSP_CHAIN_LO -/,
    ⟨0x902004, 1, 0x0, 1, 0x0, [⟨0, 8, .rw, 0, .no⟩]⟩ /- DSP_CHAIN_HI -/,
    ⟨0x902008, 1, 0x0, 1, 0x0, [⟨31, 1, .wo, 0, .no⟩, ⟨30, 1, .ro, 0, .no⟩]⟩ /- DSP_CTRL -/,
    ⟨0x903000, 1, 0x0, 1, 0x0, [⟨6, 4, .w1c, 0, .no⟩, ⟨5, 1, .w1c, 0, .no⟩, ⟨4, 1, .w1c, 0, .no⟩, ⟨3, 1, .w1c, 0, .no⟩, ⟨2, 1, .w1c, 0, .no⟩, ⟨1, 1, .w1c, 0, .no⟩, ⟨0, 1, .w1c, 0, .no⟩]⟩ /- ACQ_INT_STAT -/,
    ⟨0x903004, 1, 0x0, 1, 0x0, [⟨6, 4, .rw, 0, .no⟩, ⟨5, 1, .rw, 0, .no⟩, ⟨4, 1, .rw, 0, .no⟩, ⟨3, 1, .rw, 0, .no⟩, ⟨2, 1, .rw, 0, .no⟩, ⟨1, 1, .rw, 0, .no⟩, ⟨0, 1, .rw, 0, .no⟩]⟩ /- ACQ_INT_EN -/]

/-- The registers of block TIME. -/
def regsTime : List RegSpec :=
  [
    ⟨0xA00000, 1, 0x0, 1, 0x0, [⟨0, 32, .ro, 0, .no⟩]⟩ /- TB0_LO -/,
    ⟨0xA00004, 1, 0x0, 1, 0x0, [⟨0, 32, .ro, 0, .no⟩]⟩ /- TB0_HI -/,
    ⟨0xA00008, 1, 0x0, 1, 0x0, [⟨0, 32, .ro, 0, .no⟩]⟩ /- TB1_LO -/,
    ⟨0xA0000C, 1, 0x0, 1, 0x0, [⟨0, 32, .ro, 0, .no⟩]⟩ /- TB1_HI -/,
    ⟨0xA00010, 1, 0x0, 1, 0x0, [⟨0, 32, .ro, 0, .no⟩]⟩ /- TB2_LO -/,
    ⟨0xA00014, 1, 0x0, 1, 0x0, [⟨0, 32, .ro, 0, .no⟩]⟩ /- TB2_HI -/,
    ⟨0xA00018, 1, 0x0, 1, 0x0, [⟨0, 32, .ro, 0, .no⟩]⟩ /- TB0_EPOCH -/,
    ⟨0xA0001C, 1, 0x0, 1, 0x0, [⟨0, 32, .ro, 0, .no⟩]⟩ /- TB1_EPOCH -/,
    ⟨0xA00020, 1, 0x0, 1, 0x0, [⟨16, 16, .rw, 1, .rng 1 65535⟩, ⟨8, 1, .rw, 0, .no⟩, ⟨4, 3, .rw, 0, .no⟩, ⟨0, 2, .rw, 0, .tgt 3 3 0⟩]⟩ /- TB0_CFG -/,
    ⟨0xA00024, 1, 0x0, 1, 0x0, [⟨0, 32, .rw, 0, .no⟩]⟩ /- TB0_SET_LO -/,
    ⟨0xA00028, 1, 0x0, 1, 0x0, [⟨0, 32, .rw, 0, .no⟩]⟩ /- TB0_SET_HI -/,
    ⟨0xA00030, 1, 0x0, 1, 0x0, [⟨0, 32, .wo, 0, .no⟩]⟩ /- TB0_ADJ -/,
    ⟨0xA0003C, 1, 0x0, 1, 0x0, [⟨0, 32, .ro, 0, .no⟩]⟩ /- TB0_EDGE_LO -/,
    ⟨0xA00040, 1, 0x0, 1, 0x0, [⟨0, 32, .ro, 0, .no⟩]⟩ /- TB0_EDGE_HI -/,
    ⟨0xA00044, 1, 0x0, 1, 0x0, [⟨0, 32, .ro, 0, .no⟩]⟩ /- TB0_RATE -/,
    ⟨0xA0002C, 1, 0x0, 1, 0x0, [⟨31, 1, .wo, 0, .no⟩, ⟨30, 1, .wo, 0, .no⟩]⟩ /- TB0_CTRL -/,
    ⟨0xA00034, 1, 0x0, 1, 0x0, [⟨31, 1, .ro, 0, .no⟩, ⟨30, 1, .ro, 0, .no⟩, ⟨0, 24, .ro, 0, .no⟩]⟩ /- TB0_STAT -/,
    ⟨0xA00038, 1, 0x0, 1, 0x0, [⟨0, 32, .rw, 0xF4240, .rng 1000 1000000⟩]⟩ /- TB0_SYNC_PERIOD -/,
    ⟨0xA00080, 1, 0x0, 1, 0x0, [⟨24, 8, .rw, 0x64, .special 9⟩, ⟨16, 8, .rw, 0xA, .rng 1 255⟩, ⟨8, 4, .rw, 4, .rng 0 10⟩, ⟨0, 2, .rw, 0, .tgt 3 3 0⟩]⟩ /- TB1_CFG -/,
    ⟨0xA00084, 1, 0x0, 1, 0x0, [⟨0, 24, .rw, 0x2710, .rng 1000 1000000⟩]⟩ /- TB1_SLEW -/,
    ⟨0xA00088, 1, 0x0, 1, 0x0, [⟨16, 13, .rw, 0, .no⟩, ⟨0, 13, .rw, 0, .no⟩]⟩ /- TB1_MASTER_ID -/,
    ⟨0xA0008C, 1, 0x0, 1, 0x0, [⟨31, 1, .ro, 0, .no⟩, ⟨30, 1, .ro, 0, .no⟩, ⟨29, 1, .ro, 0, .no⟩, ⟨28, 1, .ro, 1, .no⟩, ⟨26, 2, .ro, 0, .no⟩, ⟨24, 2, .ro, 0, .no⟩]⟩ /- TB1_STAT -/,
    ⟨0xA00090, 2, 0x4, 1, 0x0, [⟨0, 32, .ro, 0, .no⟩]⟩ /- TB1_OFFSET -/,
    ⟨0xA00098, 2, 0x4, 1, 0x0, [⟨0, 32, .ro, 0, .no⟩]⟩ /- TB1_DELAY -/,
    ⟨0xA000A0, 1, 0x0, 1, 0x0, [⟨0, 32, .rc, 0, .no⟩]⟩ /- EXCH_ERR -/,
    ⟨0xA000A4, 1, 0x0, 1, 0x0, [⟨0, 32, .rc, 0, .no⟩]⟩ /- EXCH_LOST -/,
    ⟨0xA00100, 8, 0x4, 1, 0x0, [⟨16, 16, .rw, 0, .no⟩, ⟨0, 16, .rw, 0, .no⟩]⟩ /- PORT_ASYM -/,
    ⟨0xA00200, 8, 0x20, 1, 0x0, [⟨31, 1, .rw, 0, .no⟩, ⟨30, 1, .rw, 0, .no⟩, ⟨28, 2, .rw, 0, .tgt 3 3 0⟩, ⟨16, 8, .rw, 0, .no⟩, ⟨15, 1, .rw, 0, .no⟩]⟩ /- TMR_CFG -/,
    ⟨0xA00204, 8, 0x20, 1, 0x0, [⟨0, 32, .rw, 0, .no⟩]⟩ /- TMR_TIME_LO -/,
    ⟨0xA00208, 8, 0x20, 1, 0x0, [⟨0, 32, .rw, 0, .no⟩]⟩ /- TMR_TIME_HI -/,
    ⟨0xA0020C, 8, 0x20, 1, 0x0, [⟨0, 32, .rw, 0, .no⟩]⟩ /- TMR_PERIOD_LO -/,
    ⟨0xA00210, 8, 0x20, 1, 0x0, [⟨0, 32, .rw, 0, .no⟩]⟩ /- TMR_PERIOD_HI -/,
    ⟨0xA00214, 8, 0x20, 1, 0x0, [⟨31, 1, .rw, 0, .no⟩, ⟨8, 16, .rw, 0, .no⟩, ⟨0, 8, .rw, 0, .no⟩]⟩ /- TMR_CMD -/,
    ⟨0xA00218, 8, 0x20, 1, 0x0, [⟨16, 16, .rc, 0, .no⟩, ⟨0, 16, .rc, 0, .no⟩]⟩ /- TMR_STAT -/,
    ⟨0xA00400, 1, 0x0, 1, 0x0, [⟨8, 8, .w1c, 0, .no⟩, ⟨5, 1, .w1c, 0, .no⟩, ⟨4, 1, .w1c, 0, .no⟩, ⟨3, 1, .w1c, 0, .no⟩, ⟨2, 1, .w1c, 0, .no⟩, ⟨1, 1, .w1c, 0, .no⟩, ⟨0, 1, .w1c, 0, .no⟩]⟩ /- TIME_INT_STAT -/,
    ⟨0xA00404, 1, 0x0, 1, 0x0, [⟨8, 8, .rw, 0, .no⟩, ⟨5, 1, .rw, 0, .no⟩, ⟨4, 1, .rw, 0, .no⟩, ⟨3, 1, .rw, 0, .no⟩, ⟨2, 1, .rw, 0, .no⟩, ⟨1, 1, .rw, 0, .no⟩, ⟨0, 1, .rw, 0, .no⟩]⟩ /- TIME_INT_EN -/]

/-- The registers of block BADGER. -/
def regsBadger : List RegSpec :=
  [
    ⟨0xB00000, 8, 0x10, 1, 0x0, [⟨31, 1, .wo, 0, .no⟩, ⟨30, 1, .rww, 0, .no⟩]⟩ /- BG_CORE_CTRL -/,
    ⟨0xB00004, 8, 0x10, 1, 0x0, [⟨2, 30, .rww, 0x10000000, .no⟩]⟩ /- BG_BOOT_LO -/,
    ⟨0xB00008, 8, 0x10, 1, 0x0, [⟨0, 8, .rww, 0x40, .no⟩]⟩ /- BG_BOOT_HI -/,
    ⟨0xB0000C, 8, 0x10, 1, 0x0, [⟨29, 3, .ro, 0, .no⟩, ⟨27, 2, .ro, 0, .no⟩, ⟨26, 1, .ro, 0, .no⟩, ⟨0, 10, .ro, 0, .no⟩]⟩ /- BG_CORE_STAT -/,
    ⟨0xB00100, 1, 0x0, 1, 0x0, [⟨0, 32, .ro, 0, .no⟩]⟩ /- BG_EPOCH0 -/,
    ⟨0xB00104, 1, 0x0, 1, 0x0, [⟨0, 32, .ro, 0, .no⟩]⟩ /- BG_EPOCH1 -/,
    ⟨0xB00108, 1, 0x0, 1, 0x0, [⟨8, 8, .ro, 0, .no⟩, ⟨0, 8, .ro, 0, .no⟩]⟩ /- BG_EPOCH2 -/,
    ⟨0xB00110, 1, 0x0, 1, 0x0, [⟨16, 16, .rc, 0, .no⟩, ⟨0, 16, .rc, 0, .no⟩]⟩ /- BG_CACHE_CNT -/,
    ⟨0xB01000, 1, 0x0, 1, 0x0, [⟨8, 8, .rw, 2, .no⟩, ⟨0, 1, .rw, 1, .no⟩]⟩ /- DISP_CTRL -/,
    ⟨0xB01004, 1, 0x0, 1, 0x0, [⟨31, 1, .ro, 1, .no⟩, ⟨30, 1, .ro, 0, .no⟩, ⟨29, 1, .ro, 0, .no⟩, ⟨16, 11, .ro, 0, .no⟩, ⟨0, 11, .ro, 0, .no⟩]⟩ /- DISP_STAT -/,
    ⟨0xB01008, 1, 0x0, 1, 0x0, [⟨0, 32, .ro, 0, .no⟩]⟩ /- DISP_TICK_LO -/,
    ⟨0xB0100C, 1, 0x0, 1, 0x0, [⟨0, 32, .ro, 0, .no⟩]⟩ /- DISP_TICK_HI -/,
    ⟨0xB01010, 1, 0x0, 1, 0x0, [⟨0, 10, .wo, 0, .no⟩]⟩ /- DISP_READY -/,
    ⟨0xB01020, 1, 0x0, 1, 0x0, [⟨3, 1, .w1c, 0, .no⟩, ⟨2, 1, .w1c, 0, .no⟩, ⟨1, 1, .w1c, 0, .no⟩, ⟨0, 1, .w1c, 0, .no⟩]⟩ /- DISP_INT_STAT -/,
    ⟨0xB01024, 1, 0x0, 1, 0x0, [⟨3, 1, .rw, 0, .no⟩, ⟨2, 1, .rw, 0, .no⟩, ⟨1, 1, .rw, 0, .no⟩, ⟨0, 1, .rw, 0, .no⟩]⟩ /- DISP_INT_EN -/,
    ⟨0xB04000, 1024, 0x10, 1, 0x0, [⟨31, 1, .rw, 0, .no⟩, ⟨16, 5, .rw, 0x1F, .no⟩, ⟨8, 8, .rw, 0xFF, .tgt 0 0 255⟩]⟩ /- DISP_CFG -/,
    ⟨0xB04004, 1024, 0x10, 1, 0x0, [⟨0, 32, .rw, 0, .no⟩]⟩ /- DISP_TAG_LO -/,
    ⟨0xB04008, 1024, 0x10, 1, 0x0, [⟨0, 15, .rw, 0, .no⟩]⟩ /- DISP_TAG_HI -/,
    ⟨0xB0400C, 1024, 0x10, 1, 0x0, [⟨29, 3, .ro, 0, .no⟩, ⟨28, 1, .ro, 0, .no⟩, ⟨27, 1, .w1c, 0, .no⟩, ⟨26, 1, .ro, 0, .no⟩, ⟨16, 4, .ro, 0xF, .no⟩]⟩ /- DISP_STAT_T -/]

/-- The registers of block MAILBOX. -/
def regsMailbox : List RegSpec :=
  [
    ⟨0xC00000, 64, 0x10, 1, 0x0, [⟨31, 1, .rw, 0, .no⟩, ⟨30, 1, .rw, 0, .no⟩, ⟨16, 10, .rw, 0, .no⟩, ⟨0, 4, .rw, 0, .tgt 9 15 8⟩]⟩ /- MB_CFG -/,
    ⟨0xC00004, 64, 0x10, 1, 0x0, [⟨16, 16, .rc, 0, .no⟩, ⟨0, 16, .rc, 0, .no⟩]⟩ /- MB_COUNT -/,
    ⟨0xC01000, 9, 0x8, 1, 0x0, [⟨0, 32, .ro, 0, .no⟩]⟩ /- MB_PEND_LO -/,
    ⟨0xC01004, 9, 0x8, 1, 0x0, [⟨0, 32, .ro, 0, .no⟩]⟩ /- MB_PEND_HI -/]

/-- The registers of block RING. -/
def regsRing : List RegSpec :=
  [
    ⟨0xD00000, 1, 0x0, 1, 0x0, [⟨8, 8, .rww, 0x19, .rng 1 255⟩, ⟨0, 8, .rww, 4, .rng 1 255⟩]⟩ /- RING_CFG -/,
    ⟨0xD00004, 1, 0x0, 1, 0x0, [⟨0, 28, .w1c, 0, .no⟩]⟩ /- RING_ISO_LO -/,
    ⟨0xD00008, 1, 0x0, 1, 0x0, [⟨0, 16, .w1c, 0, .no⟩]⟩ /- RING_ISO_HI -/,
    ⟨0xD0000C, 1, 0x0, 1, 0x0, [⟨0, 28, .ro, 0, .no⟩]⟩ /- RING_FENCE -/,
    ⟨0xD00010, 1, 0x0, 1, 0x0, [⟨16, 16, .rc, 0, .no⟩, ⟨0, 16, .rc, 0, .no⟩]⟩ /- RING_ECC_CNT -/,
    ⟨0xD00020, 1, 0x0, 1, 0x0, [⟨3, 1, .w1c, 0, .no⟩, ⟨2, 1, .w1c, 0, .no⟩, ⟨1, 1, .w1c, 0, .no⟩, ⟨0, 1, .w1c, 0, .no⟩]⟩ /- RING_INT_STAT -/,
    ⟨0xD00024, 1, 0x0, 1, 0x0, [⟨3, 1, .rw, 0, .no⟩, ⟨2, 1, .rw, 0, .no⟩, ⟨1, 1, .rw, 0, .no⟩, ⟨0, 1, .rw, 0, .no⟩]⟩ /- RING_INT_EN -/,
    ⟨0xD00100, 28, 0x4, 1, 0x0, [⟨31, 1, .ro, 0, .no⟩, ⟨30, 1, .ro, 0, .no⟩, ⟨16, 5, .ro, 0, .no⟩, ⟨0, 8, .rc, 0, .no⟩]⟩ /- RING_STOP_STAT -/,
    ⟨0xD01000, 28, 0x100, 28, 0x4, [⟨7, 1, .rww, 0, .no⟩, ⟨0, 5, .rww, 0, .rng 1 27⟩]⟩ /- RING_ROUTE -/,
    ⟨0xD01080, 28, 0x100, 16, 0x4, [⟨7, 1, .rww, 0, .no⟩, ⟨0, 5, .rww, 0, .rng 1 27⟩]⟩ /- RING_ROUTE_SP -/]

/-- The registers of block SPAD. -/
def regsSpad : List RegSpec :=
  [
    ⟨0xE00000, 16, 0x4, 1, 0x0, [⟨31, 1, .ro, 0, .no⟩, ⟨30, 1, .wo, 0, .no⟩, ⟨0, 4, .rww, 0, .tgt 10 14 15⟩]⟩ /- SPAD_OWNER -/,
    ⟨0xE00040, 1, 0x0, 1, 0x0, [⟨16, 16, .rc, 0, .no⟩, ⟨0, 16, .rc, 0, .no⟩]⟩ /- SPAD_ECC -/,
    ⟨0xE00050, 1, 0x0, 1, 0x0, [⟨16, 16, .w1c, 0, .no⟩, ⟨1, 1, .w1c, 0, .no⟩, ⟨0, 1, .w1c, 0, .no⟩]⟩ /- SPAD_INT_STAT -/,
    ⟨0xE00054, 1, 0x0, 1, 0x0, [⟨16, 16, .rw, 0, .no⟩, ⟨1, 1, .rw, 0, .no⟩, ⟨0, 1, .rw, 0, .no⟩]⟩ /- SPAD_INT_EN -/]

/-- The registers of block CRYPT. -/
def regsCrypt : List RegSpec :=
  [
    ⟨0xF00000, 1, 0x0, 1, 0x0, [⟨31, 1, .w1s, 0, .no⟩]⟩ /- CRYPT_CTRL -/,
    ⟨0xF00004, 1, 0x0, 1, 0x0, [⟨31, 1, .ro, 0, .no⟩, ⟨30, 1, .ro, 0, .no⟩, ⟨26, 4, .ro, 0, .no⟩]⟩ /- CRYPT_STAT -/,
    ⟨0xF00010, 16, 0x4, 1, 0x0, [⟨0, 32, .wo, 0, .no⟩]⟩ /- CRYPT_KEY_DATA -/,
    ⟨0xF00050, 1, 0x0, 1, 0x0, [⟨31, 1, .wo, 0, .no⟩, ⟨29, 2, .wo, 0, .tgt 3 3 2⟩, ⟨0, 5, .wo, 0, .no⟩]⟩ /- CRYPT_KEY_CMD -/,
    ⟨0xF00054, 1, 0x0, 1, 0x0, [⟨0, 32, .ro, 0, .no⟩]⟩ /- CRYPT_KEY_STAT -/,
    ⟨0xF00058, 1, 0x0, 1, 0x0, [⟨0, 5, .rw, 8, .rng 1 16⟩]⟩ /- CRYPT_REKEY_CFG -/,
    ⟨0xF00100, 16, 0x20, 1, 0x0, [⟨0, 14, .rwl, 0, .no⟩]⟩ /- CR_REG_BASE -/,
    ⟨0xF00104, 16, 0x20, 1, 0x0, [⟨0, 15, .rwl, 0, .regionSize⟩]⟩ /- CR_REG_SIZE -/,
    ⟨0xF00108, 16, 0x20, 1, 0x0, [⟨31, 1, .rwl, 0, .no⟩, ⟨30, 1, .wo, 0, .no⟩, ⟨16, 2, .rwl, 0, .tgt 3 3 2⟩, ⟨8, 5, .rw, 0, .no⟩, ⟨0, 5, .rwl, 0, .no⟩]⟩ /- CR_REG_CFG -/,
    ⟨0xF0010C, 16, 0x20, 1, 0x0, [⟨0, 32, .rwl, 0, .no⟩]⟩ /- CR_REG_RIGHTS -/,
    ⟨0xF00110, 16, 0x20, 1, 0x0, [⟨29, 3, .ro, 0, .no⟩, ⟨0, 26, .ro, 0, .no⟩]⟩ /- CR_REG_STAT -/,
    ⟨0xF00060, 1, 0x0, 1, 0x0, [⟨0, 32, .rc, 0, .no⟩]⟩ /- CRYPT_DENIED_CNT -/,
    ⟨0xF00064, 1, 0x0, 1, 0x0, [⟨0, 32, .rc, 0, .no⟩]⟩ /- CRYPT_REREAD_CNT -/,
    ⟨0xF00068, 1, 0x0, 1, 0x0, [⟨16, 16, .rc, 0, .no⟩, ⟨0, 16, .rc, 0, .no⟩]⟩ /- CRYPT_NODE_CNT -/,
    ⟨0xF00070, 1, 0x0, 1, 0x0, [⟨5, 1, .w1c, 0, .no⟩, ⟨4, 1, .w1c, 0, .no⟩, ⟨3, 1, .w1c, 0, .no⟩, ⟨2, 1, .w1c, 0, .no⟩, ⟨1, 1, .w1c, 0, .no⟩, ⟨0, 1, .w1c, 0, .no⟩]⟩ /- CRYPT_INT_STAT -/,
    ⟨0xF00074, 1, 0x0, 1, 0x0, [⟨5, 1, .rw, 0, .no⟩, ⟨4, 1, .rw, 0, .no⟩, ⟨3, 1, .rw, 0, .no⟩, ⟨2, 1, .rw, 0, .no⟩, ⟨1, 1, .rw, 0, .no⟩, ⟨0, 1, .rw, 0, .no⟩]⟩ /- CRYPT_INT_EN -/]

/-- The registers of block SPOOR. -/
def regsSpoor : List RegSpec :=
  [
    ⟨0x1000000, 1, 0x0, 1, 0x0, [⟨31, 1, .wo, 0, .no⟩, ⟨30, 1, .wo, 0, .no⟩, ⟨29, 1, .wo, 0, .no⟩]⟩ /- SPOOR_CTRL -/,
    ⟨0x1000004, 1, 0x0, 1, 0x0, [⟨29, 3, .ro, 0, .no⟩, ⟨28, 1, .ro, 0, .no⟩]⟩ /- SPOOR_STAT -/,
    ⟨0x1000008, 1, 0x0, 1, 0x0, [⟨31, 1, .rw, 0, .no⟩, ⟨24, 6, .rw, 0x14, .rng 16 32⟩, ⟨16, 5, .rw, 0xC, .rng 8 16⟩, ⟨0, 10, .rw, 0x64, .rng 1 1000⟩]⟩ /- SPOOR_CFG -/,
    ⟨0x100000C, 1, 0x0, 1, 0x0, [⟨0, 1, .rw, 0, .special 1⟩]⟩ /- SPOOR_SCOPE -/,
    ⟨0x1000010, 1, 0x0, 1, 0x0, [⟨0, 26, .rw, 0, .special 2⟩]⟩ /- SPOOR_RING_BASE -/,
    ⟨0x1000014, 1, 0x0, 1, 0x0, [⟨31, 1, .rw, 0, .no⟩, ⟨8, 12, .rw, 0, .no⟩, ⟨2, 1, .rw, 0, .no⟩, ⟨1, 1, .rw, 1, .no⟩, ⟨0, 1, .rw, 0, .no⟩]⟩ /- SPOOR_TRIG_CFG -/,
    ⟨0x1000018, 1, 0x0, 1, 0x0, [⟨0, 32, .rw, 0x3E8, .special 3⟩]⟩ /- SPOOR_STOP -/,
    ⟨0x100001C, 1, 0x0, 1, 0x0, [⟨17, 1, .rw, 0, .no⟩, ⟨16, 1, .rw, 0, .no⟩, ⟨8, 8, .rw, 0, .no⟩, ⟨0, 8, .rw, 0, .no⟩]⟩ /- SPOOR_SRC -/,
    ⟨0x1000020, 1, 0x0, 1, 0x0, [⟨1, 7, .rw, 0x7F, .no⟩]⟩ /- SPOOR_FAB_CFG -/,
    ⟨0x100002C, 1, 0x0, 1, 0x0, [⟨16, 8, .rw, 0x64, .rng 1 255⟩, ⟨1, 7, .rw, 0x7F, .no⟩]⟩ /- SPOOR_RING_CFG -/,
    ⟨0x1000024, 1, 0x0, 1, 0x0, [⟨0, 32, .rw, 0xFFFFFFFF, .no⟩]⟩ /- SPOOR_FAB_CL_LO -/,
    ⟨0x1000028, 1, 0x0, 1, 0x0, [⟨0, 32, .rw, 0xFFFFFFFF, .no⟩]⟩ /- SPOOR_FAB_CL_HI -/,
    ⟨0x1000040, 4, 0x10, 1, 0x0, [⟨0, 32, .rw, 0, .no⟩]⟩ /- DF_LO -/,
    ⟨0x1000044, 4, 0x10, 1, 0x0, [⟨0, 32, .rw, 0, .no⟩]⟩ /- DF_HI -/,
    ⟨0x1000048, 4, 0x10, 1, 0x0, [⟨31, 1, .rw, 0, .no⟩, ⟨30, 1, .rw, 0, .no⟩, ⟨29, 1, .rw, 0, .no⟩, ⟨0, 8, .rw, 0, .no⟩]⟩ /- DF_CFG -/,
    ⟨0x1000080, 4, 0x4, 1, 0x0, [⟨31, 1, .rw, 0, .no⟩, ⟨28, 3, .rw, 0, .tgt 0 0 7⟩, ⟨22, 6, .rw, 0, .no⟩, ⟨21, 1, .rw, 0, .no⟩, ⟨0, 12, .rw, 0, .no⟩]⟩ /- SPOOR_EVT -/,
    ⟨0x1000100, 1, 0x0, 1, 0x0, [⟨0, 32, .ro, 0, .no⟩]⟩ /- SPOOR_WRITE_POS_LO -/,
    ⟨0x1000104, 1, 0x0, 1, 0x0, [⟨0, 32, .ro, 0, .no⟩]⟩ /- SPOOR_WRITE_POS_HI -/,
    ⟨0x1000108, 1, 0x0, 1, 0x0, [⟨0, 32, .ro, 0, .no⟩]⟩ /- SPOOR_TRIG_POS_LO -/,
    ⟨0x100010C, 1, 0x0, 1, 0x0, [⟨0, 32, .ro, 0, .no⟩]⟩ /- SPOOR_TRIG_POS_HI -/,
    ⟨0x1000110, 1, 0x0, 1, 0x0, [⟨0, 32, .ro, 0, .no⟩]⟩ /- SPOOR_STOP_POS_LO -/,
    ⟨0x1000114, 1, 0x0, 1, 0x0, [⟨0, 32, .ro, 0, .no⟩]⟩ /- SPOOR_STOP_POS_HI -/,
    ⟨0x1000118, 1, 0x0, 1, 0x0, [⟨0, 32, .rc, 0, .no⟩]⟩ /- SPOOR_LOST -/,
    ⟨0x100011C, 1, 0x0, 1, 0x0, [⟨16, 16, .rc, 0, .no⟩, ⟨0, 16, .rc, 0, .no⟩]⟩ /- SPOOR_ECC -/,
    ⟨0x1000130, 1, 0x0, 1, 0x0, [⟨0, 20, .rw, 0, .special 4⟩]⟩ /- SPOOR_BUF_ADDR -/,
    ⟨0x1000134, 1, 0x0, 1, 0x0, [⟨0, 32, .ro, 0, .no⟩]⟩ /- SPOOR_BUF_DATA -/,
    ⟨0x1000120, 1, 0x0, 1, 0x0, [⟨4, 1, .w1c, 0, .no⟩, ⟨3, 1, .w1c, 0, .no⟩, ⟨2, 1, .w1c, 0, .no⟩, ⟨1, 1, .w1c, 0, .no⟩, ⟨0, 1, .w1c, 0, .no⟩]⟩ /- SPOOR_INT_STAT -/,
    ⟨0x1000124, 1, 0x0, 1, 0x0, [⟨4, 1, .rw, 0, .no⟩, ⟨3, 1, .rw, 0, .no⟩, ⟨2, 1, .rw, 0, .no⟩, ⟨1, 1, .rw, 0, .no⟩, ⟨0, 1, .rw, 0, .no⟩]⟩ /- SPOOR_INT_EN -/]

/-- The registers of block POWER. -/
def regsPower : List RegSpec :=
  [
    ⟨0x1100000, 1, 0x0, 1, 0x0, [⟨16, 16, .rw, 0x64, .rng 1 65535⟩, ⟨0, 16, .rw, 0xA, .rng 1 65535⟩]⟩ /- POW_CFG -/,
    ⟨0x1100010, 8, 0x4, 1, 0x0, [⟨0, 20, .rw, 0, .rng 0 1000000⟩]⟩ /- POW_LTR -/,
    ⟨0x1100040, 1, 0x0, 1, 0x0, [⟨0, 9, .rw, 0x12C, .rng 90 300⟩]⟩ /- POW_CAP -/,
    ⟨0x1100044, 1, 0x0, 1, 0x0, [⟨0, 7, .rw, 0x14, .rng 0 100⟩]⟩ /- POW_AUX -/,
    ⟨0x1100050, 1, 0x0, 1, 0x0, [⟨31, 1, .rw, 0, .no⟩, ⟨30, 1, .rw, 0, .no⟩, ⟨20, 10, .rw, 0x384, .rng 550 900⟩, ⟨10, 10, .rw, 0x226, .special 10⟩, ⟨0, 10, .rw, 0x2EE, .special 11⟩]⟩ /- AVS_CFG -/,
    ⟨0x1100054, 1, 0x0, 1, 0x0, [⟨0, 12, .rw, 0x30C, .rng 500 3000⟩]⟩ /- AVS_TARGET -/,
    ⟨0x1100058, 1, 0x0, 1, 0x0, [⟨22, 10, .ro, 0, .no⟩, ⟨12, 10, .ro, 0, .no⟩]⟩ /- AVS_STAT -/,
    ⟨0x110005C, 1, 0x0, 1, 0x0, [⟨31, 1, .rw, 0, .no⟩, ⟨29, 2, .rw, 1, .tgt 3 3 1⟩, ⟨0, 7, .rw, 0, .no⟩]⟩ /- PMBUS_CFG -/,
    ⟨0x1100060, 1, 0x0, 1, 0x0, [⟨0, 20, .ro, 0, .no⟩]⟩ /- POW_NOW -/,
    ⟨0x1100064, 1, 0x0, 1, 0x0, [⟨0, 16, .ro, 0, .no⟩]⟩ /- POW_ICORE -/,
    ⟨0x1100070, 1, 0x0, 1, 0x0, [⟨29, 3, .ro, 0, .no⟩, ⟨26, 3, .ro, 0, .no⟩, ⟨23, 3, .ro, 0, .no⟩]⟩ /- THROT_STAT -/,
    ⟨0x1100080, 1, 0x0, 1, 0x0, [⟨24, 8, .rw, 0x73, .rng 0 125⟩, ⟨16, 8, .rw, 0x64, .special 12⟩]⟩ /- THERM_CFG -/,
    ⟨0x1100084, 1, 0x0, 1, 0x0, [⟨28, 4, .ro, 0, .no⟩, ⟨0, 16, .ro, 0, .no⟩]⟩ /- THERM_STAT -/,
    ⟨0x1100088, 1, 0x0, 1, 0x0, [⟨0, 16, .ro, 0, .no⟩]⟩ /- THERM_FAULT -/,
    ⟨0x1100090, 1, 0x0, 1, 0x0, [⟨31, 1, .rw, 1, .no⟩, ⟨16, 8, .rw, 0xA, .rng 2 255⟩, ⟨0, 10, .rw, 0x64, .rng 10 1000⟩]⟩ /- DDR_RETRAIN -/,
    ⟨0x11000C0, 16, 0x4, 1, 0x0, [⟨31, 1, .ro, 0, .no⟩, ⟨0, 16, .ro, 0, .no⟩]⟩ /- THERM_SENSOR -/,
    ⟨0x1100068, 1, 0x0, 1, 0x0, [⟨0, 32, .ro, 0, .no⟩]⟩ /- ENERGY_LO -/,
    ⟨0x110006C, 1, 0x0, 1, 0x0, [⟨0, 32, .ro, 0, .no⟩]⟩ /- ENERGY_HI -/,
    ⟨0x1101000, 111, 0x4, 1, 0x0, [⟨30, 2, .ro, 0, .no⟩, ⟨28, 2, .ro, 1, .no⟩, ⟨27, 1, .ro, 0, .no⟩, ⟨0, 16, .rc, 0, .no⟩]⟩ /- POW_DOM_STAT -/,
    ⟨0x1102000, 128, 0x4, 1, 0x0, [⟨31, 1, .rw, 0, .no⟩, ⟨30, 1, .ro, 0, .no⟩, ⟨29, 1, .ro, 0, .no⟩, ⟨0, 6, .ro, 0, .no⟩]⟩ /- VREF_STAT -/,
    ⟨0x11000A0, 1, 0x0, 1, 0x0, [⟨5, 1, .w1c, 0, .no⟩, ⟨4, 1, .w1c, 0, .no⟩, ⟨3, 1, .w1c, 0, .no⟩, ⟨2, 1, .w1c, 0, .no⟩, ⟨1, 1, .w1c, 0, .no⟩, ⟨0, 1, .w1c, 0, .no⟩]⟩ /- POW_INT_STAT -/,
    ⟨0x11000A4, 1, 0x0, 1, 0x0, [⟨5, 1, .rw, 0, .no⟩, ⟨4, 1, .rw, 0, .no⟩, ⟨3, 1, .rw, 0, .no⟩, ⟨2, 1, .rw, 0, .no⟩, ⟨1, 1, .rw, 0, .no⟩, ⟨0, 1, .rw, 0, .no⟩]⟩ /- POW_INT_EN -/]

/-- The registers of block FAULT. -/
def regsFault : List RegSpec :=
  [
    ⟨0x1200000, 1, 0x0, 1, 0x0, [⟨0, 32, .ro, 0, .no⟩]⟩ /- FAULT_WPOS -/,
    ⟨0x1200004, 1, 0x0, 1, 0x0, [⟨0, 32, .rc, 0, .no⟩]⟩ /- FAULT_OVERWRITES -/,
    ⟨0x1200010, 1, 0x0, 1, 0x0, [⟨0, 32, .rc, 0, .no⟩]⟩ /- FAULT_DROPPED -/,
    ⟨0x1200008, 1, 0x0, 1, 0x0, [⟨9, 1, .w1c, 0, .no⟩, ⟨8, 1, .w1c, 0, .no⟩, ⟨0, 8, .w1c, 0, .no⟩]⟩ /- FAULT_INT_STAT -/,
    ⟨0x120000C, 1, 0x0, 1, 0x0, [⟨9, 1, .rw, 0, .no⟩, ⟨8, 1, .rw, 0, .no⟩, ⟨0, 8, .rw, 0, .no⟩]⟩ /- FAULT_INT_EN -/,
    ⟨0x1201000, 256, 0x10, 4, 0x4, [⟨0, 32, .ro, 0, .no⟩]⟩ /- FAULT_ENTRY -/]


/-- The register list of the block that an offset lies in (R26). -/
def blockRegs (off : Nat) : List RegSpec :=
  match off / 0x10_0000 with
  | 0x00 => regsDevice | 0x01 => regsRunctl | 0x02 => regsFabric | 0x04 => regsDmemq | 0x05 => regsLanes
  | 0x06 => regsSysnet | 0x07 => regsLynx | 0x08 => regsShale | 0x09 => regsAcq | 0x0A => regsTime
  | 0x0B => regsBadger | 0x0C => regsMailbox | 0x0D => regsRing | 0x0E => regsSpad | 0x0F => regsCrypt
  | 0x10 => regsSpoor | 0x11 => regsPower | 0x12 => regsFault
  | _ => []

/-- `off` is a register of the array `r`. -/
def RegSpec.hits (r : RegSpec) (off : Nat) : Bool :=
  if off < r.base then false
  else
    let d := off - r.base
    let e := if r.s1 = 0 then d else d % r.s1
    let i := if r.s1 = 0 then 0 else d / r.s1
    decide (i < r.n1) &&
      (if r.s2 = 0 then decide (e = 0) else decide (e % r.s2 = 0) && decide (e / r.s2 < r.n2))

/-- The register at an offset; none where the offset is reserved (R26). -/
def regAt (off : Nat) : Option RegSpec := (blockRegs off).find? (fun r => r.hits off)

/-- The value of the reset column, but for the registers whose reset depends on their index or on fuses. -/
def RegSpec.resetWord (r : RegSpec) : Nat := r.fields.foldl (fun n f => n + f.reset * 2 ^ f.lsb) 0

/-- The stop that serves a ring target (R378). -/
def targetStop (t : Nat) : Nat := if t < 32 then t else 11 + (t - 32) / 4

/-- The reset value of RING_ROUTE[s] for target `t`: the shorter way, a tie on ring 0 (R382); the stop's own target
takes 0 hops (DEDUCED, log 45). RING in bit 7, HOPS in [4:0]. -/
def routeReset (s t : Nat) : Nat :=
  let d := (targetStop t + 28 - s) % 28
  if d ≤ 14 then d else 2 ^ 7 + (28 - d)

/-- What register `off` holds after reset: the reset column, and the values that it gives by index, grade, fuse or
strap. -/
def regReset (f : Fuses) (off : Nat) : W32 :=
  let col := match regAt off with
    | some r => r.resetWord
    | none => 0
  BitVec.ofNat 32 <|
    if off = Reg.CR_REG_SIZE 0 then 16384                          -- region 0 is the whole DDR (R398)
    else if off = Reg.CR_REG_CFG 0 then 2 ^ 31
    else if off = Reg.CR_REG_RIGHTS 0 then 2 ^ 32 - 1
    else if off = Reg.BG_CORE_CTRL 0 then 2 ^ 30
    else if 0x10_8000 ≤ off ∧ off < 0x10_8400 ∧ off % 16 = 12 then 1  -- a vector is masked (PRESUMED, log 30: PCI Express)
    else if off = Reg.THERM_CFG ∧ f.tempGrade = 1 then putBits col 16 8 0x69
    else if off = Reg.PORT_CFG 6 ∨ off = Reg.PORT_CFG 7 then putBits col 12 2 f.straps.port67
    else if off = Reg.SH_STATUS then putBits col 27 1 (if f.straps.tioPullUp then 1 else 0)
    else if 0xD0_1000 ≤ off ∧ off < 0xD0_2C00 ∧ (regAt off).isSome then
      routeReset ((off - 0xD0_1000) / 0x100) ((off - 0xD0_1000) % 0x100 / 4)
    else if !f.is9416 ∧ (List.range 16).any (fun i => off = Reg.MP_OUT_CFG i) then putBits col 16 7 0x20
    else if !f.is9416 ∧ (List.range 8).any (fun i => off = Reg.LX_EG_CFG i) then putBits col 16 7 0x20
    else col

end Sys2Proof.Machine
end

