-- ==== Sys2Proof/Machine/Coding.lean ====
section
/-!
DEFINITION. The line coding of the serial lanes (R175-R178): 8b/10b as the spec names it (its code tables are those of the
standard; PRESUMED, log 86), K-codes and their uses, striping, marker columns; and the symbols of what a port sends and
receives: TSEQs (R179), frames (R199, R226), ordered sets (R213, R339), forerunner sequences (R225).
-/

namespace Sys2Proof.Machine

/-! ## Symbols and K-codes (R176) -/

/-- A symbol of the byte stream: a data byte, or a K-code by its byte. -/
structure Sym where
  k : Bool
  byte : Nat
  deriving DecidableEq, Repr

/-- A data symbol. -/
def dSym (b : Nat) : Sym := ⟨false, b % 256⟩

/-- K28.5: idle, comma alignment, first symbol of a TSEQ. -/
abbrev kIdle : Sym := ⟨true, 0xBC⟩
/-- K28.3: deskew marker. -/
abbrev kMarker : Sym := ⟨true, 0x7C⟩
/-- K27.7: frame start. -/
abbrev kStart : Sym := ⟨true, 0xFB⟩
/-- K29.7: frame end. -/
abbrev kEnd : Sym := ⟨true, 0xFD⟩
/-- K30.7: frame poison. -/
abbrev kPoison : Sym := ⟨true, 0xFE⟩
/-- K28.1: control ordered set start. -/
abbrev kSet : Sym := ⟨true, 0x3C⟩
/-- K28.0: time exchange start. -/
abbrev kExch : Sym := ⟨true, 0x1C⟩
/-- K28.2: forerunner link management. -/
abbrev kFr : Sym := ⟨true, 0x5C⟩
/-- K23.7: pad. -/
abbrev kPad : Sym := ⟨true, 0xF7⟩

/-- The bytes of the twelve K-codes of 8b/10b. -/
def kBytes : List Nat := [0x1C, 0x3C, 0x5C, 0x7C, 0x9C, 0xBC, 0xDC, 0xFC, 0xF7, 0xFB, 0xFD, 0xFE]

/-- K28.4, K28.6, K28.7: never transmitted in the SYSTEM and FORERUNNER roles; received, a code violation (R176). -/
def neverSent (x : Sym) : Bool := x.k && (x.byte == 0x9C || x.byte == 0xDC || x.byte == 0xFC)

/-! ## 8b/10b (R175) -/

/-- The six-bit codes abcdei of D.0 to D.31 with negative running disparity. -/
def code6 : List Nat :=
  [0b100111, 0b011101, 0b101101, 0b110001, 0b110101, 0b101001, 0b011001, 0b111000,
   0b111001, 0b100101, 0b010101, 0b110100, 0b001101, 0b101100, 0b011100, 0b010111,
   0b011011, 0b100011, 0b010011, 0b110010, 0b001011, 0b101010, 0b011010, 0b111010,
   0b110011, 0b100110, 0b010110, 0b110110, 0b001110, 0b101110, 0b011110, 0b101011]

/-- The four-bit codes fghj of D.x.0 to D.x.7 with negative running disparity; of D.x.7 the primary one. -/
def code4 : List Nat := [0b1011, 0b1001, 0b0101, 0b1100, 0b1101, 0b1010, 0b0110, 0b1110]

/-- The four-bit codes of K.x.0 to K.x.7 with negative running disparity. -/
def code4K : List Nat := [0b1011, 0b0110, 0b1010, 0b1100, 0b1101, 0b0101, 0b1001, 0b0111]

/-- The number of ones of a code of `w` bits. -/
def ones (w v : Nat) : Nat := ((List.range w).filter (fun i => v.testBit i)).length

/-- The running disparity after a block of `w` bits. -/
def rdAfter (w v : Nat) (rd : Bool) : Bool :=
  if ones w v * 2 = w then rd else decide (w < ones w v * 2)

/-- The six-bit code of D.x, or of K.28, with running disparity `rd`. -/
def enc6 (k28 rd : Bool) (x : Nat) : Nat :=
  let c := if k28 then 0b001111 else code6.getD x 0
  if rd ∧ (ones 6 c ≠ 3 ∨ c = 0b111000) then 63 - c else c

/-- The four-bit code that follows, with the running disparity after the six-bit code. D.x.7 takes the alternate code where
the primary one would make a run of five. -/
def enc4 (k rd : Bool) (x y : Nat) : Nat :=
  if k then (let c := code4K.getD y 0; if rd then 15 - c else c)
  else if y = 7 ∧ ((¬ rd ∧ (x = 17 ∨ x = 18 ∨ x = 20)) ∨ (rd ∧ (x = 11 ∨ x = 13 ∨ x = 14))) then
    (if rd then 0b1000 else 0b0111)
  else
    let c := code4.getD y 0
    if rd ∧ (ones 4 c ≠ 2 ∨ c = 0b1100) then 15 - c else c

/-- Encode a symbol: the line symbol abcdeifghj, a first sent and most significant here, and the running disparity after
it. -/
def encode8b10b (rd : Bool) (s : Sym) : BitVec 10 × Bool :=
  let x := s.byte % 32; let y := s.byte / 32
  let c6 := enc6 (s.k && x == 28) rd x
  let rd1 := rdAfter 6 c6 rd
  let c4 := enc4 s.k rd1 x y
  (BitVec.ofNat 10 (c6 * 16 + c4), rdAfter 4 c4 rd1)

/-- The symbols whose code, with one disparity or the other, may be `c`. -/
def candidates (c : Nat) : List Sym :=
  let c6 := c / 16; let c4 := c % 16
  let xs := (List.range 32).filter (fun x => decide (enc6 false false x = c6) || decide (enc6 false true x = c6))
  let ys := (List.range 8).filter (fun y => decide (code4.getD y 0 = c4) || decide (15 - code4.getD y 0 = c4)) ++
    (if c4 = 0b0111 ∨ c4 = 0b1000 then [7] else [])
  xs.flatMap (fun x => ys.map (fun y => dSym (y * 32 + x))) ++
    (if c6 = 0b001111 ∨ c6 = 0b110000 then (List.range 8).map (fun y => ⟨true, y * 32 + 28⟩) else []) ++
    (xs.filter (fun x => x = 23 ∨ x = 27 ∨ x = 29 ∨ x = 30)).map (fun x => ⟨true, 7 * 32 + x⟩)

/-- What the receiver makes of a line symbol. -/
inductive RxSym where
  | good (s : Sym)
  | disparity
  | invalid
  deriving DecidableEq, Repr

/-- Decode a line symbol, checked against the running disparity, and the running disparity after it. -/
def decode8b10b (rd : Bool) (v : BitVec 10) : RxSym × Bool :=
  let c := v.toNat
  let l := candidates c
  let after := rdAfter 4 (c % 16) (rdAfter 6 (c / 16) rd)
  match l.find? (fun s => (encode8b10b rd s).1 = v) with
  | some s => (.good s, after)
  | none => (if l.any (fun s => decide ((encode8b10b (!rd) s).1 = v)) then .disparity else .invalid, after)

/-! ## Lines (R177, R178) -/

/-- The columns of a byte stream over `n` lanes, K23.7 on the lanes that it does not fill (R177). -/
def stripe (n : Nat) (l : List Sym) : List (List Sym) :=
  if n = 0 then []
  else (List.range ((l.length + n - 1) / n)).map fun c =>
    (List.range n).map fun k => l.getD (c * n + k) kPad

/-- Each lane sends its symbol of a column, and the lanes of `others` K28.5. -/
def Line.column (x : Line) (lanes others : List Nat) (col : List Sym) : Line :=
  let all := lanes.zip col ++ others.map fun n => (n, kIdle)
  let (codes, rd) := all.foldl (fun (acc : List (BitVec 10) × Map Bool) e =>
    let (c, r) := encode8b10b (acc.2.get (fun _ => false) e.1) e.2
    (acc.1 ++ [c], acc.2.set (fun _ => false) e.1 r)) ([], x.txRd)
  { x with txRd := rd, out := x.out ++ [.col codes], ahead := x.ahead + 1 }

/-- Send a column, after a marker column where 4,096 columns have gone since the previous one (R178). -/
def Line.send (x : Line) (lanes others : List Nat) (col : List Sym) : Line :=
  if 4096 ≤ x.since then
    { (({ x with since := 0 }).column lanes others (lanes.map fun _ => kMarker)).column lanes others col with since := 1 }
  else { x.column lanes others col with since := x.since + 1 }

/-- `n` symbol times with nothing else to send: K28.5 on every lane that sends (R176), marker columns where due. Each of these
symbols turns the running disparity. -/
def Line.idle (x : Line) (lanes others : List Nat) (n : Nat) : Line :=
  if n = 0 ∨ (lanes = [] ∧ others = []) then x
  else
    let rd := if n % 2 = 0 then x.txRd
      else (lanes ++ others).foldl (fun m k => m.set (fun _ => false) k (!m.get (fun _ => false) k)) x.txRd
    let out := match x.out.getLast? with
      | some (.idle m) => x.out.dropLast ++ [.idle (m + n)]
      | _ => x.out ++ [.idle n]
    { x with txRd := rd, since := (x.since + n) % 4097, out := out }

/-- `n` symbol times of sequences that repeat, one of each lane (R180, R225). -/
def Line.repeats (x : Line) (lanes : List Nat) (seqs : List (List Sym)) (n : Nat) : Line :=
  (List.range n).foldl (fun x _ =>
    let y := x.column lanes [] (seqs.map fun l => l.getD x.pos kIdle)
    { y with ahead := 0, pos := (x.pos + 1) % max 1 (seqs.headD []).length }) x

/-- The symbol time of a line rate in fs (R171). -/
def symbolFs (rate : Nat) : Nat := [625000, 781250, 1000000, 1250000, 1600000].getD rate 1600000

/-- `ns` pass on a line with symbols of `sym` fs: the columns already sent take their symbol times, and idle fills the
rest. -/
def Line.passFs (x : Line) (lanes others : List Nat) (sym ns : Nat) : Line :=
  let t := x.frac + ns * 1000000
  let c := t / sym
  let x := { x with frac := t % sym }
  ({ x with ahead := x.ahead - c }).idle lanes others (c - x.ahead)

/-- The same at a line rate. -/
def Line.pass (x : Line) (lanes others : List Nat) (rate ns : Nat) : Line := x.passFs lanes others (symbolFs rate) ns

/-- `ns` of training pass: the sequences repeat. -/
def Line.trains (x : Line) (lanes : List Nat) (seqs : List (List Sym)) (rate ns : Nat) : Line :=
  let t := x.frac + ns * 1000000
  { x with frac := t % symbolFs rate }.repeats lanes seqs (t / symbolFs rate)

/-! ## What lanes deliver (R175, R176, R178) -/

/-- The symbols of one lane, decoded with its running disparity: a violation is none. Then the running disparity, and how many symbols
were invalid, K-codes that are never transmitted among them, and how many of the wrong disparity. -/
def rxLane (rd : Bool) (l : List (BitVec 10)) : List (Option Sym) × Bool × Nat × Nat :=
  l.foldl (fun (a : List (Option Sym) × Bool × Nat × Nat) v =>
    let (r, after) := decode8b10b a.2.1 v
    match r with
    | .good y => if neverSent y then (a.1 ++ [none], after, a.2.2.1 + 1, a.2.2.2) else (a.1 ++ [some y], after, a.2.2)
    | .disparity => (a.1 ++ [none], after, a.2.2.1, a.2.2.2 + 1)
    | .invalid => (a.1 ++ [none], after, a.2.2.1 + 1, a.2.2.2)) ([], rd, 0, 0)

/-- Columns of lanes that lag by `lags`: as many as every lane fills. -/
def alignLanes (lags : List Nat) (lanes : List (List (Option Sym))) : List (List (Option Sym)) :=
  let l := (lanes.zip lags).map fun e => e.1.drop e.2
  (List.range ((l.map List.length).min?.getD 0)).map fun i => l.map fun x => x.getD i none

/-- The key of CFG_DOUT among the lines; 0 to 7 are the ports, 8 to 23 the transmitters of the edge lanes (R285, R293). -/
def chainLine : Nat := 24

/-- The symbol of the configuration chain (R293). -/
def chainSym : ChainSym → Sym
  | .first => kStart
  | .last => kEnd
  | .byte b => dSym b.toNat

/-! ## What a port sends -/

/-- CRC-16 with polynomial x^16 + x^12 + x^5 + 1 and initial value 0xFFFF over bytes, most significant bit first, without
final inversion (R213; the bit order is DEDUCED, log 86). -/
def crc16 (l : List Nat) : Nat :=
  l.foldl (fun c b => (List.range 8).foldl (fun c i =>
    let top := c.testBit 15 != b.testBit (7 - i)
    (c * 2 % 65536) ^^^ (if top then 0x1021 else 0)) c) 0xFFFF

/-- The `n` bytes of a number, least significant first, as numbers. -/
def leBytes (v n : Nat) : List Nat := (List.range n).map fun k => v / 2 ^ (8 * k) % 256

/-- TYPE, direction (0 up, 1 down, 2 link), KEY, ECN and ARG of a set (R214). -/
def Msg.fields : Msg → Nat × Nat × Nat × Nat × Nat
  | .ack seq limit => (0x01, 2, 0, 0, seq + limit * 256)
  | .nak seq => (0x02, 2, 0, 0, seq)
  | .committed w => (0x10, 0, 0, w, 0)
  | .globalSeal w => (0x11, 1, 0, w, 0)
  | .abortUp n dev => (0x12, 0, 0, n, dev)
  | .abort n => (0x13, 1, 0, n, 0)
  | .rolledBack n => (0x14, 0, 0, n, 0)
  | .replayGo n gen => (0x15, 1, 0, n, gen)
  | .schedStop n dev => (0x16, 0, 0, n, dev)
  | .schedPause t => (0x17, 1, 0, t, 0)
  | .haltReport dev => (0x18, 0, 0, 0, dev)
  | .systemHalt h dev => (0x19, 1, 0, h, dev)
  | .rewindReport e refused reason => (0x1A, 0, 0, e, (if refused then 1 else 0) + reason * 2)
  | .rewindGo e gen => (0x1B, 1, 0, e, gen)
  | .command t q code param => (0x20, 1, q, t, code + param * 256)
  | .commandRelay t q code param => (0x21, 0, q, t, code + param * 256)
  | .triggerUp n o q lines => (0x28, 0, o + q * 8192, n, lines)
  | .trigger n o q lines => (0x29, 1, o + q * 8192, n, lines)
  | .deviceDown n dev reason => (0x30, 2, 0, n, dev + reason * 65536)

/-- Bytes 1 to 13 of a control ordered set (R213). A set outside a tree has the direction of a link. -/
def Msg.bytes (m : Msg) (tree gen : Nat) : List Nat :=
  let (typ, dir, key, ecn, arg) := m.fields
  [typ, tree % 4 * 64 + (if tree = 0 then 2 else dir) * 16 + gen % 16] ++ leBytes key 2 ++ leBytes ecn 6 ++ leBytes arg 3

/-- The CRC-16 of a control ordered set. -/
def Msg.crc (m : Msg) (tree gen : Nat) : Nat := crc16 (m.bytes tree gen)

/-- The 16 symbols of a set: its start code, bytes 1 to 13, and the CRC-16, least significant byte first (DEDUCED, log
86). -/
def setSyms (start : Sym) (l : List Nat) : List Sym := start :: (l ++ leBytes (crc16 l) 2).map dSym

/-- Bytes 1 to 13 of a time-exchange set (R339); `tree` 0 A, 1 B. -/
def exchBytes (typ tree seq master stamp : Nat) : List Nat :=
  [typ, (tree + 1) * 64, seq % 256] ++ leBytes (master % 8192) 2 ++ leBytes stamp 8

/-- The type and argument bytes of a forerunner sequence (R225). -/
def frSeqBytes (kind a b : Nat) : List Nat :=
  match kind with
  | 1 => [1, a % 256, a / 256 % 32, b, 0, 0]
  | 2 => 2 :: leBytes a 5
  | 6 => [6, a % 256, b, 0, 0, 0]
  | _ => [kind, a % 256, 0, 0, 0, 0]

/-- The sum that ends a forerunner sequence. -/
def frSeqSum (kind a b : Nat) : Nat := (frSeqBytes kind a b).sum % 256

/-- Symbols 1 to 14 of a TSEQ (R179). -/
def tseqBytes (typ lane mask role rate dev port : Nat) : List Nat :=
  [if typ = 1 then 0x4A else 0x45, lane % 8, mask % 256, role % 4 * 16 + rate % 8, dev / 256 % 32, dev % 256, port % 8] ++
    List.replicate 7 0x4A

/-- Symbol 15 of a TSEQ: the sum of symbols 1 to 14 modulo 256. -/
def tseqSum (typ lane mask role rate dev port : Nat) : Nat := (tseqBytes typ lane mask role rate dev port).sum % 256

/-- Bytes 1 to the last payload byte of a frame: of a SYSTEM port (R199), or toward a PY-7208 (R226). -/
def Frame.body (f : Frame) (fr : Bool) : List Nat :=
  let slot := match f.words with | w :: _ => w.slot | [] => 0
  (if fr then [0x10 + f.cycle % 4, f.seq % 256] ++ leBytes (slot % 4096) 2 ++ [(f.words.length - 1) % 32]
   else [(if f.full then 0x10 else 0x20) + f.gen % 16, f.seq % 256] ++ leBytes f.cycle 3 ++ leBytes slot 2 ++
     [(f.words.length - 1) % 32]) ++
  f.words.flatMap fun w => leBytes w.word.toNat 8 ++ (if fr || f.full then [] else leBytes w.mask.toNat 8)

/-- The CRC-32 of a frame. -/
def bodyCrc (l : List Nat) : Nat := crc32 (l.map (BitVec.ofNat 8))

/-- The columns of a frame on a port of width `n` (R177, R199): start code, body, CRC-32, padding, then the column of the
end code. -/
def Frame.columns (f : Frame) (fr : Bool) (n : Nat) : List (List Sym) :=
  let l := f.body fr
  stripe n (kStart :: (l ++ leBytes (bodyCrc l) 4).map dSym) ++ stripe n [if f.poisoned then kPoison else kEnd]

/-- The columns that an item puts on the lanes of its port, once for each copy; none for what leaves elsewhere. -/
def TxItem.columns (fr : Bool) (n : Nat) : TxItem → List (List Sym)
  | .set _ tree copies gen m => (List.replicate copies (stripe n (setSyms kSet (m.bytes tree gen)))).flatten
  | .frame _ f _ => f.columns fr n
  | .frSeq _ kind a b => stripe n (kFr :: (frSeqBytes kind a b ++ [frSeqSum kind a b]).map dSym)
  | .exch _ typ tree seq master stamp => stripe n (setSyms kExch (exchBytes typ tree seq master stamp))
  | .chain c => [[chainSym c]]
  | _ => []

/-- The port whose lanes carry an item, where it goes out on the lanes of a port. -/
def TxItem.port : TxItem → Option Nat
  | .set p _ _ _ _ | .frame p _ _ | .frSeq p _ _ _ | .exch p _ _ _ _ _ => some p
  | _ => none

/-! ## What a port receives (R199, R202, R226) -/

/-- A frame as its columns spell it; `good`: no violation, no wrong K-code, TYPE and COUNT in order, CRC-32 and end code
right. -/
structure RxParsed where
  good : Bool
  full : Bool := true
  gen : Nat := 0
  seq : Nat := 0
  cycle : Nat := 0          -- [23:0]; the epoch in a forerunner frame
  slot : Nat := 0
  words : List (W64 × W64) := []
  deriving DecidableEq, Repr

/-- The number that bytes `lo` to `lo + n - 1` of a list spell, least significant first. -/
def leAt (l : List Nat) (lo n : Nat) : Nat :=
  (List.range n).foldl (fun v k => v + l.getD (lo + k) 0 * 2 ^ (8 * k)) 0

/-- Read a frame from its columns, marker columns removed (R199, R202; `fr`: R226). The last column holds the end code; the
others hold the start code, the bytes and the padding. -/
def parseFrame (fr : Bool) (cols : List (List Sym)) : RxParsed :=
  let n := (cols.headD []).length
  let data := cols.dropLast.flatten
  let b := data.map (fun s => s.byte)
  let typ := b.getD 1 0 / 16
  let full := fr || typ == 1
  let hdr := if fr then 6 else 9
  let count := b.getD (hdr - 1) 0 % 32 + 1
  let len := hdr + count * (if full then 8 else 16)
  let word (k : Nat) : W64 × W64 :=
    let at_ := hdr + k * (if full then 8 else 16)
    (BitVec.ofNat 64 (leAt b at_ 8), if full then BitVec.allOnes 64 else BitVec.ofNat 64 (leAt b (at_ + 8) 8))
  let good :=
    n != 0 && cols.all (fun c => c.length == n) && data.head? == some kStart &&
    (if fr then typ == 1 else typ == 1 || typ == 2) && (full || decide (count ≤ 16)) &&
    data.length == (len + 4 + n - 1) / n * n &&
    ((data.take (len + 4)).drop 1).all (fun s => !s.k) && (data.drop (len + 4)).all (fun s => s == kPad) &&
    leAt b len 4 == bodyCrc ((b.take len).drop 1) &&
    (cols.getLast? == some (kEnd :: List.replicate (n - 1) kPad))
  if !good then { good := false }
  else { good := true, full := full, gen := b.getD 1 0 % 16, seq := b.getD 2 0
         cycle := if fr then b.getD 1 0 % 4 else leAt b 3 3
         slot := if fr then leAt b 3 2 % 4096 else leAt b 6 2
         words := (List.range count).map word }

end Sys2Proof.Machine
end

