-- ==== Sys2Proof/Machine/Ops.lean ====
section
/-!
DEFINITION. The named operations the meanings share: registers and their fields, clusters, cores, links,
free values, time.
-/

namespace Sys2Proof.Machine

/-- The step ends in a next state. -/
abbrev ok (s : State) : Host.Outcome State Fault Refusal := .next s

/-! ## Registers -/

/-- What register `off` holds. -/
def State.rd (s : State) (off : Nat) : Nat := (s.csr.get (regReset s.fuses) off).toNat

/-- Put `v` into register `off`, whole. -/
def State.wr (s : State) (off v : Nat) : State :=
  { s with csr := s.csr.set (regReset s.fuses) off (BitVec.ofNat 32 v) }

/-- A field of a register. -/
def State.fld (s : State) (off lsb width : Nat) : Nat := bits (s.rd off) lsb width

/-- Set a field of a register. -/
def State.setFld (s : State) (off lsb width v : Nat) : State := s.wr off (putBits (s.rd off) lsb width v)

/-- Bit `i` of a register. -/
def State.flag (s : State) (off i : Nat) : Bool := (s.rd off).testBit i

/-- Set bit `i` of a register. -/
def State.setFlag (s : State) (off i : Nat) (b : Bool) : State := s.setFld off i 1 (if b then 1 else 0)

/-- Add `k` to a counter field, which stays at its largest value. -/
def State.count (s : State) (off lsb width k : Nat) : State :=
  s.setFld off lsb width (satAdd (2 ^ width - 1) (s.fld off lsb width) k)

/-- A _LO/_HI pair as one number; `off` is the _LO register. -/
def State.rd64 (s : State) (off : Nat) : Nat := s.rd off + 2 ^ 32 * s.rd (off + 4)

/-- Put a number into a _LO/_HI pair. -/
def State.wr64 (s : State) (off v : Nat) : State := (s.wr off v).wr (off + 4) (v / 2 ^ 32)

/-- TB0, in ns (R334): what stamps hold. -/
def State.tb0 (s : State) : Nat := s.time.tb0

/-- TB0 increments, in ns: what durations count (R335). -/
def State.now (s : State) : Nat := s.time.clock

/-! ## Indexed parts -/

/-- The number of clusters present (R1). -/
def State.nClusters (s : State) : Nat := if s.fuses.is9416 then 64 else 32

/-- Cluster `c`. -/
def State.cl (s : State) (c : Nat) : Cluster := s.clusters.get (fun _ => {}) c

/-- Replace cluster `c`. -/
def State.setCl (s : State) (c : Nat) (v : Cluster) : State :=
  { s with clusters := s.clusters.set (fun _ => {}) c v }

/-- Change cluster `c`. -/
def State.modCl (s : State) (c : Nat) (f : Cluster → Cluster) : State := s.setCl c (f (s.cl c))

/-- State bank `k`: the bits that are 1, by (cluster * 256 + BP) * 256 + bit. -/
def State.bank (s : State) (k : Nat) : Map Bool := s.banks.get (fun _ => []) k

/-- The link layer of port `p`. -/
def State.link (s : State) (p : Nat) : Link := s.links.get (fun _ => {}) p

/-- Replace the link layer of port `p`. -/
def State.setLink (s : State) (p : Nat) (v : Link) : State := { s with links := s.links.set (fun _ => {}) p v }

/-- Change the link layer of port `p`. -/
def State.modLink (s : State) (p : Nat) (f : Link → Link) : State := s.setLink p (f (s.link p))

/-- Change run control. -/
def State.modRc (s : State) (f : RunCtl → RunCtl) : State := { s with rc := f s.rc }

/-- Change the cores, the dispatcher or the mailboxes. -/
def State.modBg (s : State) (f : Badger → Badger) : State := { s with badger := f s.badger }

/-- A core as it is unless listed: the Warden runs, the others are in reset (R355). -/
def coreAtReset (k : Nat) : Core := if k = 0 then { state := 1 } else {}

/-- Badger core `k`. -/
def State.core (s : State) (k : Nat) : Core := s.badger.cores.get coreAtReset k

/-- Change core `k`. -/
def State.modCore (s : State) (k : Nat) (f : Core → Core) : State :=
  s.modBg fun b => { b with cores := b.cores.set coreAtReset k (f (s.core k)) }

/-- The lines of port `p`. -/
def State.line (s : State) (p : Nat) : Line := s.lines.get (fun _ => {}) p

/-- Change the lines of port `p`. -/
def State.modLine (s : State) (p : Nat) (f : Line → Line) : State :=
  { s with lines := s.lines.set (fun _ => {}) p (f (s.line p)) }

/-- The active lanes of port `p` in ascending order: logical lane k is the k-th (R177). -/
def State.activeLanes (s : State) (p : Nat) : List Nat :=
  (List.range 8).filter fun n => (s.fld (Reg.PORT_STAT p) 16 8).testBit n

/-- The other lanes of port `p` that send: enabled, and not mapped out. While the port has traffic on its active lanes they send
K28.5 (R176, R180). -/
def State.otherLanes (s : State) (p : Nat) : List Nat :=
  (List.range 8).filter fun n => (s.fld (Reg.PORT_CFG p) 0 8).testBit n && !(s.fld (Reg.PORT_STAT p) 0 8).testBit n &&
    !(s.fld (Reg.PORT_STAT p) 16 8).testBit n

/-- The lines once an item is sent: it goes onto the lanes of its port in columns, coded (R175-R178). -/
def State.onLanes (s : State) (m : Map Line) (i : TxItem) : Map Line :=
  let put (p : Nat) (f : Line → Line) : Map Line := m.set (fun _ => {}) p (f (m.get (fun _ => {}) p))
  match i.port with
  | none =>
    let cols := i.columns false 1
    if cols.isEmpty then m else put chainLine fun x => cols.foldl (fun x c => x.column [0] [] c) x
  | some p =>
    let lanes := s.activeLanes p
    let cols := i.columns (decide (s.fld (Reg.PORT_CFG p) 12 2 = 2)) lanes.length
    if cols.isEmpty then m else put p fun x => cols.foldl (fun x c => x.send lanes (s.otherLanes p) c) x

/-- Append to the record of what left the device; what a port sends goes onto its lanes. -/
def State.emit (s : State) (l : List TxItem) : State :=
  { s with tx := s.tx ++ l, lines := l.foldl s.onLanes s.lines }

/-- 1 or 0 in bit `i`. -/
def bitAt (b : Bool) (i : Nat) : Nat := if b then 2 ^ i else 0

/-- The lowest bit that is 1 of the low `w`: the source that a select field connects (R279, R303); none: undriven. -/
def lowestBit (n w : Nat) : Option Nat := (List.range w).find? fun i => n.testBit i

/-- How zone `k`, or all of Shale (8), is held: all of it until its first release (R297). -/
def holdAtReset (k : Nat) : ShHold := let on := decide (k = 8); { resets := on, writes := on, outputs := on }

/-- How a scope of Shale is held. -/
def State.shHold (s : State) (k : Nat) : ShHold := s.shale.holds.get holdAtReset k

/-- Change Shale. -/
def State.modSh (s : State) (f : Shale → Shale) : State := { s with shale := f s.shale }

/-- A Completer Abort to the host, logged under AER (R232, R372, R399). -/
def State.completerAbort (s : State) : State :=
  { s.emit [.completerAbort] with host := { s.host with aerAbort := true } }

/-- Take the next free value (log 7). -/
def State.free (s : State) : BitVec 64 × State :=
  (Config.freeValue s.freeCount, { s with freeCount := s.freeCount + 1 })

/-- The clusters present, ascending. -/
def State.clusterIds (s : State) : List Nat := List.range s.nClusters

/-- The cluster is present and enabled (CL_CTRL.ENABLE). -/
def State.enabled (s : State) (c : Nat) : Bool := decide (c < s.nClusters) && s.flag (Reg.CL_CTRL c) 0

/-- L, the cycle length (FAB_CFG.CYCLE_LEN). -/
def State.cycleLen (s : State) : Nat := s.fld Reg.FAB_CFG 0 12

/-- B, the number of state banks (FAB_CFG.STATE_BANKS). -/
def State.nBanks (s : State) : Nat := s.fld Reg.FAB_CFG 16 4

/-- W, the seal window (CR_CFG.WINDOW, R122). -/
def State.window (s : State) : Nat := s.fld Reg.CR_CFG 0 4

/-- The device ID (NET_ID.ID, R195). -/
def State.devId (s : State) : Nat := s.fld Reg.NET_ID 0 13

/-- The latest cycle begun, which is also TB2; 0 until the first cycle of a run begins (R334). -/
def State.latestBegun (s : State) : Nat :=
  if s.rc.fresh then 0 else if s.rc.begun then s.rc.ecn else s.rc.ecn - 1

/-- What the unsealed cycle `n` keeps. -/
def State.cycleRec (s : State) (n : Nat) : Option CycleRec := s.rc.unsealed.find? (fun r => r.ecn = n)

/-- Change what the unsealed cycle `n` keeps. -/
def State.modRec (s : State) (n : Nat) (f : CycleRec → CycleRec) : State :=
  s.modRc fun r => { r with unsealed := r.unsealed.map (fun x => if x.ecn = n then f x else x) }

end Sys2Proof.Machine
end

