-- ==== Sys2Proof/Machine/Flags.lean ====
section
/-!
DEFINITION. The flags of the device and its records: interrupt status and messages (R473, R474), fault records
(R469-R471), run-control status (R239, R246).
-/

namespace Sys2Proof.Machine

/-! ## Interrupts (R473, R474) -/

/-- The INT_STAT register of interrupt source `i` (R473); source 12, the host mailbox, has none. -/
def intStatOf : Nat → Option Nat
  | 0 => some Reg.FAB_INT_STAT | 1 => some Reg.CR_INT_STAT | 2 => some Reg.RC_INT_STAT
  | 3 => some Reg.MP_INT_STAT | 4 => some Reg.DM_INT_STAT | 5 => some Reg.LANES_INT_STAT
  | 6 => some Reg.NET_INT_STAT | 7 => some Reg.LX_INT_STAT | 8 => some Reg.SH_INT_STAT
  | 9 => some Reg.ACQ_INT_STAT | 10 => some Reg.TIME_INT_STAT | 11 => some Reg.DISP_INT_STAT
  | 13 => some Reg.RING_INT_STAT | 14 => some Reg.SPAD_INT_STAT | 15 => some Reg.CRYPT_INT_STAT
  | 16 => some Reg.SPOOR_INT_STAT | 17 => some Reg.POW_INT_STAT | 18 => some Reg.FAULT_INT_STAT
  | 19 => some Reg.DEV_INT_STAT
  | _ => none

/-- Interrupt source `i` is asserted (R473). The enable register follows its status register; source 12 is
asserted while a mailbox whose receiver is the host and whose IRQ_EN is 1 is FULL (R373, R376). -/
def State.asserted (s : State) (i : Nat) : Bool :=
  match intStatOf i with
  | some off => (s.rd off) &&& (s.rd (off + 4)) != 0
  | none => decide (i = 12) && (List.range 64).any (fun m =>
      (s.badger.boxes.get (fun _ => {}) m).full && s.fld (Reg.MB_CFG m) 0 4 == 8 && s.flag (Reg.MB_CFG m) 30)

/-- Send the MSI-X message of vector `v`, or hold it pending where the vector is masked (R233, R474). -/
def State.msix (s : State) (v : Nat) : State :=
  if (s.rd (Reg.MSIX_TABLE v 3)).testBit 0 then s.setFlag (Reg.MSIX_PBA (v / 32)) (v % 32) true
  else s.emit [.msix v]

/-- Send the message of every source in `l` that was deasserted in `s0`, is asserted in `s`, and is routed with
MSIX_EN = 1 (R474). -/
def State.irqEdges (s0 s : State) (l : List Nat) : State :=
  l.foldl (fun t i =>
    if !s0.asserted i && s.asserted i && s.flag (Reg.INT_ROUTE i) 31 then t.msix (s.fld (Reg.INT_ROUTE i) 24 6)
    else t) s

/-- Set bit `b` of the INT_STAT register of source `i`. -/
def State.raise (s : State) (i b : Nat) : State :=
  match intStatOf i with
  | some off => State.irqEdges s (s.setFlag off b true) [i]
  | none => s

/-! ## Waits of a cycle start (R121, R123, R139, R252, R268, R273, R323) -/

/-- The register that counts a kind of wait as it begins. The seal wait is counted by the start that it delays (R123);
pace and capture waits have a time only. -/
def WaitKind.eventsReg : WaitKind → Option Nat
  | .pending => some Reg.PENDING_WAIT_EVENTS
  | .snapBank => some Reg.SNAP_BANK_WAIT_EVENTS
  | .hostOut => some Reg.MP_OUT_WAIT_EVENTS
  | .egress b => some (Reg.LX_EG_WAIT_EVENTS b)
  | .seal | .pace _ | .capture => none

/-- The register that takes the time of a kind of wait. -/
def WaitKind.nsReg : WaitKind → Nat
  | .seal => Reg.SEAL_WAIT_NS
  | .pace b => Reg.LX_PACE_WAIT_NS b
  | .pending => Reg.PENDING_WAIT_NS
  | .snapBank => Reg.SNAP_BANK_WAIT_NS
  | .hostOut => Reg.MP_OUT_WAIT_NS
  | .egress b => Reg.LX_EG_WAIT_NS b
  | .capture => Reg.ACQ_WAIT_NS

/-- What the cycle start waits for now is `l`: waits that are over add their time, new ones count their event. Waits
that hold at the same time are each measured on their own (DEDUCED, log 79). -/
def State.setWaits (s : State) (l : List WaitKind) : State :=
  let past := s.rc.waits.filter (fun w => !l.contains w.1)
  let new := l.filter (fun k => !s.rc.waits.any (fun w => w.1 = k))
  let s1 := past.foldl (fun s w => s.count w.1.nsReg 0 32 (s.now - w.2)) s
  let s2 := new.foldl (fun s k => match k.eventsReg with | some o => s.count o 0 32 1 | none => s) s1
  s2.modRc fun r => { r with waits := r.waits.filter (fun w => l.contains w.1) ++ new.map (fun k => (k, s.now)) }

/-- A rollback, a pause or a halt ends what the cycle start waits for. A seal wait that ends in no start is not counted
(R123). -/
def State.cutWaits (s : State) : State :=
  (s.modRc fun r => { r with waits := r.waits.filter (fun w => w.1 ≠ .seal) }).setWaits []

/-! ## Fault records (R469-R471) -/

/-- Classes of R469. -/
abbrev cInfo : Nat := 0
abbrev cCorrected : Nat := 1
abbrev cClamped : Nat := 2
abbrev cRejected : Nat := 3
abbrev cSchedule : Nat := 4
abbrev cConfig : Nat := 5
abbrev cLink : Nat := 6
abbrev cFatal : Nat := 7

/-- Source blocks of R469. -/
abbrev bFabric : Nat := 0
abbrev bRunctl : Nat := 1
abbrev bDmemq : Nat := 2
abbrev bLanes : Nat := 3
abbrev bSysnet : Nat := 4
abbrev bLynx : Nat := 5
abbrev bShale : Nat := 6
abbrev bAcq : Nat := 7
abbrev bTime : Nat := 8
abbrev bBadger : Nat := 9
abbrev bMailbox : Nat := 10
abbrev bRing : Nat := 11
abbrev bSpad : Nat := 12
abbrev bCrypt : Nat := 13
abbrev bSpoor : Nat := 14
abbrev bPower : Nat := 15

/-- A record of the code enters the queue of its source (R471): each source queues 8 records, one place kept for
FATAL; a non-FATAL record that finds the other seven taken is dropped and counted; a FATAL record is never
dropped (one beyond the places waits in the queue). -/
def State.queueRecord (s : State) (r : Record) : State :=
  let q := s.faults.queues.get (fun _ => []) r.source
  let fatals := (q.filter (fun x => x.cls = cFatal)).length
  if r.cls ≠ cFatal ∧ 7 ≤ q.length - min fatals 1 then
    (s.count Reg.FAULT_DROPPED 0 32 1).raise 18 9
  else
    { s with faults := { s.faults with queues := s.faults.queues.set (fun _ => []) r.source (q ++ [r]) } }

/-- Write a record naming cycle `ecn` (R469). -/
def State.recordAt (s : State) (cls source code detail ecn : Nat) : State :=
  s.queueRecord ⟨cls, source, code, ecn % 2 ^ 40, s.tb0 % 2 ^ 32, detail % 2 ^ 32⟩

/-- Write a record naming the latest cycle begun (R469). -/
def State.record (s : State) (cls source code detail : Nat) : State :=
  s.recordAt cls source code detail s.latestBegun

/-- The record that is written now. -/
def State.recordNow (s : State) (cls source code detail : Nat) : Record :=
  ⟨cls, source, code, s.latestBegun % 2 ^ 40, s.tb0 % 2 ^ 32, detail % 2 ^ 32⟩

/-- The run-control state as its number (R238). -/
def RcState.num : RcState → Nat
  | .idle => 0 | .loading => 1 | .loaded => 2 | .running => 3
  | .paused => 4 | .replaying => 5 | .halted => 6 | .fatal => 7

/-- The run-control state is one of IDLE, LOADING and LOADED. -/
def State.preRun (s : State) : Bool :=
  match s.rc.state with | .idle | .loading | .loaded => true | _ => false

/-- Cycles may run: RUNNING or REPLAYING. -/
def State.live (s : State) : Bool :=
  match s.rc.state with | .running | .replaying => true | _ => false

/-- The detail of a rejection: the low 32 bits of the register offset. -/
def State.reject (s : State) (source code off : Nat) : State := s.record cRejected source code off

/-- Set CMD_STATUS.STATUS and the interrupt causes that go with it (R239, R245, R246). -/
def State.cmdStatus (s : State) (status code : Nat) : State :=
  let s := (s.setFld Reg.CMD_STATUS 28 4 status).setFld Reg.CMD_STATUS 16 8 code
  if status = 2 then s.raise 2 0 else if status = 0 ∨ status = 1 then s else s.raise 2 1

/-- A pending system command that has not taken effect is cancelled (R246). -/
def State.cancelCmd (s : State) : State :=
  match s.rc.cmd with
  | none => s
  | some p => (s.modRc fun r => { r with cmd := none }).cmdStatus 8 p.code

end Sys2Proof.Machine
end

