-- ==== Sys2Proof/Machine/Access.lean ====
section
/-!
DEFINITION. A register write applied field by field (R9, R10, R509): clamping, reserved bits, locked fields, and
the records each correction writes. Which fields are restricted when, and what a write does beyond setting its
fields, is said by the chapter of the register.
-/

namespace Sys2Proof.Machine

/-- The SOURCE of records about a register (R469): the block; DEVICE and FAULT carry RUNCTL. -/
def sourceOf (off : Nat) : Nat :=
  match off / 0x10_0000 with
  | 0x02 => bFabric | 0x04 => bDmemq | 0x05 => bLanes | 0x06 => bSysnet | 0x07 => bLynx | 0x08 => bShale
  | 0x09 => bAcq | 0x0A => bTime | 0x0B => bBadger | 0x0C => bMailbox | 0x0D => bRing | 0x0E => bSpad
  | 0x0F => bCrypt | 0x10 => bSpoor | 0x11 => bPower
  | _ => bRunctl

/-- A CLAMPED record (R470). -/
def State.clamped (s : State) (init : Initiator) (off lsb width word applied : Nat) : State :=
  s.queueRecord ⟨cClamped, sourceOf off, 0x1100,
    (if init = .self then 2 ^ 38 else 0) + (width - 1) % 64 * 2 ^ 32 + word % 2 ^ 32,
    applied % 2 ^ 32,
    off / 4 % 2 ^ 23 * 2 ^ 9 + lsb % 32 * 2 ^ 4 + init.num⟩

/-- The largest multiple of `m` not above `v`. -/
def floorTo (m v : Nat) : Nat := if m = 0 then v else v / m * m

/-- `q` is a permutation of the release steps 1-4, four bits each (R298). -/
def seqValid (q : Nat) : Bool := [1, 2, 3, 4].all (fun k => (List.range 4).any (fun i => bits q (4 * i) 4 = k))

/-- The clamp targets that other registers or several fields decide; `r` as for `clampOne`. -/
def State.clampSpecial (s : State) (k off r v : Nat) : Nat :=
  match k with
  | 1 => if s.fld Reg.DBG_AUTH 0 2 = 2 then v else 0                       -- SPOOR_SCOPE.SCOPE (R428)
  | 2 => floorTo (2 ^ (s.fld Reg.SPOOR_CFG 24 6 - 12)) v                   -- SPOOR_RING_BASE
  | 3 => if s.flag Reg.SPOOR_TRIG_CFG 31 then max 64 v else v              -- SPOOR_STOP.AMOUNT
  | 4 => floorTo 4 v                                                       -- SPOOR_BUF_ADDR
  | 5 => floorTo (2 ^ (s.fld (off - 4) 0 5 - 12)) v                        -- LX_IN_SPILL_BASE
  | 6 => floorTo (2 ^ (s.fld (off - 8) 8 5 + 3 - 12)) v                    -- LX_IN_CYC_BASE
  | 7 => if v = 0 then 1 else min v s.nClusters                            -- LX_EG_CFG.RESERVE
  | 8 => floorTo (2 ^ (s.fld (off - 4) 0 5 - 12)) v                        -- LX_EG_SPILL_BASE
  | 9 => if v ≤ bits r 16 8 then min 255 (bits r 16 8 + 1) else v          -- TB1_CFG.UNLOCK_NS
  | 10 => max 550 (min v (bits r 20 10))                                   -- AVS_CFG.VMIN_MV
  | 11 => floorTo 5 (max (bits r 10 10) (min v (bits r 20 10)))            -- AVS_CFG.VSET_MV
  | 12 => min v (bits r 24 8 - 5)                                          -- THERM_CFG.THROTTLE_C
  | 13 => min v (63 - bits r 16 5 - bits r 0 5)                            -- LANE_TXEQ.MAIN
  | 14 => if v = 1 ∧ bits off 12 4 < 6 then 3 else v                       -- PORT_CFG.ROLE
  | _ => if seqValid v then v else 0x1234                                  -- STARTUP_SEQ.SEQ

/-- The value a field takes when `v` is written to it (R10); `r` is the register value that the other fields of
the same write leave, `off` the register's offset. -/
def State.clampOne (s : State) (c : Clamp) (off r v : Nat) : Nat :=
  match c with
  | .no => v
  | .rng lo hi => if v < lo then lo else if hi < v then hi else v
  | .tgt lo hi t => if lo ≤ v ∧ v ≤ hi then t else v
  | .ddrBase =>                          -- SIZE_LOG2 in [5:0]; DDR_BASE and the window in GiB
    let size := 2 ^ (bits r 0 6 - 30)
    min (floorTo size v) (256 - size)
  | .children => if !r.testBit 31 && v.testBit (bits r 24 3) then v - 2 ^ bits r 24 3 else v
  | .mapIndex =>
    min v ((match bits r 29 2 with | 0 => s.nClusters * 4096 | 1 => 65536 | _ => 16384) - 1)
  | .dmaTail => v % 2 ^ s.fld (off - 4) 0 4
  | .maxPerCycle => if v = 0 then 1 else min v (min (2 ^ bits r 0 5) s.nClusters)
  | .regionSize =>
    let v := min v (16384 - s.fld (off - 4) 0 14)
    if s.fld (off + 4) 16 2 = 2 then max 5 (floorTo 5 v) else v
  | .special k => s.clampSpecial k off r v

/-- A field whose clamp target depends on other fields of its register (R10). -/
def Clamp.dependent : Clamp → Bool
  | .no | .rng .. | .tgt .. => false
  | _ => true

/-- What a field holds after `v` is written to it; `lock`: the RWL fields are locked. A WO field keeps what was
written, for the action; it reads 0. -/
def State.fieldAfter (s : State) (f : FieldSpec) (off old r v : Nat) (lock : Bool) : Nat :=
  match f.acc with
  | .rw | .rww | .wo => s.clampOne f.clamp off r v
  | .rwl => if lock then old else s.clampOne f.clamp off r v
  | .ro | .rc => old
  | .w1c => old - (old &&& v)
  | .w1s => old ||| v

/-- The register value after a write, the fields that depend on others last (R10). -/
def State.wordAfter (s : State) (fs : List FieldSpec) (off v : Nat) (lock : Bool) : Nat :=
  let step (dep : Bool) (r : Nat) : Nat := fs.foldl (fun r f =>
    if f.clamp.dependent = dep then
      putBits r f.lsb f.width (s.fieldAfter f off (s.fld off f.lsb f.width) r (bits v f.lsb f.width) lock)
    else r) r
  step true (step false (s.rd off))

/-- A bit belongs to a named field. -/
def named (fs : List FieldSpec) (i : Nat) : Bool := fs.any (fun f => f.lsb ≤ i && i < f.lsb + f.width)

/-- The contiguous reserved ranges of a register: least significant bit and width. -/
def reservedRanges (fs : List FieldSpec) : List (Nat × Nat) :=
  (List.range 32).filterMap (fun i =>
    if named fs i then none
    else if i ≠ 0 ∧ !named fs (i - 1) then none
    else some (i, ((List.range 32).filter (fun j => i ≤ j &&
      (List.range 32).all (fun k => !(i ≤ k && k ≤ j) || !named fs k))).length))

/-- The corrections of one write in ascending order of field position: lsb, width, applied value (R10, R470). -/
def State.corrections (s : State) (fs : List FieldSpec) (off v : Nat) (lock : Bool) : List (Nat × Nat × Nat) :=
  let after := s.wordAfter fs off v lock
  let res := reservedRanges fs
  (List.range 32).filterMap (fun i =>
    match fs.find? (fun f => f.lsb = i) with
    | some f =>
      match f.acc with
      | .rw | .rww | .wo | .rwl =>
        if (f.acc = .rwl ∧ lock) ∨ bits after i f.width = bits v i f.width then none
        else some (i, f.width, bits after i f.width)
      | _ => none
    | none =>
      match res.find? (fun x => x.1 = i) with
      | some x => if bits v i x.2 = 0 then none else some (i, x.2, 0)
      | none => none)

/-- The write counts as a write of the field (R509): it carries another value than the one held. A 1 counts as a write of a W1C
bit whatever the bit holds, since the write asks for its clearing; R509 does not speak of W1C fields (DEDUCED, log 106). -/
def State.countsAs (s : State) (f : FieldSpec) (off v : Nat) : Bool :=
  let x := bits v f.lsb f.width
  match f.acc with
  | .wo => f.width ≠ 1 || x = 1
  | .w1c => x ≠ 0
  | .w1s => x ||| s.fld off f.lsb f.width ≠ s.fld off f.lsb f.width
  | .ro | .rc => false
  | .rw | .rwl | .rww => x ≠ s.fld off f.lsb f.width

/-- The record of an access to reserved space or to a reserved register offset (R24). -/
def State.reservedAccess (s : State) (init : Initiator) (addr : Nat) : State :=
  if init = .hostMmio then s.reject bRunctl 0x0601 addr else s.reject bRing 0x0C01 addr

/-- The initiator is the Warden, Badger core 0 (R355). -/
def isWarden (init : Initiator) : Bool := decide (init = .core 0)

/-- The agent number of an initiator in BADGER and MAILBOX records (R377). -/
def agentOf : Initiator → Nat
  | .core k => k % 8
  | .hostMmio | .hostDma => 8
  | _ => 9

/-- The detail of the record of a write not permitted: the register offset, and in a LANES record the port in
[31:29] above its low 29 bits (R194). -/
def refusedDetail (code off : Nat) : Nat :=
  if code = 0x0405 then bits off 12 3 * 2 ^ 29 + off % 2 ^ 29 else off

/-- The source block of the record of a write not permitted: the register's block, but BADGER for 0x0B0B, which MB_CFG has too
(R377). -/
def refusedSource (code off : Nat) : Nat := if code = 0x0B0B then bBadger else sourceOf off

/-- The write counts as a write of some field of the register (R509). -/
def State.anyCounts (s : State) (off v : Nat) : Bool :=
  match regAt off with
  | none => false
  | some spec => spec.fields.any fun f => s.countsAs f off v

/-- BG_NOT_WARDEN (R355). -/
def State.notWarden (s : State) (init : Initiator) (off : Nat) : State :=
  s.record cRejected bBadger 0x0B01 (agentOf init * 2 ^ 28 + off % 2 ^ 28)

/-- A write of register `off` whose fields `restricted` says may not be written now, the record of a write not
permitted having the code `code` (R9, R10, R509): the new state, and whether the write was applied. `lock`: the RWL
fields are locked. The CLAMPED records of a write come before the REJECTED record of a locked RWL field in it, whose order
the spec leaves open (DESIGN CHOICE, log 92). -/
def State.csrWrite (s : State) (init : Initiator) (off v : Nat) (restricted : FieldSpec → Bool) (lock : Bool)
    (code : Nat) : Bool × State :=
  match regAt off with
  | none => (false, s.reservedAccess init off)
  | some spec =>
    let fs := spec.fields
    if fs.any (fun f => f.acc = .rww) && !isWarden init &&
        fs.any (fun f => (f.acc = .rww || f.acc = .wo) && s.countsAs f off v) then (false, s.notWarden init off)
    else if fs.any (fun f => restricted f && s.countsAs f off v) then (false, s.reject (refusedSource code off) code (refusedDetail code off))
    else
      let lost := lock && fs.any (fun f => f.acc = .rwl && s.countsAs f off v)
      let after := s.wordAfter fs off v lock
      let s1 := (s.corrections fs off v lock).foldl (fun t c => t.clamped init off c.1 c.2.1 v c.2.2) (s.wr off after)
      (true, if lost then s1.reject (refusedSource code off) code (refusedDetail code off) else s1)

end Sys2Proof.Machine
end

