-- ==== Sys2Proof/Machine/SpoorEmit.lean ====
section
/-!
DEFINITION. The Spoor stream (R417-R424, R427-R431): how a packet enters it, full synchronisation, triggers, and
the fabric events. Writing the queue to the DDR ring is in Spoor.lean.
-/

namespace Sys2Proof.Machine

/-- An external event, bit `i` of E, is gathered for the next cycle that commits for the first time (R311); in REPLAYING
live events are ignored (R312). -/
def State.acqEvent (s : State) (i : Nat) : State :=
  if s.rc.state = .replaying then s
  else { s with acq := { s.acq with extNext := s.acq.extNext ||| 2 ^ (i - 32) } }

/-- SPOOR_STAT.STATE (R426). -/
def State.spState (s : State) : Nat := s.fld Reg.SPOOR_STAT 29 3

/-- Change Spoor. -/
def State.modSp (s : State) (f : Spoor → Spoor) : State := { s with spoor := f s.spoor }

/-- Bytes enter the stream: the on-chip buffer at p modulo 2^20, and, with DDR = 1, the queue of the DDR ring that
the buffer then is (R423; the same offsets are DEDUCED, log 13). -/
def State.spAppend (s : State) (l : List Byte) : State :=
  let p := s.spoor.pos
  let s := s.modSp fun x => { x with
    buf := x.buf.setAll (fun _ => 0) (((List.range l.length).zip l).map (fun e => ((p + e.1) % 2 ^ 20, e.2)))
    queue := if s.flag Reg.SPOOR_CFG 31 then x.queue ++ l else []
    upsets := x.upsets.filter fun e => (List.range l.length).all fun i => (p + i) % 2 ^ 20 / 8 ≠ e.1
    pos := p + l.length }
  s.wr64 Reg.SPOOR_WRITE_POS_LO (p + l.length)

/-- PAD bytes up to a multiple of `m`. -/
def State.spPad (s : State) (m : Nat) : State :=
  s.spAppend (List.replicate ((m - s.spoor.pos % m) % m) 0)

/-- Header byte (R417). -/
def spHdr (typ src : Nat) : Byte := BitVec.ofNat 8 (typ * 16 + src)

/-- TS (R422). -/
def State.tsPacket (s : State) : List Byte :=
  spHdr 2 10 :: (bytesOfNat s.tb0 4 ++ bytesOfNat s.latestBegun 4)

/-- ISYNC of core `k`. -/
def State.isyncPacket (s : State) (k : Nat) : List Byte :=
  spHdr 3 k :: (bytesOfNat ((s.core k).pc) 5 ++
    bytesOfNat ((if (s.core k).machine then 1 else 0) + (if (s.core k).task.isSome then 2 else 0)) 1 ++
    bytesOfNat ((s.core k).task.getD 0) 2)

/-- The scope and mode exclude packets of core `k` (R427). -/
def State.spExcluded (s : State) (k : Nat) : Bool :=
  s.fld Reg.SPOOR_SCOPE 0 1 = 0 && (k = 0 || (s.core k).machine)

/-- Core `k` is in RUN and executes: a core that waits is in HOLD, and one in debug halt emits nothing (R419, R375). -/
def State.spRuns (s : State) (k : Nat) : Bool :=
  decide ((s.core k).state = 1) && decide ((s.power.doms.get (fun _ => {}) (74 + k)).level = 0)

/-- A full sync holds an ISYNC of core `k` (R421). -/
def State.spSyncs (s : State) (k : Nat) : Bool := s.flag Reg.SPOOR_SRC k && s.spRuns k && !s.spExcluded k

/-- The ATOM of `l`, the outcomes of core `k`, oldest first. -/
def atomPacket (k : Nat) (l : List Bool) : List Byte :=
  let v := ((List.range l.length).zip l).foldl (fun n e => n + (if e.2 then 2 ^ e.1 else 0)) 0
  [spHdr 4 k, BitVec.ofNat 8 (l.length * 32 + v)]

/-- The queue in front of the DDR ring has room for `n` more bytes; with DDR = 0 there is always room (R424). -/
def State.spRoom (s : State) (n : Nat) : Bool := !s.flag Reg.SPOOR_CFG 31 || decide (s.spoor.queue.length + n ≤ 2 ^ 20)

/-- A packet of source `src` is lost and counted (R424). -/
def State.spLose (s : State) (src : Nat) : State :=
  let s := s.modSp fun x => { x with lost := x.lost.set (fun _ => 0) src (x.lost.get (fun _ => 0) src + 1) }
  let s := s.count Reg.SPOOR_LOST 0 32 1
  if s.flag Reg.SPOOR_INT_STAT 2 then s else (s.record cInfo bSpoor 0x0E02 src).raise 16 2

/-- The OVERFLOW that comes before the next packet of source `src` that is stored (R424). -/
def State.spOwed (s : State) (src : Nat) : List Byte :=
  let n := s.spoor.lost.get (fun _ => 0) src
  if n = 0 then [] else spHdr 0xB src :: bytesOfNat (min n 0xFFFF) 2

/-- A packet of source `src` enters the stream after the OVERFLOW it is owed, or is lost (R424). -/
def State.spPut (s : State) (src : Nat) (l : List Byte) : State :=
  let l := s.spOwed src ++ l
  if s.spRoom l.length then (s.modSp fun x => { x with lost := x.lost.set (fun _ => 0) src 0 }).spAppend l else s.spLose src

/-- The pending ATOM of core `k`, which comes before any other packet of it (R419). -/
def State.spAtomOut (s : State) (k : Nat) : State :=
  match s.spoor.atoms.get (fun _ => []) k with
  | [] => s
  | l => (s.modSp fun x => { x with atoms := x.atoms.set (fun _ => []) k [] }).spPut k (atomPacket k l)

/-- PAD up to a multiple of 16, and the SYNC (R421); where there is no room for them, the SYNC is lost. -/
def State.spSyncPacket (s : State) : State :=
  let head := s.spOwed 10
  let p := s.spoor.pos + head.length
  let pad := (16 - p % 16) % 16
  if s.spRoom (head.length + pad + 16) then
    (s.modSp fun x => { x with lost := x.lost.set (fun _ => 0) 10 0, lastSync := p + pad }).spAppend
      (head ++ List.replicate pad 0 ++ spHdr 1 10 :: (bytesOfNat 0x5A5A5A 3 ++ bytesOfNat (p + pad) 8 ++
        bytesOfNat (s.fld Reg.SPOOR_SCOPE 0 1) 1 ++ bytesOfNat 0 3))
  else s.spLose 10

/-- A full sync (R421), after the pending ATOM of each core that it holds an ISYNC of (R419). -/
def State.spFullSync (s : State) : State :=
  let s := (List.range 8).foldl (fun s k => if s.spSyncs k then s.spAtomOut k else s) s
  let s := s.spSyncPacket
  let s := s.spPut 10 s.tsPacket
  (List.range 8).foldl (fun s k => if s.spSyncs k then s.spPut k (s.isyncPacket k) else s) s

/-- The full sync that is due before the next packet (R421). -/
def State.spDue (s : State) : State :=
  if 2 ^ s.fld Reg.SPOOR_CFG 16 5 ≤ s.spoor.pos - s.spoor.lastSync then s.spFullSync else s

/-- A packet of source `src` is stored or lost, after a full sync that is due (R421, R424). -/
def State.spStore (s : State) (src : Nat) (l : List Byte) : State := s.spDue.spPut src l

/-- Trace is on: RUNNING or TRIGGERED. -/
def State.spOn (s : State) : Bool := s.spState = 1 || s.spState = 2

/-- A packet of a source other than a core, or of Spoor itself. -/
def State.spEmit (s : State) (src : Nat) (l : List Byte) : State := if s.spOn then s.spStore src l else s

/-- A trigger of Spoor (R426): only in RUNNING. Causes: 0 manual, 1 acquisition, 2 FATAL record, 3 MARK. -/
def State.spTrigger (s : State) (cause : Nat) : State :=
  if s.spState = 1 then
    let s := s.spStore 10 [spHdr 0xA 10, BitVec.ofNat 8 cause]
    let s := s.wr64 Reg.SPOOR_TRIG_POS_LO (if s.spoor.lost.get (fun _ => 0) 10 = 0 then s.spoor.pos - 2 else s.spoor.pos)
    ((s.setFld Reg.SPOOR_STAT 29 3 2).modSp fun x => { x with trigAt := s.now, trigEnd := s.spoor.pos }).raise 16 0
  else s

/-- The cycle in progress is being executed again after a rollback (R430). -/
def State.rpl (s : State) : Bool := s.rc.again

/-- A fabric event (R418, R430, R431, R94): its packet, the Spoor events it matches, and the MARK trigger. `x` is
ARG's low part (WAIT_INDEX, time, ECN or tag) and `y` the stall cause, or the BP of a MARK. -/
def State.fabEvent (s : State) (kind cluster x y : Nat) : State :=
  let perCluster := kind = 1 ∨ kind = 2 ∨ kind = 7
  let rpl := s.rpl && (kind ≤ 3 || kind = 7)
  let step := if perCluster then (s.cl cluster).step else 0
  let arg := match kind with
    | 2 => min x 0xFF_FFFF
    | 7 => y * 2 ^ 12 + x % 2 ^ 12
    | 1 => x % 2 ^ 12
    | _ => x % 2 ^ 24
  let b2 := if perCluster then (if kind = 7 then 0 else y * 64) + cluster % 64 else 0
  let traced := s.flag Reg.SPOOR_SRC 16 && s.flag Reg.SPOOR_FAB_CFG kind &&
    (!decide perCluster || (if cluster < 32 then s.flag Reg.SPOOR_FAB_CL_LO cluster
      else s.flag Reg.SPOOR_FAB_CL_HI (cluster - 32)))
  let s := if traced then s.spEmit 8 (spHdr 7 8 ::
    (bytesOfNat ((if rpl then 128 else 0) + kind) 1 ++ bytesOfNat b2 1 ++ bytesOfNat step 2 ++ bytesOfNat arg 3)) else s
  let s := if rpl then s else (List.range 4).foldl (fun s j =>
    let e := Reg.SPOOR_EVT j
    if s.flag e 31 && s.fld e 28 3 = kind && (s.flag e 21 || (decide perCluster && s.fld e 22 6 = cluster)) &&
        (kind ≠ 7 || s.fld e 0 12 = x) then s.acqEvent (41 + j) else s) s
  if kind = 7 ∧ s.flag Reg.SPOOR_TRIG_CFG 2 ∧ s.fld Reg.SPOOR_TRIG_CFG 8 12 = x then s.spTrigger 3 else s

/-- A ring event (R417): KIND, stop, target ID, and for WAIT the time in 10 ns units. -/
def State.ringEvent (s : State) (kind stop target wait : Nat) : State :=
  if s.flag Reg.SPOOR_SRC 17 && s.flag Reg.SPOOR_RING_CFG kind then
    s.spEmit 9 (spHdr 8 9 :: (bytesOfNat kind 1 ++ bytesOfNat (stop % 32) 1 ++ bytesOfNat (target % 64) 1 ++
      bytesOfNat (if kind = 7 then min wait 255 else 0) 1))
  else s

end Sys2Proof.Machine
end

