-- ==== Sys2Proof/Machine/Domains.lean ====
section
/-!
DEFINITION. Power domains as other blocks see them, and the fences that the rings keep for them (R387, R388,
R436-R440). Entering a domain's state is in Power.lean.
-/

namespace Sys2Proof.Machine

/-! ## Power domains: what other blocks ask of them (R436-R440) -/

/-- Domain `d`. -/
def State.dom (s : State) (d : Nat) : Domain := s.power.doms.get (fun _ => {}) d

/-- Change domain `d`. -/
def State.modDom (s : State) (d : Nat) (f : Domain → Domain) : State :=
  { s with power := { s.power with doms := s.power.doms.set (fun _ => {}) d (f (s.dom d)) } }

/-- Domain `d` has work now: its idle time restarts (R437). -/
def State.touch (s : State) (d : Nat) : State := s.modDom d fun x => { x with idle := s.now }

/-- The domain whose registers the offset is among; none: an always-on block, or registers that several domains share
(R437: an access is work of its domain). -/
def regDomain (off : Nat) : Option Nat :=
  match off / 0x10_0000 with
  | 0x01 => some 109
  | 0x02 | 0x03 => some (bits (off - 0x20_0000) 14 6)
  | 0x04 => if off < 0x44_0000 then some (bits (off - 0x40_0000) 12 6) else none
  | 0x05 => if off < 0x50_8000 then some (65 + bits off 12 3) else none
  | 0x06 => some 73
  | 0x07 => if off < 0x70_2000 then some (98 + bits off 10 3) else none
  | 0x08 => some 106
  | 0x09 => some 107
  | 0x0F => some 110
  | 0x10 => some 108
  | _ => none

/-- Change the rings. -/
def State.modRing (s : State) (f : Ring → Ring) : State := { s with ring := f s.ring }

/-- The stop that serves a target (R378). -/
def stopOfTarget (t : Nat) : Nat := if t < 32 then t else 11 + (t - 32) / 4

/-- The stops of a domain (R378, R436). -/
def domStops (d : Nat) : List Nat :=
  if d < 64 then [17]
  else if d = 64 then []
  else if d ≤ 73 then [19]
  else if d ≤ 81 then [d - 73]
  else if d ≤ 97 then [11 + (d - 82) / 4]
  else if d ≤ 105 then [20]
  else match d with
    | 106 => [21] | 107 => [22] | 108 => [24] | 109 => [0] | 110 => [15, 16] | _ => []

/-- The ring targets of a domain. -/
def domTargets (d : Nat) : List Nat :=
  if d < 64 then [17]
  else if d = 64 then []
  else if d ≤ 73 then [19]
  else if d ≤ 81 then []
  else if d ≤ 97 then [32 + (d - 82)]
  else if d ≤ 105 then [20]
  else match d with
    | 106 => [21] | 107 => [22] | 108 => [24] | 109 => [0] | 110 => [15, 16] | _ => []

/-- PORT_CFG.ROLE: 0 SYSTEM, 1 SHALE, 2 FORERUNNER, 3 DISABLED. -/
def State.role (s : State) (p : Nat) : Nat := s.fld (Reg.PORT_CFG p) 12 2

/-- The domain exists in the grade; on the PY-9408, domains 32-63 are OFF for good (R436). -/
def State.domPresent (s : State) (d : Nat) : Bool := decide (s.nClusters ≤ d → 64 ≤ d) && decide (d < 111)

/-- A port whose domain has no life of its own: DISABLED, or SHALE, which follows Shale (R192). -/
def State.portFollows (s : State) (d : Nat) : Bool :=
  decide (65 ≤ d ∧ d ≤ 72) && (decide (s.role (d - 65) = 1) || decide (s.role (d - 65) = 3))

/-- The domains whose target `t` is. -/
def targetDoms (t : Nat) : List Nat := (List.range 111).filter (fun d => (domTargets d).contains t)

/-- The target that a FENCE or UNFENCE packet names for domain `d` (R417): its own; a core, which has none but its stop's,
its stop's target ID (DEDUCED, log 106). -/
def fenceTarget (d : Nat) : Nat := (domTargets d).headD ((domStops d).headD 0)

/-- The ring target that serves the register block of an offset (R378). -/
def targetOf (off : Nat) : Nat :=
  match off / 0x10_0000 with
  | 0x00 | 0x12 => 26 | 0x01 => 18 | 0x02 | 0x03 | 0x04 => 17 | 0x05 | 0x06 => 19 | 0x07 => 20 | 0x08 => 21
  | 0x09 => 22 | 0x0A => 23 | 0x0B => 1 | 0x0C => 10 | 0x0D => 27 | 0x0E => 14 | 0x0F => 15 | 0x10 => 24
  | 0x11 => 25 | _ => 27

/-- The access returns `v` to its initiator. -/
def State.answer (s : State) (v : Nat) : State := { s with bus := { data := v } }

/-- The access gets an error response. -/
def State.busError (s : State) : State := { s with bus := { data := 0, err := true } }

/-- A request to a target gets an error response because the target is isolated (R385). -/
def State.isolated (s : State) (target : Nat) : Bool :=
  if target < 32 then s.flag Reg.RING_ISO_LO target else s.flag Reg.RING_ISO_HI (target - 32)

/-- The initiator is the host, and a SYSTEM reset is in progress: what it reads of the blocks in the scope of the reset is 0, and its
writes to them are ignored (R454). -/
def State.hostDeaf (s : State) (init : Initiator) : Bool := decide (init = .hostMmio) && s.boot.inReset

/-- A host access to a register of a block in the scope of a SYSTEM reset in progress (R454). -/
def State.deaf (s : State) (init : Initiator) (off : Nat) : Bool :=
  s.hostDeaf init && decide (off / 0x10_0000 ≠ 0x0A) && decide (off / 0x10_0000 ≠ 0x12) &&
    decide (off ≠ Reg.DEVICE_ID) && decide (off ≠ Reg.BEHAVIOUR_LEVEL) && decide (off ≠ Reg.BAR2_CTRL)

/-- A stop is fenced (R387). -/
def State.fenced (s : State) (stop : Nat) : Bool := s.flag Reg.RING_FENCE stop

/-- The stop has the fence of domain `d`: FENCE_REQ received, or FENCE_ACK sent. -/
def State.fencedFor (s : State) (stop d : Nat) : Bool :=
  s.ring.fencing.contains (stop, d) || s.ring.fences.contains (stop, d)

/-- The domains that target `t` serves and that run the handshake of R387: those of the grade, ports that follow another
domain apart. -/
def State.livingDoms (s : State) (t : Nat) : List Nat :=
  (targetDoms t).filter fun d => s.domPresent d && !s.portFollows d

/-- A request for target `t` is parked at its stop: every domain that the target serves is fenced there (R387 order 2;
a target that several domains share is DEDUCED, log 23). -/
def State.parks (s : State) (t : Nat) : Bool :=
  !(s.livingDoms t).isEmpty && (s.livingDoms t).all (fun d => s.fencedFor (stopOfTarget t) d)

/-- The stop's bits and counts after a change of its fences or of its park buffer. -/
def State.showStop (s : State) (stop : Nat) : State :=
  let on := s.ring.fences.any (fun f => f.1 = stop)
  let n := (s.ring.parked.filter (fun r => stopOfTarget r.target = stop)).length
  let off := Reg.RING_STOP_STAT stop
  ((((s.setFlag Reg.RING_FENCE stop on).setFlag off 31 on).setFlag off 30 (decide (n ≠ 0)))).setFld off 16 5 n

/-- Parked requests get error responses, at the stops of their initiators (R393). -/
def State.ringErrors (s : State) (l : List RingReq) : State :=
  { s with tx := s.tx ++ l.map fun q => .ringError q.src q.target q.tag }

/-- The fences of domain `d` are cleared as it is back in RUN, and its parked requests are delivered in arrival order
(R387, R388); one to an isolated target gets an error response (R393). -/
def State.unfence (s : State) (d : Nat) : State :=
  (domStops d).foldl (fun s stop =>
    let was := s.ring.fences.contains (stop, d)
    let s := s.modRing fun r => { r with
      fencing := r.fencing.filter (· ≠ (stop, d))
      fences := r.fences.filter (· ≠ (stop, d)) }
    let go := s.ring.parked.filter (fun r => stopOfTarget r.target = stop && !s.parks r.target)
    let s := s.modRing fun r => { r with
      parked := r.parked.filter (fun q => !go.contains q)
      outst := r.outst ++ (go.filter fun q => !s.isolated q.target).map (fun q => { q with since := s.now }) }
    let s := s.showStop stop
    let s := s.ringErrors (go.filter fun q => s.isolated q.target)
    if was then s.ringEvent 6 stop (fenceTarget d) 0 else s) s

/-- The domains whose exits from RETAIN and OFF are one: with Shale the ports in the SHALE role (R192). -/
def State.wakesWith (s : State) (d : Nat) : List Nat :=
  if d = 106 then d :: ((List.range 8).filter fun p => s.role p = 1).map (65 + ·) else [d]

/-- Domain `d` is in RUN again: an entry under way is abandoned, or the exit is counted (R440, POW_DOM_STAT.WAKES). -/
def State.leaveDom (s : State) (d : Nat) : State :=
  let x := s.dom d
  if x.level = 0 ∧ x.goal.isNone then s.touch d
  else
    let s := if x.level = 0 then s else
      (s.wakesWith d).foldl (fun (s : State) e => s.count (Reg.POW_DOM_STAT e) 0 16 1) s
    (s.modDom d fun _ => { level := 0, idle := s.now, goal := none }).unfence d

/-- The entries into RETAIN and OFF of core `k`, and its returns, show in the stream (R429): its instruction or data trace is
enabled, and NONSECURE does not exclude it (R427). -/
def State.spShowsPower (s : State) (k : Nat) : Bool :=
  (s.flag Reg.SPOOR_SRC k || s.flag Reg.SPOOR_SRC (8 + k)) && !(s.fld Reg.SPOOR_SCOPE 0 1 = 0 && k = 0)

/-- A core returns to RUN from RETAIN or OFF: a full sync where it is traced (R429). -/
def State.spCoreWoken (s : State) (k : Nat) : State := if s.spShowsPower k && s.spOn then s.spFullSync else s

end Sys2Proof.Machine
end

