-- ==== Sys2Proof/Machine/Dispatcher.lean ====
section
/-!
DEFINITION. The dispatcher (R358-R368): selection, assignment, the task operations and the policy. The commands that
call them are in Badger.lean.
-/

namespace Sys2Proof.Machine

/-- Task `t`. -/
def State.task (s : State) (t : Nat) : Task := s.badger.tasks.get (fun _ => {}) t

/-- Change task `t`. -/
def State.modTask (s : State) (t : Nat) (f : Task → Task) : State :=
  s.modBg fun b => { b with tasks := b.tasks.set (fun _ => {}) t (f (s.task t)) }

/-- The state of task `t` (R358): FREE while VALID is 0. -/
def State.taskState (s : State) (t : Nat) : Nat := if s.flag (Reg.DISP_CFG t) 31 then (s.task t).state else 0

/-- The level of task `t`. -/
def State.prio (s : State) (t : Nat) : Nat := s.fld (Reg.DISP_CFG t) 16 5

/-- Core `k` may take task `t` (R359). -/
def State.affine (s : State) (t k : Nat) : Bool := s.flag (Reg.DISP_CFG t) (8 + k)

/-- ORDERLY is in force (R360). -/
def State.orderly (s : State) : Bool := s.flag Reg.DISP_CTRL 0

/-- A wake event, an assignment or an interrupt brings core `k` back to RUN (R373, R375, R439, R429). -/
def State.wakeCore (s : State) (k : Nat) : State :=
  let low := decide (2 ≤ (s.dom (74 + k)).level)
  let s := s.leaveDom (74 + k)
  if low then s.spCoreWoken k else s

/-! ## Assignment (R361, R363, R365) -/

/-- Task `t` is held for another core than `k`. -/
def State.heldFromCore (s : State) (t k : Nat) : Bool := (s.task t).held.isSome && decide ((s.task t).last ≠ some k)

/-- The tasks of a level that core `k` may take, oldest first. -/
def State.eligible (s : State) (k level : Nat) : List Nat :=
  s.badger.ready.filter (fun t => s.prio t = level && s.affine t k && !s.heldFromCore t k)

/-- `select(k)` (R363). -/
def State.select (s : State) (k : Nat) : Option Nat :=
  (List.range 32).findSome? (fun level =>
    let c := s.eligible k level
    match (if s.orderly then none else c.find? (fun t => decide ((s.task t).last = some k))) with
    | some t => some t
    | none => c.head?)

/-- The token of task `t` (R365). -/
def State.taskToken (s : State) (t : Nat) : Nat :=
  2 ^ 63 + (s.fld (Reg.DISP_TAG_HI t) 0 15 * 2 ^ 32 + s.rd (Reg.DISP_TAG_LO t)) * 2 ^ 16 +
    (if s.orderly then 2 ^ 15 else 0) + s.prio t * 2 ^ 10 + t

/-- The TAKE or TRYTAKE of core `k` retires with `v` in its rd; x0 stays 0 (R357, R365). -/
def State.retire (s : State) (k : Nat) (v : W64) : State :=
  s.modCore k fun c => { c with x := if c.rd = 0 then c.x else c.x.set (fun _ => 0) c.rd v, pc := (c.pc + 4) % 2 ^ 64 }

/-- Give task `t` to core `k`: assignment and retirement are one step (R365, R366). -/
def State.give (s : State) (t k : Nat) : State :=
  let tok := s.taskToken t
  let s := s.modBg fun b => { b with ready := b.ready.filter (· ≠ t) }
  let s := s.modTask t fun x => { x with state := 4, core := k, held := none }
  ((s.modCore k fun c => { c with state := 1, task := some t }).retire k (BitVec.ofNat 64 tok)).wakeCore k

/-- The waiting core that a READY task goes to (R363), if it goes to one. -/
def State.chooseCore (s : State) (t : Nat) : Option Nat :=
  let w := (List.range 8).filter (fun k => decide ((s.core k).state = 2) && s.affine t k)
  if (s.task t).held.isSome then none
  else if s.orderly then
    w.foldl (fun b k => match b with
      | none => some k
      | some j => if (s.core k).since < (s.core j).since then some k else some j) none
  else
    match w.find? (fun k => decide ((s.task t).last = some k)) with
    | some k => some k
    | none => match w.find? (fun k => decide ((s.dom (74 + k)).level = 0)) with
      | some k => some k
      | none => w.head?

/-- A READY task is offered to the waiting cores. -/
def State.offer (s : State) (t : Nat) : State :=
  match s.chooseCore t with
  | some k => if s.select k = some t then s.give t k else s
  | none => s

/-- Every READY task is offered, in queue order, until no waiting core can take one more (R363): a hold has ended or the policy has
changed. Each pass but the last gives a task to one of the eight cores. -/
def State.offerAll (s : State) : State := (List.range 8).foldl (fun (s : State) _ => s.badger.ready.foldl State.offer s) s

/-- Task `t` becomes READY: the tail of its queue, held or offered (R359, R361, R363). -/
def State.becomeReady (s : State) (t : Nat) : State :=
  let s := s.modBg fun b => { b with ready := b.ready ++ [t], delayed := b.delayed.filter (· ≠ t) }
  let hold := match (s.task t).last with
    | some k => !s.orderly && decide (s.fld Reg.DISP_CTRL 8 8 ≠ 0) && decide ((s.core k).state ≠ 0) && s.affine t k &&
        decide ((s.core k).state ≠ 2)
    | none => false
  (s.modTask t fun x => { x with state := 2, held := if hold then some s.badger.tick else none }).offer t

/-! ## Policy (R360) -/

/-- The dispatcher enters ORDERLY by itself: 0 START, 1 TEST, 2 RECOVERY. An entry is from NORMAL (DEDUCED, log 24). -/
def State.enterOrderly (s : State) (cause : Nat) : State :=
  let was := s.orderly
  let s := (s.setFlag Reg.DISP_STAT (31 - cause) true).setFlag Reg.DISP_CTRL 0 true
  if was then s
  else
    let s := (s.record cInfo bBadger 0x0B04 cause).raise 11 1
    let s := s.modBg fun b => { b with tasks := b.tasks.map (fun e => (e.1, { e.2 with held := none })) }
    s.offerAll

/-! ## Task operations (R362) -/

/-- BG_TASK_STATE. -/
def State.taskReject (s : State) (agent op t : Nat) : State :=
  (s.record cRejected bBadger 0x0B02 (agent * 2 ^ 28 + op * 2 ^ 16 + s.taskState t * 2 ^ 13 + t)).raise 11 0

/-- READY, DISP_READY or the READY of a wake event (R362). -/
def State.opReady (s : State) (agent op t : Nat) : State :=
  match s.taskState t with
  | 0 => s.taskReject agent op t
  | 1 => s.becomeReady t
  | 2 => s
  | 3 => s.becomeReady t
  | _ => s.modTask t fun x => { x with pending := true }

/-- Core `k` ends its run of task `t`. -/
def State.endRun (s : State) (k t : Nat) : State :=
  (s.modTask t fun x => { x with last := some k, pending := false }).modCore k fun c =>
    { c with task := if c.task = some t then none else c.task }

/-- DONE by core `k` (R362). -/
def State.opDone (s : State) (k t : Nat) : State :=
  if s.taskState t = 4 ∧ (s.task t).core = k then
    let p := (s.task t).pending
    let s := (s.endRun k t).modTask t fun x => { x with state := 1 }
    if p then s.becomeReady t else s
  else s.taskReject k 1 t

/-- DEFER by core `k`, `d` ticks (R362, R367). -/
def State.opDefer (s : State) (k t d : Nat) : State :=
  let st := s.taskState t
  if st = 1 ∨ st = 3 ∨ (st = 4 ∧ (s.task t).core = k) then
    let s := if st = 4 then s.endRun k t else s
    if d = 0 then s.becomeReady t
    else
      (s.modTask t fun x => { x with state := 3, deadline := s.badger.tick + d }).modBg fun b =>
        { b with delayed := b.delayed.filter (· ≠ t) ++ [t] }
  else s.taskReject k 2 t

end Sys2Proof.Machine
end

