-- ==== Sys2Proof/Machine/Sets.lean ====
section
/-!
DEFINITION. The control ordered sets a device sends (R213-R217), the keys they are acted on by (R214), generations
and the fence (R207, R208), and the entry into FATAL (R133, R240, R512).
-/

namespace Sys2Proof.Machine

/-! ## The shape of the trees (R217) -/

/-- This device is the root of tree `t` (0 A, 1 B). -/
def State.isRoot (s : State) (t : Nat) : Bool := s.flag (Reg.TREE_CFG t) 31

/-- The parent port on tree `t`. -/
def State.parent (s : State) (t : Nat) : Nat := s.fld (Reg.TREE_CFG t) 24 3

/-- The child ports on tree `t`, ascending. -/
def State.children (s : State) (t : Nat) : List Nat :=
  (List.range 8).filter (fun p => s.flag (Reg.TREE_CFG t) (16 + p))

/-- The number of a set in `Net.acted`: its TYPE (R214). -/
def Msg.typ : Msg → Nat
  | .ack .. => 0x01 | .nak .. => 0x02 | .committed .. => 0x10 | .globalSeal .. => 0x11 | .abortUp .. => 0x12
  | .abort .. => 0x13 | .rolledBack .. => 0x14 | .replayGo .. => 0x15 | .schedStop .. => 0x16
  | .schedPause .. => 0x17 | .haltReport .. => 0x18 | .systemHalt .. => 0x19 | .rewindReport .. => 0x1A
  | .rewindGo .. => 0x1B | .command .. => 0x20 | .commandRelay .. => 0x21 | .triggerUp .. => 0x28
  | .trigger .. => 0x29 | .deviceDown .. => 0x30

/-- What R214 says a set is acted on once per, apart from GEN. -/
def Msg.key : Msg → Nat
  | .abort n => n | .abortUp n _ => n | .rolledBack n => n | .schedStop n _ => n | .schedPause n => n
  | .rewindReport x _ _ => x | .command _ c _ _ => c | .commandRelay _ c _ _ => c
  | .triggerUp _ o q _ => q * 8192 + o | .trigger _ o q _ => q * 8192 + o
  | .replayGo _ g => g | .rewindGo _ g => g | .committed w => w | .globalSeal w => w
  | _ => 0

/-- The set has been acted on before (R214, R215). -/
def State.acted (s : State) (m : Msg) (gen : Nat) : Bool := s.net.acted.contains (m.typ, m.key, gen)

/-- Note that the set has been acted on. -/
def State.act (s : State) (m : Msg) (gen : Nat) : State :=
  if s.acted m gen then s else { s with net := { s.net with acted := (m.typ, m.key, gen) :: s.net.acted } }

/-- Port `p` sends ordered sets other than TSEQ: it is UP, its peer is not down (R224), and the device is not in FATAL
(R180 order 1, R512). -/
def State.portSends (s : State) (p : Nat) : Bool :=
  s.flag (Reg.PORT_STAT p) 31 && !(s.link p).peerDown && decide (s.rc.state ≠ .fatal)

/-- The copies of `m`, carrying GEN `gen`, for ports `l` of tree `t`, twice in succession (R215). -/
def State.setsFor (s : State) (l : List Nat) (t gen : Nat) (m : Msg) : List TxItem :=
  (l.filter s.portSends).map fun p => .set p (t + 1) 2 gen m

/-- Send `m`, carrying GEN `gen`, up tree `t`; a root has no parent. -/
def State.sendUpAs (s : State) (t gen : Nat) (m : Msg) : State :=
  if s.isRoot t then s else s.emit (s.setsFor [s.parent t] t gen m)

/-- Send a set of this device's own up tree `t`. -/
def State.sendUp (s : State) (t : Nat) (m : Msg) : State := s.sendUpAs t s.net.gen m

/-- What marks in `Net.acted` that this device, a root, has broadcast the set on its own tree (R219): TYPE + 0x100,
the key of R214, and GEN for the TYPEs below 0x20. -/
def Msg.cast (m : Msg) (gen : Nat) : Nat × Nat × Nat := (0x100 + m.typ, m.key, if 0x20 ≤ m.typ then 0 else gen)

/-- Send `m`, carrying GEN `gen`, down tree `t` to every child; a root notes its broadcast. A set that is passed on
keeps its GEN. -/
def State.sendDownAs (s : State) (t gen : Nat) (m : Msg) : State :=
  let s := s.emit (s.setsFor (s.children t) t gen m)
  if s.isRoot t ∧ m.typ ≠ 0x11 ∧ ¬ s.net.acted.contains (m.cast gen) then
    { s with net := { s.net with acted := m.cast gen :: s.net.acted } }
  else s

/-- Send a set of this device's own down tree `t`. -/
def State.sendDown (s : State) (t : Nat) (m : Msg) : State := s.sendDownAs t s.net.gen m

/-- Broadcast a set of this device's own on every tree of which it is the root (R218, R219). -/
def State.castDown (s : State) (m : Msg) : State :=
  [0, 1].foldl (fun s t => if s.isRoot t then s.sendDown t m else s) s

/-- Await an answer to an upward report: it is repeated every 1 µs until then (R215). -/
def State.await (s : State) (t : Nat) (m : Msg) : State :=
  if s.isRoot t || s.net.repeats.contains (t, m) then s
  else { s with net := { s.net with repeats := s.net.repeats ++ [(t, m)] } }

/-- An answer ends the repeats of a report TYPE (R215). -/
def State.answered (s : State) (typ : Nat) : State :=
  { s with net := { s.net with repeats := s.net.repeats.filter (fun r => r.2.typ ≠ typ) } }

/-- Send a report up both trees. The tree of which this device is the root goes last: a root acts on its own broadcast
at once (R218), and that answers the report on the other tree too. -/
def State.bothTrees (s : State) (f : State → Nat → State) : State :=
  if s.isRoot 0 then f (f s 1) 0 else f (f s 0) 1

/-- GEN advances by 1 (R207, R208): PREV_GEN and PREV_LIMIT are saved, the fence clears, and the keys acted on
under older generations are forgotten. -/
def State.advanceGen (s : State) (g : Nat) : State :=
  { s with net := { s.net with
      prevGen := s.net.gen
      prevLimit := s.net.fence.getD s.rc.ecn
      gen := g % 16
      fence := none
      acted := s.net.acted.filter (fun a => a.2.2 = s.net.gen ∨ a.2.2 = g % 16 ∨ 0x20 ≤ a.1 % 256) } }

/-- A word or a COMMITTED report of generation `gen` for cycle `w` is accepted (R209). -/
def State.accepts (s : State) (gen w : Nat) : Bool :=
  (decide (gen = s.net.gen) && (match s.net.fence with | some f => decide (w < f) | none => true)) ||
    (decide (gen = s.net.prevGen) && decide (w < s.net.prevLimit))

/-- A report or a broadcast that names cycle `n` belongs to the present generation, or to the one before it and a cycle
of the present run that this one has not discarded: what is left of an older run or abort is not acted on (R214; DEDUCED,
log 80). -/
def State.current (s : State) (gen n : Nat) : Bool :=
  decide (gen = s.net.gen) ||
    (decide (gen = s.net.prevGen) && decide (n < s.net.prevLimit) && decide (s.rc.runStart ≤ n))

/-- The fence takes the lowest cycle held (R208). -/
def State.setFence (s : State) (n : Nat) : State :=
  { s with net := { s.net with fence := some (match s.net.fence with | none => n | some f => min f n) } }

/-- The ports in a role that are UP (R173, PORT_STAT.UP). -/
def State.upPorts (s : State) (role : Nat) : List Nat :=
  (List.range 8).filter (fun p => s.fld (Reg.PORT_CFG p) 12 2 = role && s.flag (Reg.PORT_STAT p) 31)

/-- HALT on the FORERUNNER ports (R223, R225). -/
def State.sendFrHalt (s : State) : State :=
  s.emit ((s.upPorts 2).map fun p => .frSeq p 6 (s.devId % 256) (s.devId / 256))

/-- DEVICE_DOWN on every UP port in the SYSTEM role whose peer is not down, eight copies; HALT on the FORERUNNER ports
(R223). -/
def State.sendDeviceDown (s : State) (reason : Nat) : State :=
  (s.emit (((s.upPorts 0).filter fun p => !(s.link p).peerDown).map fun p =>
    .set p 0 8 s.net.gen (.deviceDown s.latestBegun s.devId reason))).sendFrHalt

/-- Every domain on its way into RETAIN or OFF stays where it is (R440: in FATAL no domain enters them). -/
def State.dropGoals (s : State) : State :=
  (List.range 111).foldl (fun (s : State) d =>
    if (s.dom d).goal.isNone then s
    else if (s.dom d).level = 0 then s.leaveDom d
    else s.modDom d fun x => { x with goal := none }) s

/-- The device enters FATAL (R133 order 1, R240, R512): its fabric stops as found, a pending command is
cancelled, no domain goes below HOLD any more, and the halt report and DEVICE_DOWN go out. -/
def State.enterFatal (s : State) : State :=
  if s.rc.state = .fatal then s
  else
    let s := s.cancelCmd.dropGoals
    let s := (s.sendUp 0 (.haltReport s.devId)).sendUp 1 (.haltReport s.devId)
    let s := (s.modRc fun r => { r with state := .fatal }).raise 2 4
    let s := s.sendDeviceDown 0x07
    ({ s with net := { s.net with repeats := [] } } : State).enterOrderly 2

/-- Write a FATAL record and enter FATAL. -/
def State.fatal (s : State) (source code detail : Nat) : State :=
  let s := s.record cFatal source code detail
  (if s.flag Reg.SPOOR_TRIG_CFG 1 then s.spTrigger 2 else s).enterFatal

end Sys2Proof.Machine
end

