-- ==== Sys2Proof/Machine/Crypt.lean ====
section
/-!
DEFINITION. Memory protection (chapter 16): who may reach which byte of DDR, how a line is stored, and every access
to DDR in the model (R13). DDR keeps the bytes as written and, beside them, the form each line is stored in (log 9).
-/

namespace Sys2Proof.Machine

/-- Change CRYPT. -/
def State.modCry (s : State) (f : Crypt → Crypt) : State := { s with crypt := f s.crypt }

/-- What of CRYPT lies in DDR and outlasts a reset (R414): the key slots, the roots and the node cache do not. -/
def Crypt.stored (c : Crypt) : Crypt :=
  { tags := c.tags, ctrs := c.ctrs, macs := c.macs, nodes := c.nodes, gens := c.gens, stale := c.stale }

/-! ## Regions (R398, R400, R401, R411) -/

/-- A region covers an address. -/
def State.regionHas (s : State) (r addr : Nat) : Bool :=
  s.flag (Reg.CR_REG_CFG r) 31 && decide (s.fld (Reg.CR_REG_BASE r) 0 14 * 2 ^ 24 ≤ addr) &&
    decide (addr < (s.fld (Reg.CR_REG_BASE r) 0 14 + s.fld (Reg.CR_REG_SIZE r) 0 15) * 2 ^ 24)

/-- The region an address belongs to: the lowest-numbered enabled one that covers it. -/
def State.regionOf (s : State) (addr : Nat) : Option Nat := (List.range 16).find? (fun r => s.regionHas r addr)

/-- MODE of a region: 0 PLAIN, 1 CONF, 2 CONF_INT. -/
def State.regionMode (s : State) (r : Nat) : Nat := s.fld (Reg.CR_REG_CFG r) 16 2

/-- First byte of a region. -/
def State.regionBase (s : State) (r : Nat) : Nat := s.fld (Reg.CR_REG_BASE r) 0 14 * 2 ^ 24

/-- Size in bytes of the part of a region that holds data: all of it, or the data area (R401). -/
def State.dataSize (s : State) (r : Nat) : Nat :=
  let n := s.fld (Reg.CR_REG_SIZE r) 0 15
  if s.regionMode r = 2 then n / 5 * 2 ^ 26 else n * 2 ^ 24

/-- STATE of a region. -/
def State.regionState (s : State) (r : Nat) : Nat := s.fld (Reg.CR_REG_STAT r) 29 3

/-- Key slot `k`. -/
def State.key (s : State) (k : Nat) : BitVec 512 := s.crypt.keys.get (fun _ => 0) k

/-! ## The counter tree of a CONF_INT region (R401-R403) -/

/-- The number of nodes of a level of the tree over `pages` data pages; level 0 is the counter leaves. -/
def levelCount (pages : Nat) : Nat → Nat
  | 0 => 6 * pages
  | l + 1 => (levelCount pages l + 7) / 8

/-- The level of the root: the first with one node. -/
def rootLevel (pages : Nat) : Nat := ((List.range 16).find? fun l => decide (levelCount pages l ≤ 1)).getD 16

/-- The first tree slot of level `l` ≥ 1. -/
def slotBase (pages : Nat) : Nat → Nat
  | 0 => 0
  | l + 1 => if l = 0 then 0 else slotBase pages l + levelCount pages l

/-- The DDR line that stores node `i` of level `l`, the metadata area beginning at `base`: a counter leaf in its meta page, or
a tree slot. -/
def nodeLine (base pages l i : Nat) : Nat :=
  if l = 0 then base / 64 + i / 6 * 16 + 8 + i % 6
  else (let slot := slotBase pages l + i; base / 64 + slot / 2 * 16 + 14 + slot % 2)

/-- The node that line `k` of the metadata area stores: its level and index; none: a MAC line, or a slot that is not used. -/
def nodeAt (pages k : Nat) : Option (Nat × Nat) :=
  if k % 16 < 8 ∨ pages ≤ k / 16 then none
  else if k % 16 < 14 then some (0, k / 16 * 6 + (k % 16 - 8))
  else
    let slot := k / 16 * 2 + (k % 16 - 14)
    ((List.range (rootLevel pages)).find? fun l =>
      decide (l ≠ 0 ∧ slotBase pages l ≤ slot ∧ slot < slotBase pages l + levelCount pages l)).map fun l =>
        (l, slot - slotBase pages l)

/-- The data pages of region `r`, and where its metadata area begins. -/
def State.treeOf (s : State) (r : Nat) : Nat × Nat := (s.dataSize r / 4096, s.regionBase r + s.dataSize r)

/-- The counter of node `i` of level `l`, as its parent, or the root, holds it. -/
def State.nodeCtr (s : State) (r l i : Nat) : Nat :=
  let (pages, base) := s.treeOf r
  if l + 1 = rootLevel pages then (s.crypt.roots.get (fun _ => []) r).getD i 0
  else s.crypt.nodes.get (fun _ => 0) (nodeLine base pages l i)

/-- Set it. -/
def State.setNodeCtr (s : State) (r l i v : Nat) : State :=
  let (pages, base) := s.treeOf r
  let s := s.modCry fun c => { c with nodes := c.nodes.set (fun _ => 0) (nodeLine base pages l i) v }
  if l + 1 = rootLevel pages then
    let old := s.crypt.roots.get (fun _ => []) r
    s.modCry fun c => { c with roots := c.roots.set (fun _ => []) r ((List.range 8).map fun u => if u = i then v else old.getD u 0) }
  else s

/-- The counters that a node holds now: of a leaf those of its 11 data lines, of another node those of its 8 children (R401,
R402). -/
def State.nodeCounters (s : State) (base pages l i : Nat) : List Nat :=
  if l = 0 then (List.range 11).map fun u =>
    let x := i % 6 * 11 + u
    if x < 64 then s.crypt.ctrs.get (fun _ => 0) ((base - pages * 4096) / 64 + i / 6 * 64 + x) else 0
  else (List.range 8).map fun u => s.crypt.nodes.get (fun _ => 0) (nodeLine base pages (l - 1) (8 * i + u))

/-- A node below the root is about to change in the node cache. -/
def State.dirtyNode (s : State) (r l i : Nat) : State :=
  let (pages, base) := s.treeOf r
  let line := nodeLine base pages l i
  if rootLevel pages ≤ l ∨ s.crypt.stale.get (fun _ => []) line ≠ [] then s
  else s.modCry fun c => { c with stale := c.stale.set (fun _ => []) line (s.nodeCounters base pages l i) }

/-- The key that an address of region `r` is under (R411). -/
def State.keyFor (s : State) (r addr : Nat) : BitVec 512 :=
  let c := Reg.CR_REG_CFG r
  if s.regionState r = 2 ∧ (addr - s.regionBase r) / 4096 < s.fld (Reg.CR_REG_STAT r) 0 26
  then s.key (s.fld c 8 5) else s.key (s.fld c 0 5)

/-- The form a line is stored in; none: as written. -/
def State.tagOf (s : State) (line : Nat) : Option LineTag :=
  (s.crypt.tags.find? (fun t => t.1 ≤ line && line < t.2.1)).map (·.2.2)

/-- The form that region `r` expects of a line at `addr`. -/
def State.tagFor (s : State) (r addr : Nat) : Option LineTag :=
  match s.regionMode r with
  | 0 => none
  | 1 => some (.conf (s.keyFor r addr))
  | _ => some (.int (s.keyFor r addr) r)

/-- Set the form of the lines [lo, hi). -/
def setTags (l : List (Nat × Nat × LineTag)) (lo hi : Nat) (t : Option LineTag) : List (Nat × Nat × LineTag) :=
  let rest := l.flatMap (fun e =>
    (if e.1 < min e.2.1 lo then [(e.1, min e.2.1 lo, e.2.2)] else []) ++
    (if max e.1 hi < e.2.1 then [(max e.1 hi, e.2.1, e.2.2)] else []))
  match t with
  | some v => (lo, hi, v) :: rest
  | none => rest

/-! ## What DDR holds (R400-R404) -/

/-- The bytes of a line as they are held in `State.ddr`. -/
def State.lineBytes (s : State) (line : Nat) : List Byte := (List.range 64).map fun k => s.ddr.get (fun _ => 0) (line * 64 + k)

/-- What DDR holds of a line that is no line of a metadata area (R400). -/
def State.storedData (s : State) (line : Nat) : List Byte :=
  match s.tagOf line with
  | some (.conf key) => xtsLine true key line (s.lineBytes line)
  | some (.int key r) => ctrLine key line (s.crypt.ctrs.get (fun _ => 0) line) r (s.lineBytes line)
  | _ => s.lineBytes line

/-- The MAC that DDR holds for a data line (R401, R404). -/
def State.storedMac (s : State) (line : Nat) : Nat :=
  match s.crypt.macs.get (fun _ => none) line, s.tagOf line with
  | some m, _ => m
  | none, some (.int key r) => gmac64 key (macIv line (s.crypt.ctrs.get (fun _ => 0) line) r false) (s.storedData line)
  | none, _ => 0

/-- Bytes 0 to 55 of a node (R401, R402): its counters, zeros, and KEY_GEN. -/
def nodeHead (ctrs : List Nat) (gen : Bool) : List Byte :=
  ((ctrs.flatMap fun c => bytesOfNat c 5) ++ List.replicate 55 0).take 55 ++ [if gen then 1 else 0]

/-- The data line whose MAC is entry `t` of MAC line `k` of a metadata area. -/
def macOf (base pages k t : Nat) : Nat := (base - pages * 4096) / 64 + k / 16 * 64 + k % 16 * 8 + t

/-- What DDR holds of line `line` of a metadata area (R401, R402). A slot that no node uses holds 0 (DEDUCED, log 9). -/
def State.storedMeta (s : State) (key : BitVec 512) (r base pages line : Nat) : List Byte :=
  let k := line - base / 64
  if k % 16 < 8 then (List.range 8).flatMap fun t => bytesOfNat (s.storedMac (macOf base pages k t)) 8
  else match nodeAt pages k with
    | none => List.replicate 64 0
    | some (l, i) =>
      let old := s.crypt.stale.get (fun _ => []) line
      let head := nodeHead (if old = [] then s.nodeCounters base pages l i else old) (s.crypt.gens.contains line)
      head ++ bytesOfNat (gmac64 key (macIv line (s.crypt.nodes.get (fun _ => 0) line) r true) head) 8

/-- What DDR holds of a line: what a PLAIN region shows of it. -/
def State.storedLine (s : State) (line : Nat) : List Byte :=
  match s.tagOf line with
  | some (.metadata key r base pages) => s.storedMeta key r base pages line
  | _ => s.storedData line

/-- A line as region `r` shows it: what was written to it, where it is stored in the form the region expects; else what the
region's mode and key make of the stored bytes (R400). -/
def State.seenLine (s : State) (r line : Nat) : List Byte :=
  if s.tagOf line = s.tagFor r (line * 64) then s.lineBytes line
  else match s.tagFor r (line * 64) with
    | some (.conf key) => xtsLine false key line (s.storedLine line)
    | some (.int key q) => ctrLine key line (s.crypt.ctrs.get (fun _ => 0) line) q (s.storedLine line)
    | _ => s.storedLine line

/-- The lines [lo, hi) come to be stored in form `t`. The MACs of data lines that something other than CRYPT overwrites stay in
their MAC lines. -/
def State.retag (s : State) (lo hi : Nat) (t : Option LineTag) : State :=
  let left : List (Nat × Option Nat) := match t with
    | some (.int _ _) => []
    | _ => s.crypt.tags.flatMap fun e => match e.2.2 with
      | .int _ _ => (List.range (min e.2.1 hi - max e.1 lo)).map fun k => (max e.1 lo + k, some (s.storedMac (max e.1 lo + k)))
      | _ => []
  s.modCry fun c => { c with
    tags := if t = none ∧ c.tags = [] then [] else setTags c.tags lo hi t
    macs := match t with
      | some (.int _ _) => c.macs.without lo hi
      | _ => c.macs.setAll (fun _ => none) left }

/-- The lines of [lo, hi) are all in the form region `r` expects, the range lying in one page or in a PLAIN
region. -/
def State.inForm (s : State) (r lo hi : Nat) : Bool :=
  let near := s.crypt.tags.filter (fun t => t.1 < hi && lo < t.2.1)
  match s.tagFor r (lo * 64) with
  | none => near.isEmpty
  | some v => near.all (fun t => t.2.2 = v) &&
      decide ((near.map (fun t => min t.2.1 hi - max t.1 lo)).sum = hi - lo)

/-! ## Judgement (R398, R399, R410, R407, R510) -/

/-- Why an access gets an error response. -/
inductive DdrErr where
  | reserved    -- at or above the installed capacity (R510)
  | halted      -- FATAL_INTEGRITY in force (R407)
  | denied      -- R398, R399, R401
  | initialising -- R410
  | isolated    -- its ring target is isolated (R385)
  deriving DecidableEq, Repr

/-- What an access does to the line. -/
inductive DdrOp where
  | read | write | rmw
  deriving DecidableEq, Repr

/-- The detail of CRYPT_DENIED and the MAC records (R416). -/
def cryptDetail (r : Nat) (who : Initiator) (b : Bool) (addr : Nat) : Nat :=
  r * 2 ^ 28 + who.num * 2 ^ 24 + (if b then 2 ^ 23 else 0) + addr / 64 % 2 ^ 23

/-- CRYPT_DENIED. -/
def State.deny (s : State) (r : Nat) (who : Initiator) (op : DdrOp) (addr : Nat) : State :=
  ((s.record cRejected bCrypt 0x0D01 (cryptDetail r who (op ≠ .read) addr)).count Reg.CRYPT_DENIED_CNT 0 32 1).raise 15 0

/-- The accesses of an initiator reach CRYPT over the rings; the fabric memory path, which the engines and the loads
take, is none of them (R378, R379). -/
def onRing : Initiator → Bool
  | .fabric | .engine | .self => false
  | _ => true

/-- Judge an access to the byte `addr`; the access is work for the CRYPT domain (R437). All of the access lying in one 16 MiB unit; the records it writes. -/
def State.judge (s : State) (who : Initiator) (op : DdrOp) (addr : Nat) : Option DdrErr × State :=
  if s.fuses.ddrBytes ≤ addr then
    match who with
    | .hostDma => (some .reserved, s)
    | _ => (some .reserved, s.reservedAccess who addr)
  else if onRing who && s.isolated (15 + addr / 4096 % 2) then (some .isolated, s)
  else if s.flag Reg.CRYPT_STAT 31 then (some .halted, s)
  else
    let s := s.leaveDom 110
    match s.regionOf addr with
    | none => (some .denied, s.deny 15 who op addr)
    | some r =>
      let rights := s.rd (Reg.CR_REG_RIGHTS r)
      let rd := rights.testBit (2 * who.num)
      let wr := rights.testBit (2 * who.num + 1)
      let ok := match op with | .read => rd | .write => wr | .rmw => rd && wr
      if s.regionMode r = 2 ∧ s.regionState r = 1 then
        (some .initialising, s.record cRejected bCrypt 0x0D09 (who.num * 2 ^ 24))
      else if !ok ∨ s.regionBase r + s.dataSize r ≤ addr then (some .denied, s.deny r who op addr)
      else (none, s)

/-- The parts of an access of `n` bytes at `addr`, cut at multiples of `unit`. -/
def cutAt (unit : Nat) : Nat → Nat → Nat → List (Nat × Nat)
  | 0, _, _ => []
  | k + 1, addr, n =>
    if n = 0 then []
    else
      let m := min n (unit - addr % unit)
      (addr, m) :: cutAt unit k (addr + m) (n - m)

/-- The parts that are judged on their own (R398): regions and capacity change only at 16 MiB units, the ring target
at pages (R378). -/
def State.judgeParts (s : State) (who : Initiator) (addr n : Nat) : List (Nat × Nat) :=
  let unit := if onRing who && (s.isolated 15 || s.isolated 16) then 4096 else 2 ^ 24
  cutAt unit (n / unit + 2) addr n

/-- The parts that lie under one form: pages, or the whole of it in a PLAIN region (R411). -/
def State.formParts (s : State) (r addr n : Nat) : List (Nat × Nat) :=
  if s.regionMode r = 0 then [(addr, n)] else cutAt 4096 (n / 4096 + 2) addr n

/-- The first error of judging every part, and the offset of the part it befell. Of one access over the rings every part is
judged on its own (R398); a range that an engine takes access by access ends at the first that is refused. -/
def State.judgeAll (s : State) (who : Initiator) (op : DdrOp) (addr n : Nat) : Option (DdrErr × Nat) × State :=
  (s.judgeParts who addr n).foldl (fun (acc : Option (DdrErr × Nat) × State) p =>
    if acc.1.isSome && !onRing who then acc
    else match acc.2.judge who op p.1 with
      | (some e, s) => (acc.1.or (some (e, p.1 - addr)), s)
      | (none, s) => (acc.1, s)) (none, s)

/-! ## The node cache and verification (R403-R408) -/

/-- The last value of a counter (R412). -/
abbrev ctrEnd : Nat := 2 ^ 40 - 1

/-- REKEY_BUSY and the region shown with it follow the states of the regions (R415). -/
def State.showBusy (s : State) : State :=
  match (List.range 16).find? (fun r => s.regionState r = 1 ∨ s.regionState r = 2) with
  | some r => (s.setFlag Reg.CRYPT_STAT 30 true).setFld Reg.CRYPT_STAT 26 4 r
  | none => (s.setFlag Reg.CRYPT_STAT 30 false).setFld Reg.CRYPT_STAT 26 4 0

/-- A re-key of region `r` begins, or is queued, or waits for a key (R412). `byEnd`: a counter reached its end. -/
def State.startRekey (s : State) (r : Nat) (byEnd : Bool) : State :=
  let slot := s.fld (Reg.CR_REG_CFG r) 8 5
  if !s.flag Reg.CRYPT_KEY_STAT slot then
    let s := if byEnd then s.modCry fun c => { c with byEnd := r :: c.byEnd } else s
    ((s.setFld (Reg.CR_REG_STAT r) 29 3 3).record cConfig bCrypt 0x0D07 slot).raise 15 4
  else if (List.range 16).any (fun q => s.regionState q = 2) then
    let s := if byEnd then s.modCry fun c => { c with byEnd := r :: c.byEnd } else s
    s.setFld (Reg.CR_REG_STAT r) 29 3 4
  else
    let s := s.modCry fun c => { c with byEnd := c.byEnd.filter (· ≠ r) }
    let s := (s.setFld (Reg.CR_REG_STAT r) 29 3 2).setFld (Reg.CR_REG_STAT r) 0 26 0
    (s.showBusy).record cInfo bCrypt 0x0D05 (if byEnd then 1 else 0)

/-- A counter of region `r` has the value `c`: its end value asks for a re-key (R412). -/
def State.noteEnd (s : State) (r c : Nat) : State := if c = ctrEnd ∧ s.regionState r = 0 then s.startRekey r true else s

/-- The key of a node of region `r`, by its KEY_GEN (R404, R411). -/
def State.nodeKey (s : State) (r : Nat) (gen : Bool) : BitVec 512 :=
  let c := Reg.CR_REG_CFG r
  if gen ∧ s.regionState r = 2 then s.key (s.fld c 8 5) else s.key (s.fld c 0 5)

/-- Node `i` of level `l` is written to DDR (R403): its counter advances by 1 in its parent, which changes in the cache, and it
takes KEY_GEN = 1 during a re-key (R411). -/
def State.writeNode (s : State) (r l i : Nat) : State :=
  let (pages, base) := s.treeOf r
  let line := nodeLine base pages l i
  let c := s.nodeCtr r l i + 1
  let s := (s.dirtyNode r (l + 1) (i / 8)).setNodeCtr r l i c
  let gen := decide (s.regionState r = 2)
  let s := s.modCry fun x => { x with
    stale := x.stale.set (fun _ => []) line []
    gens := if gen ∧ ¬ x.gens.contains line then line :: x.gens else x.gens }
  (if s.tagOf line = some (.metadata (s.nodeKey r gen) r base pages) then s
    else s.retag line (line + 1) (some (.metadata (s.nodeKey r gen) r base pages))).noteEnd r c

/-- The cache line that holds the node of a DDR line. -/
def State.cachedAt (s : State) (line : Nat) : Option Nat :=
  (s.crypt.cache.find? fun e => e.2.any fun n => n.1 = line).map (·.1)

/-- The node of a DDR line may leave the cache (which one leaves the spec does not say: DESIGN CHOICE, log 108): no node below it
is cached, and where it must be written back its counter can advance (R413). -/
def State.mayLeave (s : State) (line r : Nat) : Bool :=
  let (pages, base) := s.treeOf r
  match nodeAt pages (line - base / 64) with
  | none => true
  | some (l, i) =>
    (decide (l = 0) || (List.range 8).all fun u => (s.cachedAt (nodeLine base pages (l - 1) (8 * i + u))).isNone) &&
      (decide (s.crypt.stale.get (fun _ => []) line = []) || decide (s.nodeCtr r l i < ctrEnd))

/-- The node `x` (level, number) that a line of region `r` holds is written back, where it has changed. -/
def State.writeBackNode (s : State) (line r : Nat) (x : Option (Nat × Nat)) : State :=
  match x with
  | some (l, i) => if s.crypt.stale.get (fun _ => []) line = [] then s else s.writeNode r l i
  | none => s

/-- A node leaves the cache: written back, where it has changed. -/
def State.evictNode (s : State) (line : Nat) : State :=
  match s.crypt.cache.find? (fun e => e.2.any fun n => n.1 = line) with
  | some (k, some (_, r)) =>
    if !s.mayLeave line r then s
    else (s.writeBackNode line r (nodeAt (s.treeOf r).1 (line - (s.treeOf r).2 / 64))).modCry fun c =>
      { c with cache := c.cache.set (fun _ => none) k none, parity := c.parity.filter (· ≠ line) }
  | _ => s

/-- The node of a DDR line enters the cache of 2,048 lines. Where it is full, a free value chooses the node that leaves, not one
of `keep` (log 108). -/
def State.cacheNode (s : State) (line r : Nat) (keep : List Nat) : State :=
  let put (s : State) : State := s.modCry fun c => { c with
    cache := c.cache.set (fun _ => none) (c.cache.foldl (fun k e => if e.1 = k then k + 1 else k) 0) (some (line, r)) }
  if s.crypt.cache.length < 2048 then put s
  else
    let out := s.crypt.cache.filterMap fun e => e.2.bind fun n => if s.mayLeave n.1 n.2 ∧ ¬ keep.contains n.1 then some n.1 else none
    let (x, s) := s.free
    put (s.evictNode (out.getD (x.toNat % out.length) 0))

/-- FATAL_INTEGRITY (R407). -/
def State.fatalIntegrity (s : State) (who : Initiator) (node : Bool) (addr : Nat) : State :=
  let s := (s.modCry fun c => { c with waits := [] }).setFlag Reg.CRYPT_STAT 31 true
  s.fatal bCrypt 0x0D03 (cryptDetail 0 who node addr)

/-- The first MAC check of a line fails and the second passes (R406). -/
def State.reread (s : State) (who : Initiator) (node : Bool) (line : Nat) : State :=
  if s.crypt.flaky.contains line then
    let s := s.modCry fun c => { c with flaky := c.flaky.filter (· ≠ line) }
    ((s.record cCorrected bCrypt 0x0D02 (cryptDetail 0 who node (line * 64))).count Reg.CRYPT_REREAD_CNT 0 32 1).raise 15 1
  else s

/-- The MAC of the node that DDR holds in its line verifies against its counter in its parent (R405). One that CRYPT wrote last
does. -/
def State.nodeVerifies (s : State) (r l i : Nat) : Bool :=
  let (pages, base) := s.treeOf r
  let line := nodeLine base pages l i
  let b := s.storedLine line
  decide (s.tagOf line = some (.metadata (s.nodeKey r (s.crypt.gens.contains line)) r base pages)) ||
    decide (gmac64 (s.nodeKey r ((b.getD 55 0).getLsbD 0)) (macIv line (s.nodeCtr r l i) r true) (b.take 56) =
      natOfBytes (b.drop 56))

/-- The content of a verified node that CRYPT did not write last is taken from its bytes. -/
def State.loadNode (s : State) (r l i : Nat) : State :=
  let (pages, base) := s.treeOf r
  let line := nodeLine base pages l i
  match s.tagOf line with
  | some (.metadata _ _ _ _) => s
  | _ =>
    let b := s.storedLine line
    let ctr (u : Nat) : Nat := natOfBytes ((b.drop (5 * u)).take 5)
    let leaf := ((List.range 11).filter fun u => i % 6 * 11 + u < 64).map fun u =>
      ((base - pages * 4096) / 64 + i / 6 * 64 + i % 6 * 11 + u, ctr u)
    let inner := (List.range 8).map fun u => (nodeLine base pages (l - 1) (8 * i + u), ctr u)
    s.modCry fun c => { c with
      ctrs := if l = 0 then c.ctrs.setAll (fun _ => 0) leaf else c.ctrs
      nodes := if l = 0 then c.nodes else c.nodes.setAll (fun _ => 0) inner
      gens := if (b.getD 55 0).getLsbD 0 then line :: c.gens.filter (· ≠ line) else c.gens.filter (· ≠ line) }

/-- Node `i` of level `l` is needed: it is read from the cache, with its parity check (R408), or fetched and verified (R405, R406);
`true`: the check fails for good, and the device halts. A changed node with a parity error is rebuilt as it was. -/
def State.fetchNode (s : State) (who : Initiator) (r l i : Nat) (keep : List Nat) : Bool × State :=
  let (pages, base) := s.treeOf r
  let line := nodeLine base pages l i
  if l + 1 = rootLevel pages ∧ s.crypt.rootBad.contains r then (true, s.fatalIntegrity who true (line * 64))
  else
    let miss (s : State) : Bool × State :=
      let s := (s.count Reg.CRYPT_NODE_CNT 0 16 1).reread who true line
      if s.nodeVerifies r l i then (false, (s.loadNode r l i).cacheNode line r keep)
      else (true, s.fatalIntegrity who true (line * 64))
    match s.cachedAt line with
    | none => miss s
    | some k =>
      if s.crypt.parity.contains line then
        let s := s.modCry fun c => { c with parity := c.parity.filter (· ≠ line) }
        let s := ((s.record cCorrected bCrypt 0x0D04 (k % 2048)).count Reg.CRYPT_NODE_CNT 16 16 1).raise 15 2
        if s.crypt.stale.get (fun _ => []) line = [] then miss (s.modCry fun c => { c with cache := c.cache.set (fun _ => none) k none })
        else (false, s)
      else (false, s)

/-- The nodes from the root down to the leaf of data line `line`: level and index. -/
def State.nodePath (s : State) (r line : Nat) : List (Nat × Nat) :=
  let at_ := line - s.regionBase r / 64
  (List.range (rootLevel (s.treeOf r).1)).reverse.map fun l => (l, (at_ / 64 * 6 + at_ % 64 / 11) / 8 ^ l)

/-- Every node above data line `line` is in the cache, verified (R405); `true`: a check fails for good. -/
def State.fetchPath (s : State) (who : Initiator) (r line : Nat) : Bool × State :=
  let path := s.nodePath r line
  let keep := path.map fun n => nodeLine (s.treeOf r).2 (s.treeOf r).1 n.1 n.2
  path.foldl (fun x n => if x.1 then x else x.2.fetchNode who r n.1 n.2 keep) (false, s)

/-- The line that holds the MAC of data line `line` of region `r`, and its place there. -/
def State.macPlace (s : State) (r line : Nat) : Nat × Nat :=
  let at_ := line - s.regionBase r / 64
  ((s.treeOf r).2 / 64 + at_ / 64 * 16 + at_ % 64 / 8, at_ % 8)

/-- The MAC of a data line verifies against its counter (R404, R405). One that CRYPT wrote last does. -/
def State.dataVerifies (s : State) (r line : Nat) : Bool :=
  let (pages, base) := s.treeOf r
  let key := s.keyFor r (line * 64)
  let m := s.macPlace r line
  (decide (s.tagOf line = some (.int key r)) && decide (s.tagOf m.1 = some (.metadata key r base pages)) &&
      decide (s.crypt.macs.get (fun _ => none) line = none)) ||
    decide (gmac64 key (macIv line (s.crypt.ctrs.get (fun _ => 0) line) r false) (s.storedLine line) =
      natOfBytes (((s.storedLine m.1).drop (8 * m.2)).take 8))

/-- A line of a CONF_INT region is read with every check (R405, R406); `true`: one fails for good. -/
def State.checkLine (s : State) (who : Initiator) (r line : Nat) : Bool × State :=
  match s.fetchPath who r line with
  | (true, s) => (true, s)
  | (false, s) =>
    let s := s.reread who false line
    if s.dataVerifies r line then (false, s) else (true, s.fatalIntegrity who false (line * 64))

/-- Every line that `n` bytes at `addr` touch is read with every check, up to the first line whose check fails for good. -/
def State.checkLines (s : State) (who : Initiator) (r addr n : Nat) : Option Nat × State :=
  (List.range ((addr + n + 63) / 64 - addr / 64)).foldl (fun x k =>
    if x.1.isSome then x
    else (let y := x.2.checkLine who r (addr / 64 + k); (if y.1 then some (addr / 64 + k) else none, y.2))) (none, s)

/-- Every changed node of region `r` is written back, from the leaves up (R414). -/
def State.flushNodes (s : State) (r : Nat) : State :=
  let (pages, base) := s.treeOf r
  (List.range (rootLevel pages)).foldl (fun (s : State) l =>
    s.crypt.cache.foldl (fun (s : State) e =>
      match e.2 with
      | none => s
      | some (line, q) =>
        match if q = r ∧ s.crypt.stale.get (fun _ => []) line ≠ [] then nodeAt pages (line - base / 64) else none with
        | some (k, i) => if k = l ∧ s.nodeCtr r l i < ctrEnd then s.writeNode r l i else s
        | none => s) s) s

/-- Region `r` has no node in the cache any more. -/
def State.dropNodes (s : State) (r : Nat) : State :=
  s.modCry fun c => { c with cache := c.cache.filter fun e => !e.2.any fun n => n.2 = r, parity := [], rootBad := c.rootBad.filter (· ≠ r) }

/-- The tree of region `r` is built anew, every counter 0 (R410). -/
def State.buildTree (s : State) (r : Nat) : State :=
  let (pages, base) := s.treeOf r
  let lo := base / 64; let hi := lo + pages * 16
  (s.dropNodes r).modCry fun c => { c with
    nodes := c.nodes.without lo hi
    stale := c.stale.without lo hi
    gens := c.gens.filter fun k => k < lo || hi ≤ k
    roots := c.roots.set (fun _ => []) r (List.replicate 8 0) }

/-! ## Reading and writing judged parts (R400, R403, R405, R412) -/

/-- The nonzero bytes of a judged part in one form, as region `r` shows them, at offsets from `base`. -/
def State.seenPart (s : State) (r base addr n : Nat) : Map Byte :=
  if s.inForm r (addr / 64) ((addr + n + 63) / 64) then
    (s.ddr.range addr (addr + n)).map (fun e => (e.1 - base, e.2))
  else
    let lines := (List.range ((addr + n + 63) / 64 - addr / 64)).map fun k => s.seenLine r (addr / 64 + k)
    (List.range n).filterMap (fun k =>
      let b := (lines.getD ((addr + k) / 64 - addr / 64) []).getD ((addr + k) % 64) 0
      if b = 0 then none else some (addr + k - base, b))

/-- The bytes of waiting writes that lie in `[addr, addr + n)`, at offsets from `addr`: an access to a line comes after those that
reached CRYPT before it (R400, R413). -/
def State.waitBytes (s : State) (addr n : Nat) : List (Nat × Byte) :=
  s.crypt.waits.flatMap fun w => (w.data.map fun e => (w.line * 64 + e.1, e.2)).filterMap fun e =>
    if addr ≤ e.1 ∧ e.1 < addr + n ∧ (s.regionOf e.1).any (fun r => s.regionMode r = 2) then some (e.1 - addr, e.2) else none

/-- Read `n` bytes at `addr`, judged: the nonzero bytes at offsets from `addr`, or the error and the offset it befell. A failed
MAC check is FATAL_INTEGRITY and an error response (R405-R407). -/
def State.ddrGet (s : State) (who : Initiator) (op : DdrOp) (addr n : Nat) : Except (DdrErr × Nat) (Map Byte) × State :=
  match s.judgeAll who op addr n with
  | (some e, s) => (.error e, s)
  | (none, s) =>
    match (s.judgeParts who addr n).foldl (fun (acc : Except (DdrErr × Nat) (Map Byte) × State) p =>
      match acc.1 with
      | .error _ => acc
      | .ok m =>
        let s := acc.2
        match s.regionOf p.1 with
        | none => (.ok m, s)
        | some r =>
          match if s.regionMode r = 2 then s.checkLines who r p.1 p.2 else (none, s) with
          | (some line, s) => (.error (.halted, line * 64 - addr), s)
          | (none, s) => (.ok (m ++ (s.formParts r p.1 p.2).flatMap (fun q => s.seenPart r addr q.1 q.2)), s)) (.ok [], s) with
    | (.ok m, s) => (.ok (m.setAll (fun _ => 0) (s.waitBytes addr n)), s)
    | (.error e, s) => (.error e, s)

/-- Bring a line into the form its region expects, keeping what the region shows of it: the read half of a write
narrower than a line (R400). -/
def State.convertLine (s : State) (r line : Nat) : State :=
  if s.tagOf line = s.tagFor r (line * 64) then s
  else
    let bytes := (List.range 64).zip (s.seenLine r line)
    let s := s.retag line (line + 1) (s.tagFor r (line * 64))
    { s with ddr := s.ddr.setAll (fun _ => 0) (bytes.map fun e => (line * 64 + e.1, e.2)) }

/-- A line of a CONF_INT region is written: its counter advances in its leaf, and at its end value asks for a re-key (R403,
R412). The MAC line that takes its MAC keeps the other MACs it holds. -/
def State.bumpCtr (s : State) (r line : Nat) : State :=
  let (pages, base) := s.treeOf r
  let at_ := line - s.regionBase r / 64
  let c := s.crypt.ctrs.get (fun _ => 0) line + 1
  let m := s.macPlace r line
  let key := s.keyFor r (line * 64)
  let s := if s.tagOf m.1 = some (.metadata key r base pages) then s
    else
      let b := s.storedLine m.1
      (s.retag m.1 (m.1 + 1) (some (.metadata key r base pages))).modCry fun x => { x with
        macs := x.macs.setAll (fun _ => none) ((List.range 8).map fun t =>
          (line - at_ % 8 + t, some (natOfBytes ((b.drop (8 * t)).take 8)))) }
  let s := (s.dirtyNode r 0 (at_ / 64 * 6 + at_ % 64 / 11)).modCry fun x => { x with ctrs := x.ctrs.set (fun _ => 0) line c }
  let s := if s.tagOf line = some (.int key r) ∧ s.crypt.macs = [] then s else s.retag line (line + 1) (some (.int key r))
  s.noteEnd r c

/-- A write of the line would take its counter beyond the end value: it waits for the re-key of its page (R413). -/
def State.mustWait (s : State) (r line : Nat) : Bool :=
  s.regionMode r = 2 && decide (ctrEnd ≤ s.crypt.ctrs.get (fun _ => 0) line)

/-- A list of bytes covers its line: the write needs no read of it. -/
def wholeLine (l : List (Nat × Byte)) : Bool := (List.range 64).all fun k => l.any fun e => e.1 = k

/-- Write some bytes of one line of a PLAIN or CONF region, at offsets in the line. -/
def State.mergeLine (s : State) (r line : Nat) (l : List (Nat × Byte)) : State :=
  if l.isEmpty then s
  else
    let s := if wholeLine l then
        (if s.tagOf line = s.tagFor r (line * 64) then s else s.retag line (line + 1) (s.tagFor r (line * 64)))
      else s.convertLine r line
    { s with ddr := s.ddr.setAll (fun _ => 0) (l.map (fun (e : Nat × Byte) => (line * 64 + e.1, e.2))) }

/-- Write some bytes of one line of a CONF_INT region (R400, R403, R405); `true`: a check fails for good. -/
def State.storeInt (s : State) (who : Initiator) (r line : Nat) (l : List (Nat × Byte)) : Bool × State :=
  if l.isEmpty then (false, s)
  else if s.mustWait r line then (false, s.modCry fun c => { c with waits := c.waits ++ [⟨who, line, l⟩] })
  else
    match if wholeLine l then s.fetchPath who r line else s.checkLine who r line with
    | (true, s) => (true, s)
    | (false, s) =>
      let s := (if wholeLine l then s else s.convertLine r line).bumpCtr r line
      (false, { s with ddr := s.ddr.setAll (fun _ => 0) (l.map (fun (e : Nat × Byte) => (line * 64 + e.1, e.2))) })

/-- Fill the whole of [addr, addr + n) of a PLAIN or CONF region with the bytes of `m` (offsets from `base`), the range being
whole lines in one form. -/
def State.fillLines (s : State) (r base addr n : Nat) (m : Map Byte) : State :=
  let new := (m.range (addr - base) (addr - base + n)).map (fun e => (e.1 + base, e.2))
  let s := s.retag (addr / 64) ((addr + n) / 64) (s.tagFor r addr)
  { s with ddr := (s.ddr.range 0 addr) ++ new ++ s.ddr.filter (fun e => addr + n ≤ e.1) }

/-- Write a judged part of a PLAIN or CONF region in one form: the whole lines, and the partial ones at its ends. -/
def State.storePart (s : State) (r base addr n : Nat) (m : Map Byte) : State :=
  let piece (s : State) (a k : Nat) : State :=
    s.mergeLine r (a / 64) ((List.range k).map (fun j => (a % 64 + j, m.get (fun _ => 0) (a + j - base))))
  let head := min n ((64 - addr % 64) % 64)
  let body := (n - head) / 64 * 64
  let s := piece s addr head
  let s := if body = 0 then s else s.fillLines r base (addr + head) body m
  piece s (addr + head + body) (n - head - body)

/-- Write a judged part of a CONF_INT region line by line, up to the first line whose check fails for good. -/
def State.storeLines (s : State) (who : Initiator) (r base addr n : Nat) (m : Map Byte) : Option Nat × State :=
  (cutAt 64 (n / 64 + 2) addr n).foldl (fun x p =>
    if x.1.isSome then x
    else
      let y := x.2.storeInt who r (p.1 / 64) ((List.range p.2).map fun j => (p.1 % 64 + j, m.get (fun _ => 0) (p.1 + j - base)))
      (if y.1 then some (p.1 / 64) else none, y.2)) (none, s)

/-- Write the `n` bytes at `addr` from a sparse map (bytes not listed are 0), judged: the first error and the offset it
befell, and the state. Of one access over the rings every part is written or refused on its own (R398); a range that an engine
writes ends at the first part that gets an error response. -/
def State.ddrPut (s : State) (who : Initiator) (op : DdrOp) (addr n : Nat) (m : Map Byte) :
    Option (DdrErr × Nat) × State :=
  (s.judgeParts who addr n).foldl (fun (acc : Option (DdrErr × Nat) × State) p =>
    if acc.1.isSome && !onRing who then acc
    else match acc.2.judge who op p.1 with
      | (some e, s) => (acc.1.or (some (e, p.1 - addr)), s)
      | (none, s) =>
        match s.regionOf p.1 with
        | none => (acc.1, s)
        | some r =>
          if s.regionMode r = 2 then
            let x := s.storeLines who r addr p.1 p.2 m
            (acc.1.or (x.1.map fun line => (.halted, line * 64 - addr)), x.2)
          else (acc.1, (s.formParts r p.1 p.2).foldl (fun s q => s.storePart r addr q.1 q.2 m) s)) (none, s)

/-! ## The accesses the blocks make -/

/-- Read `n` bytes as a number, least significant byte first; `true`: an error response. -/
def State.ddrRead (s : State) (who : Initiator) (addr n : Nat) : Bool × Nat × State :=
  match s.ddrGet who .read addr n with
  | (.ok m, s) => (false, m.foldl (fun v e => v + e.2.toNat * 256 ^ e.1) 0, s)
  | (.error _, s) => (true, 0, s)

/-- Write the `n` bytes of a number. -/
def State.ddrWrite (s : State) (who : Initiator) (addr n v : Nat) : Bool × State :=
  match s.ddrPut who .write addr n (mapOfBytes (bytesOfNat v n)) with
  | (none, s) => (false, s)
  | (some _, s) => (true, s)

/-- Write the bytes of a 64-bit word whose BE bit is 1, the word lying in one line. -/
def State.ddrWriteBe (s : State) (who : Initiator) (addr be : Nat) (v : W64) : Bool × State :=
  match s.judge who .write addr with
  | (some _, s) => (true, s)
  | (none, s) =>
    match s.regionOf addr with
    | none => (false, s)
    | some r =>
      let l := ((List.range 8).filter (fun k => be.testBit k)).map (fun k => (addr % 64 + k, BitVec.ofNat 8 (v.toNat / 256 ^ k)))
      if s.regionMode r = 2 then s.storeInt who r (addr / 64) l else (false, s.mergeLine r (addr / 64) l)

/-- Fill a range from a sparse map; the offset of the first error response. -/
def State.ddrFill (s : State) (who : Initiator) (addr n : Nat) (m : Map Byte) : Option Nat × State :=
  match s.ddrPut who .write addr n m with
  | (none, s) => (none, s)
  | (some (_, off), s) => (some off, s)

/-- The nonzero bytes of a range, with the state the read leaves; none on an error response. -/
def State.ddrMap (s : State) (who : Initiator) (addr n : Nat) : Option (Map Byte) × State :=
  match s.ddrGet who .read addr n with
  | (.ok m, s) => (some m, s)
  | (.error _, s) => (none, s)

/-- Copy `n` bytes; the number is set on an error response. -/
def State.ddrCopy (s : State) (who : Initiator) (src dst n : Nat) : Option Nat × State :=
  match s.ddrMap who src n with
  | (none, s) => (some 0, s)
  | (some m, s) => s.ddrFill who dst n m

/-- What a read would return, where only its value is wanted: 0 on an error response. -/
def State.ddrRaw (s : State) (who : Initiator) (addr n : Nat) : Nat := (s.ddrRead who addr n).2.1

/-- The nonzero bytes a read would return. -/
def State.ddrBytes (s : State) (who : Initiator) (addr n : Nat) : List (Nat × Byte) :=
  ((s.ddrMap who addr n).1).getD []

/-! ## DDR_ACCESS -/

/-- A byte of DDR changes where it is stored. -/
def State.flip (s : State) (e : Nat × Byte) : State :=
  let line := e.1 / 64
  let b := (List.range 64).zip (s.storedLine line)
  let s := s.retag line (line + 1) none
  { s with ddr := s.ddr.setAll (fun _ => 0) (b.map fun x =>
      (line * 64 + x.1, if line * 64 + x.1 = e.1 then x.2 ^^^ e.2 else x.2)) }

/-- What befalls DDR and the node cache before an access: the checks that read it find it (R406, R408; log 71). -/
def State.strikeDdr (s : State) (p : DdrPhys) : State :=
  let s := p.flips.foldl State.flip s
  let s := s.modCry fun c => { c with
    flaky := c.flaky ++ p.flaky
    parity := c.parity ++ p.parity.filter fun line => (s.cachedAt line).isSome
    rootBad := c.rootBad ++ p.rootParity }
  p.evict.foldl State.evictNode s

/-- How an access that got the error `e` ends for its initiator (R399, R510): at an address that is not there as R24 says for the
host, the cores and the debug path; a host read completes with Completer Abort, a host write is discarded and logged. -/
def State.endsWith (s : State) (who : Initiator) (write : Bool) (e : DdrErr) : State :=
  match who with
  | .hostMmio =>
    if e = .reserved then s.answer 0
    else if write then ({ s with host := { s.host with aerAbort := true } } : State).answer 0
    else s.completerAbort.busError
  | .debug | .core _ => if e = .reserved then s.answer 0 else s.busError
  | _ => s.busError

/-- DDR_ACCESS (R397-R408): an access of an initiator to DDR. A read returns its data on the bus; a
read-modify-write returns the old data and writes `data` in one access. -/
def execDdrAccess (who : Initiator) (op : DdrKind) (addr n : Nat) (data : List Byte) (p : DdrPhys) (s : State) :
    Host.Outcome State Fault Refusal :=
  let s := s.strikeDdr p
  if s.hostDeaf who then ok (s.answer 0) else
  let put (s : State) (o : DdrOp) (old : Nat) : State :=
    match s.ddrPut who o addr n (mapOfBytes (data.take n)) with
    | (some (e, _), s) => s.endsWith who true e
    | (none, s) => s.answer old
  match op with
  | .write => ok (put s .write 0)
  | .read => match s.ddrGet who .read addr n with
    | (.error (e, _), s) => ok (s.endsWith who false e)
    | (.ok m, s) => ok (s.answer (m.foldl (fun v e => v + e.2.toNat * 256 ^ e.1) 0))
  | .rmw => match s.ddrGet who .rmw addr n with
    | (.error (e, _), s) => ok (s.endsWith who false e)
    | (.ok m, s) => ok (put s .rmw (m.foldl (fun v e => v + e.2.toNat * 256 ^ e.1) 0))

/-! ## Keys and regions (R409-R415) -/

/-- A slot may not be changed: an enabled region names it, or it is the NEW_SLOT of a re-key in progress. -/
def State.slotInUse (s : State) (k : Nat) : Bool :=
  (List.range 16).any (fun r => let c := Reg.CR_REG_CFG r
    (s.flag c 31 && s.fld c 0 5 = k) || (s.regionState r = 2 && s.fld c 8 5 = k))

/-- The key that CRYPT_KEY_DATA holds. -/
def State.keyData (s : State) : Nat := (List.range 16).foldl (fun n w => n + s.rd (Reg.CRYPT_KEY_DATA w) * 2 ^ (32 * w)) 0

/-- Store into a slot, with its FILLED bit. -/
def State.setSlot (s : State) (k : Nat) (v : BitVec 512) (filled : Bool) : State :=
  (s.modCry fun c => { c with keys := c.keys.set (fun _ => 0) k v }).setFlag Reg.CRYPT_KEY_STAT k filled

/-- A write of GO to CRYPT_KEY_CMD (R409). -/
def State.keyCmd (s : State) (op slot : Nat) : State :=
  let s1 :=
    if s.slotInUse slot ∨ (op ≠ 2 ∧ s.flag Reg.CRYPT_KEY_STAT slot) then
      s.record cRejected bCrypt 0x0D0A (op * 32 + slot)
    else if op = 0 then s.setSlot slot (BitVec.ofNat 512 s.keyData) true
    else if op = 1 then
      { s with freeCount := s.freeCount + 1 }.setSlot slot (Config.random s.freeCount) true
    else s.setSlot slot 0 false
  (List.range 16).foldl (fun s w => s.wr (Reg.CRYPT_KEY_DATA w) 0) s1

/-- A field of CR_REG_BASE, CR_REG_SIZE or CR_REG_CFG may not be written now (R413, R415). -/
def State.regionFixed (s : State) (r k : Nat) (f : FieldSpec) : Bool :=
  let en := s.flag (Reg.CR_REG_CFG r) 31
  let busy := s.regionState r = 1 || s.regionState r = 2
  match k with
  | 0 | 1 => en || busy
  | 2 => ((f.lsb = 16 || f.lsb = 0) && (en || busy)) || (f.lsb = 31 && en && decide (s.regionState r = 2))
  | _ => false

/-- What enabling a region does (R410). -/
def State.enableRegion (s : State) (r : Nat) : State :=
  if s.regionMode r = 2 then
    ((s.setFld (Reg.CR_REG_STAT r) 29 3 1).setFld (Reg.CR_REG_STAT r) 0 26 0).showBusy
  else s

/-- What disabling a CONF_INT region does: its changed nodes are written back, an initialisation ends (DEDUCED, log 102). -/
def State.disableRegion (s : State) (r : Nat) : State :=
  if s.regionMode r = 2 then
    let s := if s.flag Reg.CRYPT_STAT 31 ∨ s.regionState r = 1 then s else s.flushNodes r
    ((s.dropNodes r).setFld (Reg.CR_REG_STAT r) 29 3 0).showBusy
  else s

/-- A write of CR_REG_CFG that sets EN needs a FILLED KEY_SLOT in CONF and CONF_INT (R410). -/
def State.enableRefused (s : State) (r v : Nat) : Bool :=
  v.testBit 31 && !s.flag (Reg.CR_REG_CFG r) 31 && !s.flag Reg.CRYPT_CTRL 31 &&
    (bits v 16 2 ≠ 0) && !s.flag Reg.CRYPT_KEY_STAT (bits v 0 5)

/-- A write of REKEY = 1 (R412): it starts, queues or holds a re-key of a CONF or CONF_INT region that is enabled;
a region that holds none in progress. -/
def State.askRekey (s : State) (r : Nat) : State :=
  if s.flag (Reg.CR_REG_CFG r) 31 ∧ s.regionMode r ≠ 0 ∧ (s.regionState r = 0 ∨ s.regionState r = 3) then
    s.startRekey r (s.crypt.byEnd.contains r)
  else s

/-- A write of a CRYPT register (R409, R415). -/
def State.writeCrypt (s : State) (init : Initiator) (off v : Nat) : State :=
  if !isWarden init then
    (if s.anyCounts off v then s.notWarden init off else (s.csrWrite init off v (fun _ => false) false 0x0D08).2)
  else
    let lock := s.flag Reg.CRYPT_CTRL 31
    let k := (off - Reg.CR_REG_BASE 0) / 4 % 8
    let r := (off - Reg.CR_REG_BASE 0) / 0x20
    let region := decide (Reg.CR_REG_BASE 0 ≤ off ∧ r < 16)
    if region ∧ k = 2 ∧ s.enableRefused r v then s.reject bCrypt 0x0D08 off
    else
      let was := s.flag (Reg.CR_REG_CFG r) 31
      let (done, s) := s.csrWrite init off v (fun f => region && s.regionFixed r k f) lock 0x0D08
      if !done then s
      else if off = Reg.CRYPT_KEY_CMD then
        if v.testBit 31 then s.keyCmd (if bits v 29 2 = 3 then 2 else bits v 29 2) (bits v 0 5) else s
      else if region ∧ k = 2 then
        let s := if !was && s.flag (Reg.CR_REG_CFG r) 31 then s.enableRegion r else s
        let s := if was && !s.flag (Reg.CR_REG_CFG r) 31 then s.disableRegion r else s
        let s := if v.testBit 30 then s.askRekey r else s
        s.setFlag off 30 false
      else s

/-- INIT_DONE (R410): every data line of a CONF_INT region is the encryption of zero with counter 0, the tree and
the root are built, and the region is READY. -/
def execInitDone (r : Nat) (s : State) : Host.Outcome State Fault Refusal :=
  if r < 16 ∧ s.regionState r = 1 ∧ ¬ s.flag Reg.CRYPT_STAT 31 then
    let base := s.regionBase r
    let data := s.dataSize r
    let size := s.fld (Reg.CR_REG_SIZE r) 0 15 * 2 ^ 24
    let key := s.key (s.fld (Reg.CR_REG_CFG r) 0 5)
    let s : State := { s with
      ddr := s.ddr.without base (base + size)
      crypt := { s.crypt with
        tags := setTags (setTags s.crypt.tags (base / 64) ((base + data) / 64) (some (.int key r)))
          ((base + data) / 64) ((base + size) / 64) (some (.metadata key r (base + data) (data / 4096)))
        macs := s.crypt.macs.without (base / 64) ((base + data) / 64)
        ctrs := s.crypt.ctrs.without (base / 64) ((base + data) / 64) } }
    let s := s.buildTree r
    ok (((s.setFld (Reg.CR_REG_STAT r) 29 3 0).showBusy).raise 15 5)
  else ok s

/-- Perform the waiting writes of a page that has been rewritten (R413). -/
def State.runWaits (s : State) (r lo hi : Nat) : State :=
  let mine := s.crypt.waits.filter (fun w => lo ≤ w.line && w.line < hi)
  let s := s.modCry fun c => { c with waits := c.waits.filter (fun w => !(lo ≤ w.line && w.line < hi)) }
  mine.foldl (fun s w => (s.storeInt w.who r w.line w.data).2) s

/-- The re-key of region `r` completes (R411), and the next region that waits for its turn begins its own (R412). -/
def State.rekeyDone (s : State) (r : Nat) : State :=
  let c := Reg.CR_REG_CFG r
  let old := s.fld c 0 5
  let new := s.fld c 8 5
  let s := s.setFld c 0 5 new
  let s := if old = new then s else s.setSlot old 0 false
  let (pages, base) := s.treeOf r
  let s := if s.regionMode r = 2 then
      s.modCry fun c => { c with gens := c.gens.filter fun k => k < base / 64 || base / 64 + pages * 16 ≤ k }
    else s
  let s := ((s.setFld (Reg.CR_REG_STAT r) 29 3 0).showBusy).record cInfo bCrypt 0x0D06 new
  let s := s.raise 15 3
  (List.range 16).foldl (fun (s : State) q =>
    if s.regionState q = 4 ∧ (List.range 16).all (fun k => s.regionState k ≠ 2) then s.startRekey q (s.crypt.byEnd.contains q)
    else s) s

/-- The tree nodes that the re-key of page `p` rewrites (R411): its leaves, and every node whose coverage ends within the
page. -/
def rekeyNodes (pages p : Nat) : List (Nat × Nat) :=
  (List.range (rootLevel pages)).flatMap fun l =>
    let lo := 6 * p / 8 ^ l
    (List.range ((6 * p + 5) / 8 ^ l + 1 - lo)).filterMap fun j =>
      let last := min ((lo + j + 1) * 8 ^ l) (6 * pages) - 1
      if 6 * p ≤ last ∧ last ≤ 6 * p + 5 then some (l, lo + j) else none

/-- Page `p` of region `r` is rewritten under NEW_SLOT with counters 0: its data lines, and in CONF_INT its MAC lines, leaves, and
the tree nodes that end with it (R411). -/
def State.rewritePage (s : State) (r p : Nat) : State :=
  let lo := s.regionBase r / 64 + p * 64
  let new := s.key (s.fld (Reg.CR_REG_CFG r) 8 5)
  let s := (List.range 64).foldl (fun s k => s.convertLine r (lo + k)) s
  let s := s.setFld (Reg.CR_REG_STAT r) 0 26 (p + 1)
  if s.regionMode r ≠ 2 then s.retag lo (lo + 64) (some (.conf new))
  else
    let (pages, base) := s.treeOf r
    let s := (s.retag lo (lo + 64) (some (.int new r))).retag (base / 64 + p * 16) (base / 64 + p * 16 + 14) (some (.metadata new r base pages))
    let s := s.modCry fun c => { c with ctrs := c.ctrs.without lo (lo + 64) }
    (rekeyNodes pages p).foldl (fun s e => s.writeNode r e.1 e.2) s

/-- REKEY_PAGE (R411): page WM of the region under re-key is rewritten under NEW_SLOT, once its lines have been read with every
check (R406, R407, R413). -/
def execRekeyPage (r : Nat) (s : State) : Host.Outcome State Fault Refusal :=
  if r < 16 ∧ s.regionState r = 2 ∧ ¬ s.flag Reg.CRYPT_STAT 31 then
    let wm := s.fld (Reg.CR_REG_STAT r) 0 26
    let lo := s.regionBase r / 64 + wm * 64
    match if s.regionMode r = 2 then s.checkLines .engine r (lo * 64) 4096 else (none, s) with
    | (some _, s) => ok s
    | (none, s) =>
      let s := s.rewritePage r wm
      let s := if wm + 1 = s.dataSize r / 4096 then s.rekeyDone r else s
      ok (s.runWaits r lo (lo + 64))
  else ok s

end Sys2Proof.Machine
end

