-- ==== Sys2Proof/Machine/Spoor.lean ====
section
/-!
DEFINITION. Spoor (chapter 17): its commands, the packets of the cores, its registers, and the DDR ring.
-/

namespace Sys2Proof.Machine

/-! ## The DDR ring (R423) -/

/-- Order 3 of R426: sources stop, what is accepted is stored, and PAD fills a 64-byte line. -/
def State.spStopping (s : State) : State :=
  if s.spOn then
    ((s.modSp fun x => { x with atoms := [] }).spPad 64).setFld Reg.SPOOR_STAT 29 3 3
  else s

/-- An error response to a ring write (R423): the trace stops, with ERROR in place of STOPPED. -/
def State.spDdrError (s : State) (addr : Nat) : State :=
  let s := s.spStopping.modSp fun x => { x with err := true }
  (s.record cConfig bSpoor 0x0E04 (addr / 64 % 2 ^ 26)).raise 16 3

/-- A soft error that a read of the on-chip buffer finds at `addr`: single-bit, or (`double`) one that replaces its 64-byte block,
in the queue too, with PAD (R425). -/
def State.spBufError (s : State) (addr : Nat) (double : Bool) : State :=
  if !double then
    let first := s.fld Reg.SPOOR_ECC 16 16 = 0
    let s := s.count Reg.SPOOR_ECC 16 16 1
    if first then s.record cCorrected bSpoor 0x0E05 (addr / 8 % 2 ^ 14) else s
  else
    let b := addr / 64
    let s := s.count Reg.SPOOR_ECC 0 16 1
    let s := s.modSp fun x => { x with
      buf := x.buf.without (b * 64) (b * 64 + 64)
      queue := ((List.range x.queue.length).zip x.queue).map fun e =>
        if (x.pos - x.queue.length + e.1) % 2 ^ 20 / 64 = b then 0 else e.2 }
    (s.record cConfig bSpoor 0x0E06 (b % 2 ^ 14)).raise 16 4

/-- The checks of the 64-bit words of the buffer that `n` bytes at offset `a` touch, as they are read (R425). -/
def State.spCheck (s : State) (a n : Nat) : State :=
  ((s.spoor.upsets.filter fun e => a / 8 ≤ e.1 && e.1 ≤ (a + n - 1) / 8).foldl (fun (s : State) e => s.spBufError (e.1 * 8) e.2) s).modSp
    fun x => { x with upsets := x.upsets.filter fun e => !(a / 8 ≤ e.1 && e.1 ≤ (a + n - 1) / 8) }

/-- Soft errors strike 64-bit words of the buffer: the next read finds them (R425, log 71). -/
def State.spStrike (s : State) (l : List (Nat × Bool)) : State :=
  s.modSp fun x => { x with upsets := l.foldl (fun u e => (e.1 % 2 ^ 17, e.2 || u.any (·.1 = e.1 % 2 ^ 17)) ::
    u.filter (·.1 ≠ e.1 % 2 ^ 17)) x.upsets }

/-- Write the oldest 64-byte line of the queue, which reads it from the buffer; `true`: an error response. -/
def State.spDrainLine (s : State) : Bool × State :=
  let p := s.spoor.pos - s.spoor.queue.length
  let s := s.spCheck (p % 2 ^ 20) 64
  let a := s.fld Reg.SPOOR_RING_BASE 0 26 * 4096 + p % 2 ^ s.fld Reg.SPOOR_CFG 24 6
  match s.ddrFill .spoor a 64 (mapOfBytes (s.spoor.queue.take 64)) with
  | (none, s) => (false, s.modSp fun x => { x with queue := x.queue.drop 64 })
  | (some _, s) => (true, s.spDdrError a)

/-- Write every whole line of the queue, as long as no write gets an error response. -/
def State.spDrain : Nat → State → State
  | 0, s => s
  | k + 1, s =>
    if s.spoor.queue.length < 64 ∨ s.spoor.err then s
    else match s.spDrainLine with
      | (true, t) => t
      | (false, t) => State.spDrain k t

/-- Drain the queue (R423). -/
def State.spDrainAll (s : State) : State := State.spDrain (s.spoor.queue.length / 64) s

/-! ## Core packets (R419, R420, R427, R429) -/

/-- The pending ATOM of core `k` is emitted, after a full sync that is due, which holds it already where it syncs the core. -/
def State.spFlushAtom (s : State) (k : Nat) : State :=
  if s.spoor.atoms.get (fun _ => []) k = [] ∨ !s.spOn then s else s.spDue.spAtomOut k

/-- A core packet other than an ATOM. -/
def State.spCore (s : State) (k : Nat) (l : List Byte) : State := (s.spFlushAtom k).spEmit k l

/-- A DATA packet is due for an access (R420). -/
def State.spData (s : State) (k addr : Nat) (store : Bool) : Bool :=
  s.flag Reg.SPOOR_SRC (8 + k) && !(decide (0x40_00F0_0010 ≤ addr) && decide (addr ≤ 0x40_00F0_004F)) &&
    (List.range 4).any (fun j => let c := Reg.DF_CFG j
      s.flag c 31 && s.flag c (if store then 29 else 30) && s.flag c k &&
        decide (s.rd (Reg.DF_LO j) * 256 ≤ addr) && decide (addr ≤ s.rd (Reg.DF_HI j) * 256 + 255))

/-- An ISYNC is owed to a core that has come back from debug halt (R419). -/
def State.spResumed (s : State) (k : Nat) : State :=
  if s.spoor.resumed.contains k then
    let s := s.modSp fun x => { x with resumed := x.resumed.filter (· ≠ k) }
    if s.flag Reg.SPOOR_SRC k ∧ ¬ s.spExcluded k then s.spCore k (s.isyncPacket k) else s
  else s

/-- The core's PC and mode after an event. -/
def State.setPc (s : State) (k pc : Nat) (machine : Bool) : State := s.modCore k fun c => { c with pc := pc, machine := machine }

/-- The events of the trace port of a core that executes, the ISYNC of its return from debug halt apart (R419, R420, R427): `pc`
and `machine` are the core's after the event. A full sync that is due before the packet of the event shows the PC before it. -/
def State.coreEvent (s : State) (k : Nat) (ev : TraceEv) (pc : Nat) (machine : Bool) : State :=
  let was := (s.core k).machine
  let hidden := s.spExcluded k
  let inst := s.flag Reg.SPOOR_SRC k
  let due (s : State) : State := if s.spOn then (s.spFlushAtom k).spDue else s
  match ev with
  | .branch taken =>
    let t := s.setPc k pc machine
    if !inst || hidden || !s.spOn then t
    else
      let l := t.spoor.atoms.get (fun _ => []) k ++ [taken]
      let t := t.modSp fun x => { x with atoms := x.atoms.set (fun _ => []) k l }
      if l.length = 5 then t.spFlushAtom k else t
  | .jump target kind cause =>
    if !inst then s.setPc k pc machine
    else if hidden then
      let t := s.setPc k pc machine
      if was ∧ ¬ machine ∧ k ≠ 0 then t.spCore k (t.isyncPacket k) else t
    else
      let masked := s.fld Reg.SPOOR_SCOPE 0 1 = 0 ∧ machine ∧ (kind = 1 ∨ kind = 2)
      ((due s).setPc k pc machine).spEmit k (spHdr 5 k :: (bytesOfNat (if masked then 0 else target) 5 ++
        bytesOfNat (kind % 4 * 64 + cause % 64) 1))
  | .data addr store size value =>
    if hidden || !s.spData k addr store then s.setPc k pc machine
    else ((due s).setPc k pc machine).spEmit k (spHdr 6 k :: (bytesOfNat addr 5 ++
      bytesOfNat ((if store then 128 else 0) + size % 4) 1 ++ bytesOfNat value.toNat 8))
  | .resume =>
    let t := s.setPc k pc machine
    if !inst || t.spExcluded k then t else t.spCore k (t.isyncPacket k)
  | .wfi => (s.setPc k pc machine).modCore k fun c => { c with state := 3 }

/-- One event of a core's trace port. The `resume` event shows the PC that the owed ISYNC holds. -/
def State.coreTrace (s : State) (k : Nat) (ev : TraceEv) (pc : Nat) (machine : Bool) : State :=
  if (s.core k).state ≠ 1 then s
  else if ev = .resume then
    if s.spoor.resumed.contains k then
      (s.modSp fun x => { x with resumed := x.resumed.filter (· ≠ k) }).coreEvent k ev pc machine
    else s.setPc k pc machine
  else (s.spResumed k).coreEvent k ev pc machine

/-- Core `k` leaves debug halt: an ISYNC comes before its next instruction packet (R419, R463). -/
def State.coreResumes (s : State) (k : Nat) : State :=
  (s.modCore k fun c => { c with state := 1 }).modSp fun x => { x with resumed := k :: x.resumed.filter (· ≠ k) }

/-- Before a traced core enters RETAIN (2) or OFF (3): its ATOM and a POWER packet (R429). -/
def State.spCorePower (s : State) (k level : Nat) : State :=
  if s.spShowsPower k then s.spCore k [spHdr 9 k, BitVec.ofNat 8 level] else s

/-! ## Scope (R428) -/

/-- SCOPE has changed: a SCOPE packet and a full sync, stored as long as STOPPED has not been reached (R428, R432). Outcomes that
a core has gathered and NONSECURE excludes are dropped (R427; DEDUCED, log 110). -/
def State.spScoped (s : State) : State :=
  let s := s.modSp fun x => { x with atoms := x.atoms.filter fun e => !s.spExcluded e.1 }
  let t := (s.spStore 10 [spHdr 0xC 10, BitVec.ofNat 8 (s.fld Reg.SPOOR_SCOPE 0 1)]).spFullSync
  if s.spOn then t else if s.spState = 3 then t.spPad 64 else s

/-- Debug authorisation changes (R428, R463). -/
def State.spAuth (s : State) (granted : Bool) : State :=
  if !granted && s.flag Reg.SPOOR_SCOPE 0 then
    ((s.setFlag Reg.SPOOR_SCOPE 0 false).spScoped).record cInfo bSpoor 0x0E03 0
  else s

/-! ## Registers and commands (R426, R434) -/

/-- START in OFF, STOPPED or ERROR. -/
def State.spStart (s : State) : State :=
  if s.spState = 0 ∨ s.spState = 4 ∨ s.spState = 5 then
    let s := s.modSp fun x => { x with pos := 0, lastSync := 0, queue := [], atoms := [], lost := []
                                       resumed := [], tsAt := s.now, err := false }
    (s.setFld Reg.SPOOR_STAT 29 3 1).spFullSync
  else s.reject bSpoor 0x0E01 Reg.SPOOR_CTRL

/-- A write of a SPOOR register (R434). -/
def State.writeSpoor (s : State) (init : Initiator) (off v : Nat) : State :=
  let free := off = Reg.SPOOR_CTRL ∨ off = Reg.SPOOR_SCOPE ∨ off = Reg.SPOOR_INT_STAT ∨
    (Reg.SPOOR_EVT 0 ≤ off ∧ off < Reg.SPOOR_EVT 4)
  let quiet := s.spState = 0 ∨ s.spState = 4 ∨ s.spState = 5
  let scope := s.fld Reg.SPOOR_SCOPE 0 1
  let (done, s) := s.csrWrite init off v (fun f => decide (f.acc = .rw ∧ ¬ free ∧ ¬ quiet)) false 0x0E01
  if !done then s
  else if off = Reg.SPOOR_CTRL then
    let s := s.wr Reg.SPOOR_CTRL 0
    let s := if v.testBit 31 then s.spStart else s
    let s := if v.testBit 30 then s.spStopping else s
    if v.testBit 29 then s.spTrigger 0 else s
  else if off = Reg.SPOOR_SCOPE ∧ s.fld Reg.SPOOR_SCOPE 0 1 ≠ scope then s.spScoped
  else s

/-- TRIGGER_AMOUNT_REACHED (R426 order 2). -/
def execTriggerAmountReached (s : State) : Host.Outcome State Fault Refusal :=
  let n := s.rd Reg.SPOOR_STOP
  let reached := if s.flag Reg.SPOOR_TRIG_CFG 31 then decide (n ≤ s.spoor.pos - s.spoor.trigEnd)
    else decide (n * 1000 ≤ s.now - s.spoor.trigAt)
  if s.spState = 2 ∧ reached then ok s.spStopping else ok s

/-- STOPPED (R426 order 4): the queue drains, and STATE becomes STOPPED, or ERROR where a ring write failed. -/
def execStopped (s : State) : Host.Outcome State Fault Refusal :=
  if s.spState = 3 then
    let s := if s.flag Reg.SPOOR_CFG 31 then s.spDrainAll else s
    let s := s.wr64 Reg.SPOOR_STOP_POS_LO s.spoor.pos
    if s.spoor.err then ok (s.setFld Reg.SPOOR_STAT 29 3 5)
    else ok ((s.setFld Reg.SPOOR_STAT 29 3 4).raise 16 1)
  else ok s

/-- TS (R422): due TS_US after the last one. -/
def execTs (s : State) : Host.Outcome State Fault Refusal :=
  let d := s.fld Reg.SPOOR_CFG 0 10 * 1000
  if s.spOn ∧ s.spoor.tsAt + d ≤ s.now then
    ok ((s.modSp fun x => { x with tsAt := x.tsAt + d }).spEmit 10 s.tsPacket)
  else ok s

/-- SPOOR_DDR_ERROR (R423): the next ring write of the queue, which gets an error response from CRYPT or, with
`failed`, from the DDR controller. `struck`: the soft errors that have struck the buffer since the row before (R425). -/
def execSpoorDdrError (failed : Bool) (struck : List (Nat × Bool)) (s : State) : Host.Outcome State Fault Refusal :=
  let s := s.spStrike struck
  if s.spoor.queue.length < 64 ∨ s.spoor.err then ok s
  else if failed then
    ok (s.spDdrError (s.fld Reg.SPOOR_RING_BASE 0 26 * 4096 +
      (s.spoor.pos - s.spoor.queue.length) % 2 ^ s.fld Reg.SPOOR_CFG 24 6))
  else ok s.spDrainLine.2

/-- A read of SPOOR_BUF_DATA (R434): 4 bytes of the buffer, and the address advances. -/
def State.spBufRead (s : State) : Nat × State :=
  if s.spState = 0 ∨ s.spState = 4 ∨ s.spState = 5 then
    let a := s.fld Reg.SPOOR_BUF_ADDR 0 20
    let s := s.spCheck a 4
    (natOfBytes ((List.range 4).map (fun k => s.spoor.buf.get (fun _ => 0) (a + k))),
      s.setFld Reg.SPOOR_BUF_ADDR 0 20 (a + 4))
  else (0, s.reject bSpoor 0x0E01 Reg.SPOOR_BUF_DATA)

end Sys2Proof.Machine
end

