-- ==== Sys2Proof/Machine/Lynx.lean ====
section
/-!
DEFINITION. The Lynx speed bridges (chapter 10): ingress log, presentation and pacing, egress frames, registers.
-/

namespace Sys2Proof.Machine

/-- Change the bridges. -/
def State.modLx (s : State) (f : Lynx → Lynx) : State := { s with lynx := f s.lynx }

/-- The time base that a selector names: 0 TB0, 1 TB1. -/
def State.baseTime (s : State) (b : Nat) : Nat := if b = 0 then s.tb0 else s.time.tb1

/-- The value nearest to `v` whose low bits modulo 2^w are `x`. -/
def widenNear (w x v : Nat) : Nat :=
  let m := 2 ^ w
  let c := v / m * m + x % m
  if c + m ≤ v + m / 2 then c + m
  else if v + m / 2 < c ∧ m ≤ c then c - m
  else c

/-! ## Ingress (R257-R260) -/

/-- Capacity of an ingress channel. -/
def State.lxCap (s : State) (b : Nat) : Nat :=
  if s.flag (Reg.LX_IN_CFG b) 28 then 2 ^ s.fld (Reg.LX_IN_CFG b) 0 5 / 16 else 8192

/-- The floor F. -/
def State.lxFloor (s : State) (b : Nat) : Nat :=
  let r := s.rd64 (Reg.LX_IN_RELEASE_POS_LO b)
  if s.flag (Reg.LX_IN_CFG b) 29 then min r (s.lynx.keep.get (fun _ => 0) b) else r

/-- Free space in entries. -/
def State.lxFree (s : State) (b : Nat) : Nat :=
  s.lxCap b - (s.rd64 (Reg.LX_IN_WRITE_POS_LO b) - s.lxFloor b)

/-- Entry `p` of channel `b`, where the channel still holds it. -/
def State.lxEntry (s : State) (b p : Nat) : Option LxEntry := s.lynx.entries.get (fun _ => none) (b * 2 ^ 64 + p)

/-- DDR address of entry `p` of the spill ring. -/
def State.lxSpillAddr (s : State) (b p : Nat) : Nat :=
  s.fld (Reg.LX_IN_SPILL_BASE b) 0 26 * 4096 + p * 16 % 2 ^ s.fld (Reg.LX_IN_CFG b) 0 5

/-- LX_SPILL_ERROR (R277). -/
def State.lxSpillError (s : State) (b kind addr : Nat) : State :=
  s.fatal bLynx 0x0707 (b * 2 ^ 29 + kind * 2 ^ 27 + addr / 64 % 2 ^ 26)

/-- Write into the spill ring of the channel, when it has one. -/
def State.lxSpill (s : State) (b addr n v : Nat) : State :=
  match s.ddrWrite .lynx addr n v with
  | (true, s) => s.lxSpillError b 0 addr
  | (false, s) => s

/-- The word of entry `p`, read from the spill ring where the channel has one (R258). -/
def State.lxWord (s : State) (b p : Nat) : Option W64 × State :=
  match s.lxEntry b p with
  | none => (none, s)
  | some e =>
    if s.flag (Reg.LX_IN_CFG b) 28 then
      let a := s.lxSpillAddr b p
      match s.ddrRead .lynx a 8 with
      | (true, _, s) => (none, s.lxSpillError b 0 a)
      | (false, v, s) => (some (BitVec.ofNat 64 v), s)
    else (some e.word, s)

/-- The first full event since IN_FULL[b] was cleared is recorded. -/
def State.lxFullEvent (s : State) (b code : Nat) : State :=
  if s.flag Reg.LX_INT_STAT (8 + b) then s
  else (s.record cInfo bLynx code (b * 2 ^ 29)).raise 7 (8 + b)

/-- READY of channel `b` under BACKPRESSURE (R260): it is low from the moment its space ends, which is the event that the
record names, until space appears; the time is counted then. -/
def State.lxReady (s : State) (b : Nat) : State :=
  let cfg := Reg.LX_IN_CFG b
  let low := s.flag cfg 31 && !s.flag cfg 30 && decide (s.lxFree b = 0)
  match s.lynx.bpSince.get (fun _ => none) b, low with
  | none, true =>
    (s.modLx fun l => { l with bpSince := l.bpSince.set (fun _ => none) b (some s.now) }).lxFullEvent b 0x0701
  | some t, false =>
    (s.count (Reg.LX_IN_BP_NS b) 0 32 (s.now - t)).modLx fun l =>
      { l with bpSince := l.bpSince.set (fun _ => none) b none }
  | _, _ => s

/-- A soft error that a read of an on-chip buffer finds (R277): direction 0 ingress, of 8,192 entries, 1 egress, of
16,384 words; `p` is the position read. -/
def State.lxBufError (s : State) (b dir p : Nat) : Option Bool → State
  | none => s
  | some d =>
    let detail := b * 2 ^ 29 + dir * 2 ^ 28 + (if dir = 0 then p % 8192 else p % 16384)
    if d then s.fatal bLynx 0x070A detail else s.record cCorrected bLynx 0x0709 detail

/-- The soft errors `errs` among those that reading the head entries of the channels `l` finds. -/
def State.lxHeadErrors (s : State) (l : List Nat) (errs : List EccErr) : State :=
  errs.foldl (fun s e =>
    if e.mem = .lynxIn ∧ l.contains (16 + e.cluster) then
      s.lxBufError e.cluster 0 (s.rd64 (Reg.LX_IN_HEAD_POS_LO e.cluster)) (some e.double)
    else s) s

/-- A word is accepted (R257, R258). -/
def State.lxAccept (s : State) (b : Nat) (w : W64) : State :=
  let p := s.rd64 (Reg.LX_IN_WRITE_POS_LO b)
  let cap := s.lxCap b
  let kept := (s.lynx.entries.set (fun _ => none) (b * 2 ^ 64 + p) (some { word := w, tb0 := s.tb0, tb1 := s.time.tb1 })).filter
    (fun e => !(decide (e.1 / 2 ^ 64 = b) && decide (e.1 % 2 ^ 64 + cap ≤ p)))
  let s := s.modLx fun l => { l with entries := kept }
  let s := if s.flag (Reg.LX_IN_CFG b) 28 then
      s.lxSpill b (s.lxSpillAddr b p) 16 (w.toNat + s.tb0 % 2 ^ 32 * 2 ^ 64 + 0xFFFF_FFFF * 2 ^ 96) else s
  s.wr64 (Reg.LX_IN_WRITE_POS_LO b) (p + 1)

/-- Bridge `b` reaches Shale: Shale is CONFIGURED and the interface frame selects a clock loop for the bridge (R286). In
RETAIN the loops stop and no edge comes (R306). -/
def State.lxOpen (s : State) (b : Nat) : Bool :=
  decide (s.fld Reg.SH_STATUS 29 3 = 4) && !(s.shHold 8).outputs &&
    (lowestBit (bits (s.shale.frames.get (fun _ => 0) 17172).toNat (16 * b) 8) 8).isSome

/-- INGRESS_ACCEPT (R257, R260): Shale offers a word to bridge `b`; READY low means it does not pass. -/
def execIngressAccept (b : Nat) (w : W64) (s : State) : Host.Outcome State Fault Refusal :=
  if 8 ≤ b then ok s
  else
    let s := s.leaveDom (98 + b)
    if ¬ s.flag (Reg.LX_IN_CFG b) 31 ∨ ¬ s.lxOpen b then ok s
    else if s.lxFree b = 0 then
      if s.flag (Reg.LX_IN_CFG b) 30 then ok ((s.count (Reg.LX_IN_DROPPED b) 0 32 1).lxFullEvent b 0x0702) else ok s
    else ok ((s.lxAccept b w).lxReady b)

/-! ## Pacing (R267-R269) -/

/-- pace(n) of a bridge, in ns on its base. -/
def State.pace (s : State) (b n : Nat) : Int :=
  (s.rd64 (Reg.LX_PACE_T0_LO b) : Int) +
    ((n : Int) - s.rd64 (Reg.LX_PACE_N0_LO b)) * s.rd (Reg.LX_PACE_PERIOD b) / 1000

/-- The base a bridge's pace is on. -/
def State.paceBase (s : State) (b : Nat) : Nat := s.fld (Reg.LX_PACE_CFG b) 30 1

/-- The bridges whose ingress channel is enabled and in PACED mode. -/
def State.pacedBridges (s : State) : List Nat :=
  (List.range 8).filter (fun b => s.flag (Reg.LX_IN_CFG b) 31 && s.fld (Reg.LX_IN_CFG b) 24 2 = 1)

/-- The bridges whose pace the start of the present cycle waits for (R268): only the first time a cycle begins in a
run, and never in a replay. -/
def State.paceLacking (s : State) : List Nat :=
  if s.rc.state ≠ .running ∨ s.rc.ecn < s.rc.executed then []
  else s.pacedBridges.filter (fun b => (s.baseTime (s.paceBase b) : Int) < s.pace b s.rc.ecn)

/-- With AUTO = 1, RUN or STEP at T anchors the pace (R267). -/
def State.lynxAnchor (s : State) (t : Nat) : State :=
  (List.range 8).foldl (fun s b =>
    if s.flag (Reg.LX_PACE_CFG b) 31 then
      (s.wr64 (Reg.LX_PACE_N0_LO b) t).wr64 (Reg.LX_PACE_T0_LO b) (s.baseTime (s.paceBase b))
    else s) s

/-- LAG at the start of cycle `n` (R269). -/
def State.noteLag (s : State) (b n : Nat) : State :=
  let d := (s.baseTime (s.paceBase b) : Int) - s.pace b n
  let lag := if d ≤ 0 then 0 else min 0xFFFF (d.toNat * 1000 / s.rd (Reg.LX_PACE_PERIOD b))
  let off := Reg.LX_PACE_LAG b
  let s := (s.setFld off 0 16 lag).setFld off 16 16 (max lag (s.fld off 16 16))
  if s.fld (Reg.LX_PACE_CFG b) 0 16 < lag ∧ ¬ s.flag Reg.LX_INT_STAT b then
    (s.record cInfo bLynx 0x0708 (b * 2 ^ 29 + lag)).raise 7 b
  else s

/-! ## Presentation (R261-R265) -/

/-- Address of the cycle-log entry of cycle `n`. -/
def State.lxCycAddr (s : State) (b n : Nat) : Nat :=
  s.fld (Reg.LX_IN_CYC_BASE b) 0 26 * 4096 + n % 2 ^ s.fld (Reg.LX_IN_CFG b) 8 5 * 8

/-- Whether channel `b` presents its head word at a live start of cycle `n`. -/
def State.lxPresents (s : State) (b n : Nat) : Bool :=
  let h := s.rd64 (Reg.LX_IN_HEAD_POS_LO b)
  decide (h < s.rd64 (Reg.LX_IN_WRITE_POS_LO b)) &&
    (s.fld (Reg.LX_IN_CFG b) 24 2 ≠ 1 ||
      match s.lxEntry b h with
      | some e => decide (((if s.paceBase b = 0 then e.tb0 else e.tb1 : Nat) : Int) ≤ s.pace b n)
      | none => false)

/-- One channel's sample at the start of cycle `n`: live by its MODE, in a replay by the latch log, in REPLAYING by
its cycle log. -/
def State.lxSample (s : State) (b n : Nat) : State :=
  if !s.flag (Reg.LX_IN_CFG b) 31 then s
  else
    let note (s : State) (p : Bool) : State := s.modLx fun l => { l with
      present := if p then b :: l.present else l.present
      headAt := l.headAt.set (fun _ => 0) b (s.rd64 (Reg.LX_IN_HEAD_POS_LO b)) }
    if s.rc.state = .replaying then
      let a := s.lxCycAddr b n
      match s.ddrRead .lynx a 8 with
      | (true, _, s) => s.lxSpillError b 1 a
      | (false, v, s) =>
        note (s.wr64 (Reg.LX_IN_HEAD_POS_LO b) (widenNear 48 (bits v 0 48) (s.rd64 (Reg.LX_IN_HEAD_POS_LO b)))) (v.testBit 63)
    else
      match s.rc.latch.find? (fun e => e.ecn = n ∧ e.src = 16 + b) with
      | some e => note s e.seq.isSome
      | none => note s (s.lxPresents b n)

/-- The ingress channels at the start of the cycle (R16 order 2, R261, R265, R269). -/
def State.lynxCycleStart (s : State) : State :=
  let n := s.rc.ecn
  let paced := s.rc.state = .running ∧ s.rc.executed ≤ n
  let s := s.modLx fun l => { l with present := [] }
  let s := (List.range 8).foldl (fun s b => s.lxSample b n) s
  if paced then s.pacedBridges.foldl (fun s b => s.noteLag b n) s else s

/-- The word that channel `b` has for a window: at cycle start (`waitp` false) only if it presents it. -/
def State.lxHead (s : State) (b : Nat) (waitp : Bool) : Option (Nat × W64) × State :=
  let h := s.rd64 (Reg.LX_IN_HEAD_POS_LO b)
  if s.flag (Reg.LX_IN_CFG b) 31 && decide (h < s.rd64 (Reg.LX_IN_WRITE_POS_LO b)) &&
      (waitp || s.lynx.present.contains b) then
    let (w, s) := s.lxWord b h
    (w.map fun w => (h, w), s)
  else (none, s)

/-- The channel is in DEMAND mode (R96, R262), whether or not it is enabled. -/
def State.lynxDemand (s : State) (b : Nat) : Bool := s.fld (Reg.LX_IN_CFG b) 24 2 = 2

/-- HEAD_POS of channel `b` (R266, R137). -/
def State.lynxHead (s : State) (b : Nat) : Nat := s.rd64 (Reg.LX_IN_HEAD_POS_LO b)

/-- The head word is consumed at a commit (R97). -/
def State.lynxPop (s : State) (b : Nat) : State :=
  s.wr64 (Reg.LX_IN_HEAD_POS_LO b) (s.rd64 (Reg.LX_IN_HEAD_POS_LO b) + 1)

/-- A consumed word returns to the head (R126). -/
def State.lynxUnpop (s : State) (b : Nat) : State :=
  s.wr64 (Reg.LX_IN_HEAD_POS_LO b) (s.rd64 (Reg.LX_IN_HEAD_POS_LO b) - 1)

/-- A consumed word is released at the seal of cycle `n`: the entry takes the cycle that consumed it (R257). -/
def State.lynxRelease (s : State) (b n : Nat) : State :=
  let p := s.rd64 (Reg.LX_IN_RELEASE_POS_LO b)
  let s := s.wr64 (Reg.LX_IN_RELEASE_POS_LO b) (p + 1)
  let s := match s.lxEntry b p with
    | some e => s.modLx fun l =>
      { l with entries := l.entries.set (fun _ => none) (b * 2 ^ 64 + p) (some { e with ecn := n % 2 ^ 32 }) }
    | none => s
  let s := if s.flag (Reg.LX_IN_CFG b) 28 then s.lxSpill b (s.lxSpillAddr b p + 12) 4 (n % 2 ^ 32) else s
  s.lxReady b

/-- The cycle-log entries of cycle `n`, written at its commit (R264). -/
def State.lynxCommit (s : State) (n : Nat) : State :=
  if s.rc.state ≠ .running then s
  else (List.range 8).foldl (fun s b =>
    if s.flag (Reg.LX_IN_CFG b) 31 then
      let a := s.lxCycAddr b n
      let v := (if s.lynx.present.contains b then 2 ^ 63 else 0) + n % 2 ^ 15 * 2 ^ 48 +
        s.lynx.headAt.get (fun _ => 0) b % 2 ^ 48
      match s.ddrWrite .lynx a 8 v with
      | (true, s) => s.lxSpillError b 1 a
      | (false, s) => s
    else s) s

/-- A rollback (R126, R274): waits end, nothing is presented until the next cycle start. -/
def State.lynxRollback (s : State) (_n : Nat) : State :=
  s.modLx fun l => { l with present := [] }

/-- A REWIND to S is refused for an ingress channel (R266); `f` gives the positions of the snapshot header. A cycle-log
read that gets an error response refuses too, with LX_SPILL_ERROR (R277). -/
def State.lynxRewindRefused (s : State) (e : Nat) (f : Nat → Nat) : Bool × State :=
  (List.range 8).foldl (fun (acc : Bool × State) b =>
    let s := acc.2
    if !s.flag (Reg.LX_IN_CFG b) 31 then acc
    else
      let a := s.lxCycAddr b e
      let old := decide (f b + s.lxCap b < s.rd64 (Reg.LX_IN_WRITE_POS_LO b)) ||
        decide (e + 2 ^ s.fld (Reg.LX_IN_CFG b) 8 5 ≤ s.latestBegun)
      match s.ddrRead .lynx a 8 with
      | (true, _, s) => (true, s.lxSpillError b 1 a)
      | (false, v, s) => (acc.1 || old || decide (bits v 48 15 ≠ e % 2 ^ 15), s)) (false, s)

/-- The restore of a REWIND: the positions of the snapshot header (R266). -/
def State.lynxRewind (s : State) (_e : Nat) (f : Nat → Nat) : State :=
  (List.range 8).foldl (fun s b =>
    if s.flag (Reg.LX_IN_CFG b) 31 then
      ((s.wr64 (Reg.LX_IN_HEAD_POS_LO b) (f b)).wr64 (Reg.LX_IN_RELEASE_POS_LO b) (f b)).lxReady b
    else s) s

/-! ## Egress (R270-R274) -/

/-- Frames of channel `b` that wait for launch. -/
def State.egWaiting (s : State) (b : Nat) : List LxFrame := s.lynx.waiting.get (fun _ => []) b

/-- The frame in progress. -/
def State.egCurrent (s : State) (b : Nat) : Option LxFrame := s.lynx.current.get (fun _ => none) b

/-- Data words now held. -/
def State.egLevel (s : State) (b : Nat) : Nat :=
  ((s.egWaiting b).map (fun f => f.words.length)).sum + match s.egCurrent b with | some f => f.words.length | none => 0

/-- Words the egress buffer holds. -/
def State.egCap (s : State) (b : Nat) : Nat :=
  if s.flag (Reg.LX_EG_CFG b) 28 then 2 ^ s.fld (Reg.LX_EG_CFG b) 0 5 / 8 else 16384

/-- The egress channels under STALL that lack space for the cycles begun and not sealed (R273). -/
def State.egLacking (s : State) : List Nat :=
  (List.range 8).filter (fun b => s.flag (Reg.LX_EG_CFG b) 31 && !s.flag (Reg.LX_EG_CFG b) 30 &&
    decide (s.egCap b - s.egLevel b < s.fld (Reg.LX_EG_CFG b) 16 7 * s.rc.unsealed.length))

/-- LX_EG_DROP or LX_EG_EXCESS_WORDS. -/
def State.egDropRecord (s : State) (b cls code k : Nat) : State :=
  (s.record cls bLynx code (b * 2 ^ 29 + min k 0xFFFF)).raise 7 (16 + b)

/-- DDR address of the egress word that came `k`-th into the spill ring (R273). -/
def State.egSpillAddr (s : State) (b k : Nat) : Nat :=
  s.fld (Reg.LX_EG_SPILL_BASE b) 0 26 * 4096 + k * 8 % 2 ^ s.fld (Reg.LX_EG_CFG b) 0 5

/-- A frame enters the buffer, and the spill ring where there is one. -/
def State.egStore (s : State) (b : Nat) (f : LxFrame) : State :=
  let k := s.lynx.egPos.get (fun _ => 0) b
  let s1 := if s.flag (Reg.LX_EG_CFG b) 28 then
      ((List.range f.words.length).zip f.words).foldl (fun s w =>
        let a := s.egSpillAddr b (k + w.1)
        match s.ddrWrite .lynx a 8 w.2.toNat with
        | (true, s) => s.lxSpillError b 2 a
        | (false, s) => s) s
    else s
  s1.modLx fun l => { l with
    egPos := l.egPos.set (fun _ => 0) b (k + f.words.length)
    waiting := l.waiting.set (fun _ => []) b (l.waiting.get (fun _ => []) b ++ [{ f with pos := k }]) }

/-- The next word of a frame, read from the spill ring where the channel has one (R273). -/
def State.egWord (s : State) (b pos : Nat) (w : W64) : Option W64 × State :=
  if s.flag (Reg.LX_EG_CFG b) 28 then
    let a := s.egSpillAddr b pos
    match s.ddrRead .lynx a 8 with
    | (true, _, s) => (none, s.lxSpillError b 2 a)
    | (false, v, s) => (some (BitVec.ofNat 64 v), s)
  else (some w, s)

/-- The earliest launch time of a frame of cycle `n` released now, and the base it is on (R271); mode 3 asks at the
launch whether TB1 is locked. -/
def State.egDue (s : State) (b n mode time : Nat) : Int × Nat :=
  match mode with
  | 0 => ((s.tb0 : Int), 0)
  | 1 => (s.pace b n + s.rd (Reg.LX_EG_DELAY b), s.paceBase b)
  | 2 => ((time : Int), 0)
  | _ => ((time : Int), 1)

/-- The words pushed to egress channel `b` in cycle `n` are released (R270, R273). -/
def State.egRelease (s : State) (b n : Nat) (pushed : List W64) : State :=
  if pushed.isEmpty ∨ ¬ s.flag (Reg.LX_EG_CFG b) 31 then s
  else
    let cfg := Reg.LX_EG_CFG b
    let hdr := s.flag cfg 29
    let desc := (pushed.headD 0).toNat
    let data := if hdr then pushed.drop 1 else pushed
    let mode := if hdr then bits desc 62 2 else s.fld cfg 24 2
    let time := widenNear 62 (bits desc 0 62) (s.baseTime (if mode = 3 then 1 else 0))
    let room := s.egCap b - s.egLevel b
    let due := s.egDue b n mode time
    let mk (l : List W64) : LxFrame :=
      { ecn := n, mode := mode, due := due.1, base := due.2, pos := 0, words := l, rel0 := s.tb0, rel1 := s.time.tb1 }
    if data.isEmpty then s
    else if !s.flag cfg 30 then
      let k := s.fld cfg 16 7
      let surplus := data.length - k
      let s := if surplus = 0 then s
        else (s.count (Reg.LX_EG_EXCESS b) 0 32 surplus).egDropRecord b cConfig 0x0704 surplus
      s.egStore b (mk (data.take k))
    else if room < data.length then
      let first := !s.flag Reg.LX_INT_STAT (16 + b)
      let s := s.count (Reg.LX_EG_DROPPED b) 0 32 data.length
      if first then s.egDropRecord b cInfo 0x0703 data.length else s
    else s.egStore b (mk data)

/-- The Lynx egress words of a cycle pass to their launch queues at its seal; in REPLAYING they are discarded. -/
def State.releaseLynx (s : State) (rec : CycleRec) : State :=
  if s.rc.state = .replaying then s
  else (List.range 8).foldl (fun s b =>
    s.egRelease b rec.ecn ((rec.out.filter (fun o => o.channel = 16 + b)).map (·.word))) s

/-- The base on which a frame launches: that of its time; a frame bound to TB1 launches on TB0 while TB1 is not locked
(R271). -/
def State.egBase (s : State) (f : LxFrame) : Nat := if f.mode = 3 ∧ ¬ s.time.tb1Locked then 0 else f.base

/-- LAUNCH (R271, R272). -/
def execLaunch (b : Nat) (s : State) : Host.Outcome State Fault Refusal :=
  match s.egCurrent b, s.egWaiting b with
  | none, f :: rest =>
    let t := f.due
    let base := s.egBase f
    if (s.baseTime base : Int) < t ∨ s.rc.state = .fatal ∨ ¬ s.lxOpen b then ok s
    else
      let could : Nat := if base = 0 then max f.rel0 (s.lynx.last0.get (fun _ => 0) b)
        else max f.rel1 (s.lynx.last1.get (fun _ => 0) b)
      let s := s.modLx fun l => { l with
        waiting := l.waiting.set (fun _ => []) b rest
        current := l.current.set (fun _ => none) b (some f) }
      let s := s.wr64 (Reg.LX_EG_LAST_LAUNCH_LO b) s.tb0
      if t < could then
        let s := s.count (Reg.LX_EG_LATE b) 0 32 1
        if s.flag Reg.LX_INT_STAT (24 + b) then ok s
        else ok ((s.record cInfo bLynx 0x0705
          (b * 2 ^ 29 + min ((((s.baseTime base : Int) - t).toNat) / 1000) (2 ^ 28 - 1))).raise 7 (24 + b))
      else ok s
  | _, _ => ok s

/-- EGRESS_WORD (R271): Shale takes the next word of the frame in progress. -/
def execEgressWord (b : Nat) (err : Option Bool) (s : State) : Host.Outcome State Fault Refusal :=
  match s.egCurrent b with
  | none => ok s
  | some f =>
    if ¬ s.lxOpen b then ok s
    else match f.words with
    | [] => ok (s.modLx fun l => { l with current := l.current.set (fun _ => none) b none })
    | w :: rest =>
      let (got, s) := s.egWord b f.pos w
      let s := match got with
        | some w => s.emit [.lynxWord b w (rest.isEmpty && !f.cut)]
        | none => s
      let s := s.modLx fun l => { l with
        current := l.current.set (fun _ => none) b
          (if rest.isEmpty then none else some { f with words := rest, pos := f.pos + 1 })
        last0 := if rest.isEmpty then l.last0.set (fun _ => 0) b s.tb0 else l.last0
        last1 := if rest.isEmpty then l.last1.set (fun _ => 0) b s.time.tb1 else l.last1 }
      ok (s.lxBufError b 1 f.pos err)

/-! ## Registers (R276) -/

/-- EN = 0 (R274): waiting frames are discarded, the frame in progress ends after its current word without LAST. -/
def State.egDisable (s : State) (b : Nat) : State :=
  s.modLx fun l => { l with
    waiting := l.waiting.set (fun _ => []) b []
    current := match l.current.get (fun _ => none) b with
      | some f => l.current.set (fun _ => none) b (some { f with words := f.words.take 1, cut := true })
      | none => l.current }

/-- EN 0 to 1 of an ingress channel zeroes its positions (R257). -/
def State.lxZero (s : State) (b : Nat) : State :=
  ((((s.wr64 (Reg.LX_IN_WRITE_POS_LO b) 0).wr64 (Reg.LX_IN_HEAD_POS_LO b) 0).wr64 (Reg.LX_IN_RELEASE_POS_LO b) 0).wr64
    (Reg.LX_IN_KEEP_POS_LO b) 0).modLx fun l => { l with
      entries := l.entries.without (b * 2 ^ 64) ((b + 1) * 2 ^ 64)
      keep := l.keep.set (fun _ => 0) b 0
      bpSince := l.bpSince.set (fun _ => none) b none }

/-- A field of a Lynx register may not be written in the present state (R276). -/
def State.lxFixed (s : State) (b rel : Nat) (f : FieldSpec) : Bool :=
  let pre := s.preRun
  let alsoPaused := pre || s.rc.state = .paused
  if 8 ≤ b then false
  else if rel = 0x004 ∨ rel = 0x008 ∨ rel = 0x204 then !pre
  else if rel = 0x000 then
    if f.lsb = 28 ∨ f.lsb = 0 ∨ f.lsb = 8 ∨ f.lsb = 31 then !pre else !alsoPaused
  else if rel = 0x200 then
    if f.lsb = 28 ∨ f.lsb = 0 ∨ f.lsb = 31 then !pre else !alsoPaused
  else if 0x100 ≤ rel ∧ rel ≤ 0x114 then !alsoPaused
  else false

/-- A write of a LYNX register. -/
def State.writeLynx (s : State) (init : Initiator) (off v : Nat) : State :=
  let b := (off - 0x70_0000) / 0x400
  let rel := (off - 0x70_0000) % 0x400
  let inEn := s.flag (Reg.LX_IN_CFG b) 31
  let egEn := s.flag (Reg.LX_EG_CFG b) 31
  let s0 := s
  let (done, s) := s.csrWrite init off v (s.lxFixed b rel) false 0x0706
  let s := State.irqEdges s0 s [7]
  if !done ∨ 8 ≤ b then s
  else if rel = 0 then
    (if !inEn && s.flag (Reg.LX_IN_CFG b) 31 then s.lxZero b else s).lxReady b
  else if rel = 0x200 then
    if egEn && !s.flag (Reg.LX_EG_CFG b) 31 then s.egDisable b else s
  else if rel = 0x2C then
    (s.modLx fun l => { l with keep := l.keep.set (fun _ => 0) b (s.rd64 (Reg.LX_IN_KEEP_POS_LO b)) }).lxReady b
  else s

end Sys2Proof.Machine
end

