-- ==== Sys2Proof/Machine/Ring.lean ====
section
/-!
DEFINITION. The on-chip rings and the scratchpad banks (chapter 15).
-/

namespace Sys2Proof.Machine

/-! ## Scratchpad banks (R389-R392) -/

/-- The owner code an initiator's accesses count under (R390); the debug path acts for a core. -/
def State.ownerCode (s : State) : Initiator → Nat
  | .core k => k % 8
  | .debug => s.dbg.core
  | .hostMmio | .hostDma => 8
  | .acq => 9
  | _ => 0xF

/-- Change the scratchpads. -/
def State.modSpad (s : State) (f : Spad → Spad) : State := { s with spad := f s.spad }

/-- The detail layout of SPAD records (R395). -/
def State.spadDetail (s : State) (who : Initiator) (bank off : Nat) : Nat :=
  s.ownerCode who * 2 ^ 28 + bank * 2 ^ 24 + off % 2 ^ 18

/-- How a bank takes an access (R390, R391). -/
inductive SpadGate where
  | reaches | busy | notOwner
  deriving DecidableEq, Repr

/-- Judge an access to bank `k`. -/
def State.spadGate (s : State) (who : Initiator) (k : Nat) : SpadGate :=
  if s.flag (Reg.SPAD_OWNER k) 31 then .busy
  else if s.ownerCode who = s.fld (Reg.SPAD_OWNER k) 0 4 ∧ s.ownerCode who ≠ 0xF then .reaches
  else .notOwner

/-- The record of an access that does not reach the bank. -/
def State.spadRefuse (s : State) (who : Initiator) (k off : Nat) : SpadGate → State
  | .busy => s.record cRejected bSpad 0x0C03 (s.spadDetail who k off)
  | .notOwner => s.record cRejected bSpad 0x0C02 (s.spadDetail who k off)
  | .reaches => s

/-- A single-bit error corrected on a read (R392). -/
def State.spadCorrected (s : State) (who : Initiator) (k off : Nat) : State :=
  ((s.record cCorrected bSpad 0x0C05 (s.spadDetail who k off)).count Reg.SPAD_ECC 16 16 1).raise 14 0

/-- A double-bit error met by an access (R392). -/
def State.spadUncorrectable (s : State) (who : Initiator) (k off : Nat) : State :=
  ((s.record cConfig bSpad 0x0C06 (s.spadDetail who k off)).count Reg.SPAD_ECC 0 16 1).raise 14 1

/-- The 64-bit words that `[key, key + n)` touches. -/
def bankWords (key n : Nat) : List Nat := if n = 0 then [] else List.range' (key / 8) ((key + n - 1) / 8 + 1 - key / 8)

/-- The check of word `w` as an access of `who` reads it (R392): a single-bit error is corrected in the bank, a double-bit error
stays; `true`: an error response. -/
def State.spadCheck (s : State) (who : Initiator) (w : Nat) : Bool × State :=
  let k := w / 2 ^ 15; let off := w * 8 % 2 ^ 18
  if s.spad.bad.contains w then (true, s.spadUncorrectable who k off)
  else if s.spad.soft.contains w then
    (false, (s.modSpad fun x => { x with soft := x.soft.filter (· ≠ w) }).spadCorrected who k off)
  else (false, s)

/-- Soft errors strike 64-bit words of the banks, single-bit or (`true`) double-bit; a second single-bit error in a word makes a
double-bit one. The next access that checks the word finds it, whoever makes it (R392, log 71). -/
def State.spadStrike (s : State) (l : List (Nat × Bool)) : State :=
  l.foldl (fun (s : State) e => s.modSpad fun x =>
    if e.2 || x.soft.contains e.1 || x.bad.contains e.1 then
      { x with bad := e.1 :: x.bad.filter (· ≠ e.1), soft := x.soft.filter (· ≠ e.1) }
    else { x with soft := e.1 :: x.soft }) s

/-- The checks of every word of a read; `true`: an error response. -/
def State.spadCheckAll (s : State) (who : Initiator) (l : List Nat) : Bool × State :=
  l.foldl (fun x w => let r := x.2.spadCheck who w; (x.1 || r.1, r.2)) (false, s)

/-- Read `n` bytes of bank `k`: zero where the access does not reach it; `true`: an error response. -/
def State.spadRead (s : State) (who : Initiator) (k off n : Nat) : Bool × Map Byte × State :=
  match s.spadGate who k with
  | .reaches =>
    let key := k * 2 ^ 18 + off
    match (s.touch (82 + k)).spadCheckAll who (bankWords key n) with
    | (true, s) => (true, [], s)
    | (false, s) => (false, (s.spad.mem.range key (key + n)).map (fun e => (e.1 - key, e.2)), s)
  | g => (false, [], s.spadRefuse who k off g)

/-- Write the bytes `l` (keys in all banks) of word `w`: a write that covers the word reads nothing first and ends its errors; a
narrower one checks it, and changes nothing where that finds a double-bit error (R392). -/
def State.spadWriteWord (s : State) (who : Initiator) (w : Nat) (l : List (Nat × Byte)) : Bool × State :=
  let put (s : State) : State := s.modSpad fun x => { x with mem := x.mem.setAll (fun _ => 0) l }
  if (List.range 8).all (fun j => l.any (fun e => e.1 = w * 8 + j)) then
    (false, (put s).modSpad fun x => { x with bad := x.bad.filter (· ≠ w), soft := x.soft.filter (· ≠ w) })
  else match s.spadCheck who w with
    | (true, s) => (true, s)
    | (false, s) => (false, put s)

/-- Write bytes (a list of offsets from `off`) of bank `k`, word by word; `true`: an error response. -/
def State.spadWrite (s : State) (who : Initiator) (k off : Nat) (l : List (Nat × Byte)) : Bool × State :=
  match s.spadGate who k with
  | .reaches =>
    let l := l.map fun e => (k * 2 ^ 18 + off + e.1, e.2)
    ((l.map fun e => e.1 / 8).dedup).foldl (fun x w =>
      let r := x.2.spadWriteWord who w (l.filter fun e => e.1 / 8 = w)
      (x.1 || r.1, r.2)) (false, s.touch (82 + k))
  | g => (false, s.spadRefuse who k off g)

/-- SPAD_ACCESS (R389, R390): a plain read or write of `n` bytes. `struck`: the soft errors that have struck the banks since the
row before. -/
def execSpadAccess (who : Initiator) (bank off n : Nat) (data : Option (List Byte)) (struck : List (Nat × Bool)) (s : State) :
    Host.Outcome State Fault Refusal :=
  let k := bank % 16
  let s := s.spadStrike struck
  if s.hostDeaf who then ok (s.answer 0)
  else if s.isolated (32 + k) then ok s.busError
  else match data with
    | none =>
      let (bad, m, s) := s.spadRead who k off n
      ok { s with bus := { data := m.foldl (fun v e => v + e.2.toNat * 256 ^ e.1) 0, err := bad } }
    | some l =>
      let (bad, s) := s.spadWrite who k off ((List.range (min n l.length)).zip l)
      ok { s with bus := { data := 0, err := bad } }

/-- One read-modify-write of a bank (R389): `set` ORs the bytes in, otherwise their bits are cleared; `true`: an error
response. -/
def State.aliasWord (s : State) (set : Bool) (who : Initiator) (k off : Nat) (l : List Byte) : Bool × State :=
  let key := k * 2 ^ 18 + off
  match s.spadCheckAll who (bankWords key l.length) with
  | (true, s) => (true, s)
  | (false, s) =>
    let new := ((List.range l.length).zip l).map (fun e =>
      let c := s.spad.mem.get (fun _ => 0) (key + e.1)
      (key + e.1, if set then c ||| e.2 else c &&& ~~~e.2))
    (false, s.modSpad fun x => { x with mem := x.mem.setAll (fun _ => 0) new })

/-- A write to an alias window is 32 or 64 bits wide and naturally aligned, or a burst of a DMA channel (R389). -/
def aliasLegal (who : Initiator) (off n : Nat) : Bool :=
  (decide (n = 4) && decide (off % 4 = 0)) || (decide (n = 8) && decide (off % 8 = 0)) ||
    (decide (who = .hostDma) && decide (n ≠ 0) && decide (off % 4 = 0) && decide (n % 4 = 0))

/-- A write to an alias window of bank `k` (R389): a burst word by word, in ascending order; `true`: an error response. -/
def State.aliasPut (s : State) (set : Bool) (who : Initiator) (k off : Nat) (l : List Byte) : Bool × State :=
  match s.spadGate who k with
  | .reaches =>
    if aliasLegal who off l.length then
      (cutAt 8 (l.length / 4 + 2) off l.length).foldl (fun x p =>
        let r := x.2.aliasWord set who k p.1 ((l.drop (p.1 - off)).take p.2)
        (x.1 || r.1, r.2)) (false, s.touch (82 + k))
    else (false, s.record cRejected bSpad 0x0C04 (s.spadDetail who k off))
  | g => (false, s.spadRefuse who k off g)

/-- An alias write of `n` bytes of the value `v` (R389). -/
def State.aliasWrite (s : State) (set : Bool) (who : Initiator) (k off n v : Nat) : State :=
  if s.isolated (32 + k) then s.busError
  else
    let r := s.aliasPut set who k off (bytesOfNat v n)
    { r.2 with bus := { data := 0, err := r.1 } }

/-- SET_ALIAS_WRITE (R389). Host MMIO has no address in an alias window, so it makes no such write. -/
def execSetAliasWrite (who : Initiator) (bank off n v : Nat) (struck : List (Nat × Bool)) (s : State) :
    Host.Outcome State Fault Refusal :=
  let s := s.spadStrike struck
  ok (if who = .hostMmio then s else s.aliasWrite true who (bank % 16) off n v)

/-- CLEAR_ALIAS_WRITE (R389), likewise. -/
def execClearAliasWrite (who : Initiator) (bank off n v : Nat) (struck : List (Nat × Bool)) (s : State) :
    Host.Outcome State Fault Refusal :=
  let s := s.spadStrike struck
  ok (if who = .hostMmio then s else s.aliasWrite false who (bank % 16) off n v)

/-- Set a bank to 0. -/
def State.spadClear (s : State) (k : Nat) : State :=
  s.modSpad fun x => { x with
    mem := x.mem.without (k * 2 ^ 18) ((k + 1) * 2 ^ 18)
    bad := x.bad.filter (fun w => w / 2 ^ 15 ≠ k)
    soft := x.soft.filter (fun w => w / 2 ^ 15 ≠ k) }

/-- A write of a SPAD register (R391, R396). -/
def State.writeSpad (s : State) (init : Initiator) (off v : Nat) : State :=
  let k := (off - Reg.SPAD_OWNER 0) / 4
  if Reg.SPAD_OWNER 0 ≤ off ∧ k < 16 ∧ off % 4 = 0 then
    if isWarden init ∧ s.flag (Reg.SPAD_OWNER k) 31 ∧ s.anyCounts off v then
      s.record cRejected bSpad 0x0C03 (s.spadDetail init k 0)
    else
      let owner := s.fld (Reg.SPAD_OWNER k) 0 4
      let (done, s) := s.csrWrite init off v (fun _ => false) false 0x0C03
      if !done then s
      else if !isWarden init || s.flag (Reg.SPAD_OWNER k) 31 then s
      else
        let new := s.fld (Reg.SPAD_OWNER k) 0 4
        (((s.setFld off 0 4 owner).setFlag off 30 false).setFlag off 31 true).modSpad fun x => { x with
          handover := x.handover.set (fun _ => none) k (some (new, v.testBit 30)) }
  else (s.csrWrite init off v (fun _ => false) false 0x0C03).2

/-- HANDOVER_DONE (R391 orders 3 to 5). A bank in RETAIN or OFF is awake by now, cleared if it was OFF. -/
def execHandoverDone (k : Nat) (s : State) : Host.Outcome State Fault Refusal :=
  match s.spad.handover.get (fun _ => none) k with
  | some (owner, clear) =>
    let off := decide ((s.dom (82 + k)).level = 3)
    let s := s.leaveDom (82 + k)
    let s := if clear || off then s.spadClear k else s
    let s := s.modSpad fun x => { x with handover := x.handover.set (fun _ => none) k none }
    ok (((s.setFld (Reg.SPAD_OWNER k) 0 4 owner).setFlag (Reg.SPAD_OWNER k) 31 false).raise 14 (16 + k))
  | none => ok s

/-! ## Rings (R378-R388) -/

/-- The stop whose source interface injects the requests of an initiator (R378), of the engines by `unit`; none: the fabric
memory path, which is no part of the rings (R379). -/
def sourceStop (who : Initiator) (unit : Nat) : Option Nat :=
  match who with
  | .hostMmio | .hostDma => some 0
  | .core k => some (1 + k % 8)
  | .debug => some 9
  | .lynx => some 20
  | .acq => some 22
  | .spoor => some 24
  | .engine => match unit with | 0 => some 21 | 1 => some 19 | _ => some 10
  | .self => some 26
  | .fabric => none

/-- The power domain of an initiator at its stop (R378, R436); none: it is always on, or belongs to no domain. -/
def initDomain (who : Initiator) (unit : Nat) : Option Nat :=
  match who with
  | .hostMmio | .hostDma => some 109
  | .core k => some (74 + k % 8)
  | .lynx => some (98 + unit % 8)
  | .acq => some 107
  | .spoor => some 108
  | .engine => match unit with | 0 => some 106 | 1 => some 73 | _ => none
  | .debug | .self | .fabric => none

/-- The route that source interface `src` holds for target `t`: ring 1 rather than 0, and hops (R382). -/
def State.routeOf (s : State) (src t : Nat) : Bool × Nat :=
  let e := if t < 32 then Reg.RING_ROUTE src t else Reg.RING_ROUTE_SP src (t - 32)
  (s.flag e 7, s.fld e 0 5)

/-- The stop reached from `src` after `h` hops, on ring 1 (`down`) or 0 (R378, R382). -/
def hopTo (src : Nat) (down : Bool) (h : Nat) : Nat := if down then (src + 28 - h % 28) % 28 else (src + h) % 28

/-- The urgency of a packet (R384). -/
def State.urgency (s : State) (k : PktKey) : Nat :=
  if k.vc = 2 then 7 else min 7 (k.age / (10 * max 1 (s.fld Reg.RING_CFG 8 8)))

/-- The keys of the arbiter in order: urgency, virtual channel, traffic on the ring, age (R384). -/
def State.arbKeys (s : State) (k : PktKey) : List Nat := [s.urgency k, k.vc % 3, if k.onRing then 1 else 0, k.age]

/-- The keys `a` come before the keys `b`. -/
def keysBefore : List Nat → List Nat → Bool
  | a :: l, b :: m => decide (b < a) || (a == b && keysBefore l m)
  | _, _ => false

/-- The arbiter of a link chooses the packet: no rival comes before it (R384). -/
def State.winsLink (s : State) (p : Pkt) : Bool := p.rivals.all fun q => !keysBefore (s.arbKeys q) (s.arbKeys p.key)

/-- A request for target `t` is parked at its stop, unless it is for a bank without an owner, which refuses it (R388, R390). -/
def State.parksRequest (s : State) (t : Nat) : Bool :=
  s.parks t && !(decide (32 ≤ t) && s.fld (Reg.SPAD_OWNER (t - 32)) 0 4 == 15)

/-- Requests in the park buffer of a stop. -/
def State.parkedAt (s : State) (stop : Nat) : Nat := (s.ring.parked.filter fun r => stopOfTarget r.target = stop).length

/-- The source interface holds a credit for target `t`: its input queue, which holds 32 requests, has room (R381), and so has
the park buffer of a fenced stop (R388). -/
def State.hasCreditFor (s : State) (t : Nat) : Bool :=
  let coming := s.ring.flights.filter fun f => !f.2 && decide (f.1.target = t)
  decide ((s.ring.outst.filter fun r => r.target = t && !r.stale).length + coming.length < 32) &&
    (!s.parksRequest t || decide (s.parkedAt (stopOfTarget t) + coming.length < 16))

/-- The stop has stopped injection by the initiator: its domain is fenced there (R387 order 2). -/
def State.injectionStopped (s : State) (src : Nat) (dom : Option Nat) : Bool := dom.any (s.fencedFor src)

/-- The request is the one that a packet belongs to. -/
def pktNames (p : Pkt) (src : Nat) (q : RingReq) : Bool := q.src = src && q.target = p.target && q.tag = p.tag

/-- The flit check of a packet: a single-bit error is corrected, a double-bit one poisons the packet (R380). -/
def State.flitCheck (s : State) (p : Pkt) (src : Nat) : State :=
  match p.err with
  | none => s
  | some false => ((s.record cCorrected bRing 0x0C09 (p.ring % 2 * 32 + p.at_ % 28)).count Reg.RING_ECC_CNT 16 16 1).raise 13 1
  | some true =>
    let s := ((s.record cConfig bRing 0x0C0A (src * 256 + p.ring % 2 * 32 + p.at_ % 28)).count Reg.RING_ECC_CNT 0 16 1).raise 13 2
    s.ringEvent 3 (p.at_ % 28) p.target 0

/-- Injection at stop `stop` after `p.wait` units of 10 ns: what RING_STOP_STAT and Spoor show of it, and the flit check. -/
def State.injected (s : State) (p : Pkt) (stop : Nat) : State :=
  let off := Reg.RING_STOP_STAT stop
  let s := s.setFld off 0 8 (max (min p.wait 255) (s.fld off 0 8))
  let s := if s.fld Reg.SPOOR_RING_CFG 16 8 < p.wait then s.ringEvent 7 stop p.target p.wait else s
  s.flitCheck p stop

/-- A request of stop `src` is injected with the route it keeps; poisoned, it reaches no target, and its initiator gets an error
response (R380-R382). -/
def State.injectRequest (s : State) (p : Pkt) (src : Nat) : State :=
  let dom := initDomain p.who p.unit
  if ¬ s.hasCreditFor p.target ∨ s.injectionStopped src dom then s
  else
    let route := s.routeOf src p.target
    let s := s.injected p src
    if p.err = some true then s.busError
    else s.modRing fun r => { r with flights := r.flights ++
      [({ src := src, target := p.target, tag := p.tag, dom := dom, down := route.1, hops := route.2, since := s.now }, false)] }

/-- The target answers a request of stop `src`: the response goes back on the other ring over 28 minus the request's hops (R382).
One that was answered with an error at an isolation has its response discarded (R385, R386). -/
def State.injectResponse (s : State) (p : Pkt) (src : Nat) : State :=
  match s.ring.outst.find? (pktNames p src) with
  | none => s
  | some q =>
    let s := s.modRing fun r => { r with outst := r.outst.erase q }
    if q.stale then s
    else
      let s := s.injected p (stopOfTarget p.target)
      if p.err = some true then s.busError
      else s.modRing fun r => { r with flights := r.flights ++ [({ q with down := !q.down, hops := 28 - q.hops }, true)] }

/-- A request arrives where its route takes it (R383, R385, R388). A full park buffer holds it on the ring. -/
def State.arrive (s : State) (q : RingReq) : State :=
  let stop := hopTo q.src q.down q.hops
  let gone (s : State) : State := s.modRing fun r => { r with flights := r.flights.erase (q, false) }
  let q' := { q with since := s.now }
  if stop ≠ stopOfTarget q.target then
    let s := ((gone s).record cConfig bRing 0x0C0B (q.src * 256 + q.target % 64)).raise 13 3
    (s.ringEvent 4 stop q.target 0).busError
  else if s.isolated q.target then (gone s).busError
  else if s.parksRequest q.target then
    if s.parkedAt stop < 16 then ((gone s).modRing fun r => { r with parked := r.parked ++ [q'] }).showStop stop else s
  else (gone s).modRing fun r => { r with outst := r.outst ++ [q'] }

/-- PACKET (R380-R388): a packet at a link, with the flit check result `err` (none, single-bit, double-bit) of `ring` and stop
`at_`. One that does not win its link waits. A packet not yet on the ring is injected there, after a wait of `wait` units of
10 ns; one on the ring goes the rest of its way. Urgent control carries nothing that another row does not name. -/
def execPacket (p : Pkt) (s : State) : Host.Outcome State Fault Refusal :=
  if s.hostDeaf p.who then ok (s.answer 0)
  else if ¬ s.winsLink p then ok s
  else if p.key.vc = 2 then ok (if p.key.onRing then s.flitCheck p (p.unit % 28) else s.injected p (p.unit % 28))
  else match sourceStop p.who p.unit with
    | none => ok s
    | some src =>
      if !p.key.onRing then ok (if p.key.vc = 0 then s.injectRequest p src else s.injectResponse p src)
      else match s.ring.flights.find? (fun f => f.2 = decide (p.key.vc = 1) && pktNames p src f.1) with
        | none => ok s
        | some (q, back) =>
          let s := s.flitCheck p (if back then stopOfTarget q.target else src)
          let gone (s : State) : State := s.modRing fun r => { r with flights := r.flights.erase (q, back) }
          if p.err = some true then ok (gone s).busError
          else if back then ok (gone s)
          else ok (s.arrive q)

/-- A request larger than 64 bytes goes as packets of ascending address (R380): where each begins, and its bytes. -/
def packetsOf (addr n : Nat) : List (Nat × Nat) := cutAt 64 (n / 64 + 2) addr n

/-- RING_TARGET_ISOLATED (R385): a request delivered to the target has had no response for TIMEOUT_US. -/
def execRingTargetIsolated (t : Nat) (s : State) : Host.Outcome State Fault Refusal :=
  match s.ring.outst.find? (fun r => r.target = t && !r.stale && decide (s.fld Reg.RING_CFG 0 8 * 1000 ≤ s.now - r.since)) with
  | none => ok s
  | some r =>
    let s := if t < 32 then s.setFlag Reg.RING_ISO_LO t true else s.setFlag Reg.RING_ISO_HI (t - 32) true
    let s := s.modRing fun x => { x with outst := x.outst.map (fun q => if q.target = t then { q with stale := true } else q) }
    let s := (s.record cConfig bRing 0x0C07 (r.src * 256 + t)).raise 13 0
    ok (s.ringEvent 1 (stopOfTarget t) t 0).busError

/-- The targets restored by a write of RING_ISO (R386). -/
def State.restoreTargets (s : State) (l : List Nat) : State :=
  l.foldl (fun s t => (s.record cInfo bRing 0x0C08 t).ringEvent 2 (stopOfTarget t) t 0) s

/-- A write of a RING register (R396). -/
def State.writeRing (s : State) (init : Initiator) (off v : Nat) : State :=
  if off = Reg.RING_ISO_LO ∨ off = Reg.RING_ISO_HI then
    if !isWarden init && s.anyCounts off v then s.notWarden init off
    else
      let b := if off = Reg.RING_ISO_LO then 0 else 32
      let hit := ((List.range 32).filter (fun i => v.testBit i && s.flag off i)).map (· + b)
      (s.csrWrite init off v (fun _ => false) false 0x0C01).2.restoreTargets hit
  else (s.csrWrite init off v (fun _ => false) false 0x0C01).2

/-- FENCE_REQ (R387 orders 1 and 2): the power controller asks stop `stop` to fence domain `d`. -/
def execFenceReq (stop d : Nat) (s : State) : Host.Outcome State Fault Refusal :=
  if (domStops d).contains stop ∧ (s.dom d).goal.isSome ∧ ¬ s.fencedFor stop d then
    ok (s.modRing fun r => { r with fencing := r.fencing ++ [(stop, d)] })
  else ok s

/-- The stop has drained for domain `d` (R387 order 3): every request of its initiators has its response, every request
delivered to its targets is answered. -/
def State.stopDrained (s : State) (stop d : Nat) : Bool :=
  let own (r : RingReq) : Bool := decide (r.src = stop) && decide (r.dom = some d)
  s.ring.flights.all (fun f => !own f.1) &&
    s.ring.outst.all (fun r => r.stale || (!own r && !(domTargets d).contains r.target))

/-! ## Internal space (R23): DDR or a scratchpad bank -/

/-- The three windows of the scratchpads (R23, R389). -/
inductive SpadWindow where
  | plain | set | clear
  deriving DecidableEq, Repr

/-- The scratchpad window that holds `[addr, addr + n)`. -/
def spadWindow (addr n : Nat) : Option SpadWindow :=
  let inside (lo : Nat) : Bool := decide (lo ≤ addr) && decide (addr + n ≤ lo + 2 ^ 22)
  if inside 0x40_1000_0000 then some .plain
  else if inside 0x40_2000_0000 then some .set
  else if inside 0x40_3000_0000 then some .clear
  else none

/-- Read `n` bytes of the internal space as an engine, the message ports or a core's cache does; `true`: an error response.
Reserved space reads zero (R24); so do the register and port windows, which engines do not reach (R23 does not say how such an
access ends: DESIGN CHOICE, log 107). -/
def State.memRead (s : State) (who : Initiator) (addr n : Nat) : Bool × Map Byte × State :=
  if addr < 2 ^ 38 then
    match s.ddrMap who addr n with
    | (some m, s) => (false, m, s)
    | (none, s) => (true, [], s)
  else if (spadWindow addr n).isSome then
    if s.isolated (32 + addr % 2 ^ 22 / 2 ^ 18) then (true, [], s) else s.spadRead who (addr % 2 ^ 22 / 2 ^ 18) (addr % 2 ^ 18) n
  else if 0x40_4000_0000 ≤ addr ∧ addr + n ≤ 0x40_4004_0000 then
    if s.isolated 27 then (true, [], s)
    else (false, mapOfBytes ((List.range n).map fun i => Config.bootRom (addr - 0x40_4000_0000 + i)), s)
  else (false, [], s.record cRejected bRing 0x0C01 addr)

/-- Write bytes of the internal space, likewise; a write to reserved space is ignored. -/
def State.memWrite (s : State) (who : Initiator) (addr : Nat) (l : List Byte) : Bool × State :=
  if addr < 2 ^ 38 then
    match s.ddrFill who addr l.length (mapOfBytes l) with
    | (none, s) => (false, s)
    | (some _, s) => (true, s)
  else
    let k := addr % 2 ^ 22 / 2 ^ 18; let o := addr % 2 ^ 18
    if (spadWindow addr l.length).isSome ∧ s.isolated (32 + k) then (true, s)
    else match spadWindow addr l.length with
    | some .plain => s.spadWrite who k o ((List.range l.length).zip l)
    | some .set => s.aliasPut true who k o l
    | some .clear => s.aliasPut false who k o l
    | none => (false, s.record cRejected bRing 0x0C01 addr)

end Sys2Proof.Machine
end

