-- ==== Sys2Proof/Machine/Acq.lean ====
section
/-!
DEFINITION. The acquisition engine but for its DSP (chapter 12): the evaluation of a cycle, captures, measurement
channels, result blocks, pulses.
-/

namespace Sys2Proof.Machine

/-- Change acquisition. -/
def State.modAcq (s : State) (f : Acq → Acq) : State := { s with acq := f s.acq }

/-- Change the acquisition state of the present cycle. -/
def State.modRun (s : State) (f : AcqRun → AcqRun) : State := s.modAcq fun a => { a with run := f a.run }

/-- Change the acquisition state of the present cycle and that kept for every unsealed one: what a seal or a write
does to it, which no rollback undoes. -/
def State.modRuns (s : State) (f : AcqRun → AcqRun) : State :=
  (s.modRun f).modRc fun r => { r with unsealed := r.unsealed.map (fun x => { x with acq := f x.acq }) }

/-- The capture state (R318). -/
def State.cap (s : State) : Nat := s.acq.run.cap

/-! ## Evaluation (R309-R316, R320) -/

/-- Probe word `w` (R93). -/
def State.probeWord (s : State) (w : Nat) : Nat :=
  s.probes.foldl (fun n e => match e.2 with
    | some d => if e.1 / 64 = w ∧ d.val then n + 2 ^ (e.1 % 64) else n
    | none => n) 0

/-- The fabric trigger bits. -/
def State.fabTrigBits (s : State) : Nat :=
  s.fabTrig.foldl (fun n e => match e.2 with
    | some d => if d.val then n + 2 ^ e.1 else n
    | none => n) 0

/-- A field read in two's complement or as unsigned. -/
def fieldInt (signed : Bool) (w x : Nat) : Int :=
  let y := x % 2 ^ w
  if signed ∧ y.testBit (w - 1) then (y : Int) - 2 ^ w else y

/-- The field x of comparator `c` (R313). -/
def State.cmpX (s : State) (c : Nat) : Nat :=
  let r := Reg.CMP_CFG c
  (s.probeWord (s.fld r 26 6) >>> s.fld r 20 6) % 2 ^ s.fld r 13 7

/-- The result of comparator `c` on x, with the previous x (R313). -/
def State.cmpResult (s : State) (c x prev : Nat) : Bool :=
  let r := Reg.CMP_CFG c
  let value := s.rd64 (Reg.CMP_VALUE_LO c)
  let mask := s.rd64 (Reg.CMP_MASK_LO c)
  let w := s.fld r 13 7
  let i (v : Nat) : Int := fieldInt (s.flag r 12) w v
  match s.fld r 0 3 with
  | 0 => decide (x &&& mask = value &&& mask)
  | 1 => decide (x &&& mask ≠ value &&& mask)
  | 2 => decide (i value ≤ i x)
  | 3 => decide (i x < i value)
  | 4 => decide ((x ^^^ prev) &&& mask ≠ 0)
  | _ => decide (x &&& mask &&& (prev ^^^ (2 ^ 64 - 1)) ≠ 0)

/-- The condition of a branch or of the qualifier on E (R315, R320). -/
def condition (mode e m : Nat) : Bool :=
  match mode with
  | 1 => decide (e &&& m ≠ 0)
  | 2 => decide (e &&& m = m)
  | 3 => decide (e &&& m = 0)
  | _ => false

/-- One step of counter `k` (R314): its value after the evaluation under state `st`. -/
def State.countUp (s : State) (r : AcqRun) (k e : Nat) : Nat :=
  let c := Reg.CNT_CFG k
  let ev := s.fld c 0 6
  let v := r.cnt.get (fun _ => 0) k
  let hit := s.flag c (16 + r.seq) && (match s.fld c 14 2 with
    | 1 => true
    | 2 => e.testBit ev
    | 3 => e.testBit ev && !r.prevE.testBit ev
    | _ => false)
  if hit then min (2 ^ 48 - 1) (v + 1) else v

/-- What an evaluation of the sequencer produces. -/
structure SeqStep where
  cnt : Map Nat
  seq : Nat
  e : Nat
  ctrl : Nat         -- BR_CTRL of the branch taken, 0 if none

/-- The sequencer's evaluation (R315), from E[55:0]. -/
def State.sequence (s : State) (r : AcqRun) (e : Nat) : SeqStep :=
  let vals := (List.range 8).map (fun k => (k, s.countUp r k e))
  let cnt : Map Nat := vals.filter (fun x => x.2 ≠ 0)
  let e := e + vals.foldl (fun n x => if s.rd64 (Reg.CNT_LIMIT_LO x.1) ≤ x.2 then n + 2 ^ (56 + x.1) else n) 0
  let taken := [0, 1].find? (fun b =>
    condition (s.fld (Reg.BR_CTRL r.seq b) 30 2) e (s.rd64 (Reg.BR_MASK_LO r.seq b)))
  match taken with
  | some b =>
    let c := s.rd (Reg.BR_CTRL r.seq b)
    { cnt := cnt.filter (fun x => !c.testBit x.1), seq := bits c 26 4, e := e, ctrl := c }
  | none => { cnt := cnt, seq := r.seq, e := e, ctrl := 0 }

/-- The probe words recorded, ascending (R321). -/
def State.probeSel (s : State) : List Nat :=
  (List.range 64).filter (fun w => (s.rd64 Reg.ACQ_PROBE_SEL_LO).testBit w)

/-- The record size RS (R321). -/
def State.recSize (s : State) : Nat := 32 + 8 * s.probeSel.length

/-- The ring capacity R (R321). -/
def State.ringCap (s : State) : Nat := 2 ^ s.fld Reg.ACQ_STORE_CFG 0 6 / s.recSize

/-- A record (R321). -/
def State.recordBytes (s : State) (ecn tb0 tb1 fab seq avg : Nat) (trig : Bool) (words : List Nat) : List Byte :=
  let flags := (if s.time.tb1Locked then 64 else 0) + (if s.rc.state = .replaying then 32 else 0) +
    (if trig then 16 else 0) + seq
  bytesOfNat ecn 8 ++ bytesOfNat tb0 4 ++ bytesOfNat tb1 4 ++ bytesOfNat fab 2 ++ bytesOfNat flags 1 ++
    bytesOfNat words.length 1 ++ bytesOfNat s.devId 2 ++ bytesOfNat 0 2 ++ bytesOfNat avg 4 ++ bytesOfNat 0 4 ++
    words.flatMap (fun w => bytesOfNat w 8)

/-- A formed record, and the run after it (R322): the record that completes POST ends the capture's records. -/
def State.formed (s : State) (r : AcqRun) (data : List Byte) (trig : Option Nat) : AcqRec × AcqRun :=
  let after := match trig, r.after with
    | some _, _ => some 0
    | none, some k => some (k + 1)
    | none, none => none
  let last := decide (after = some (s.rd Reg.ACQ_POST))
  ({ data := data, armPos := r.armPos, capture := r.capture, trig := trig, last := last }, { r with after := after, avg := none })

/-- Qualification and averaging of cycle `n` (R320); `r` is the run after the sequencer, `trig` the trigger of the
cycle. -/
def State.qualify (s : State) (r : AcqRun) (n e : Nat) (trig : Bool) : List AcqRec × AcqRun :=
  let done : Bool := match r.after with | some k => decide (s.rd Reg.ACQ_POST ≤ k) | none => false
  let q := condition (s.fld Reg.ACQ_CAP_CFG 30 2) e (s.rd64 Reg.ACQ_QUAL_MASK_LO)
  if (r.cap ≠ 2 ∧ r.cap ≠ 3) ∨ done ∨ !(q || trig) then ([], r)
  else
    let fab := s.fabTrigBits
    let words := s.probeSel.map s.probeWord
    let avgN := s.fld Reg.ACQ_AVG 0 17
    let t : Option Nat := if trig then some n else none
    if avgN = 1 then
      let (x, r) := s.formed r (s.recordBytes n (s.tb0 % 2 ^ 32) (s.time.tb1 % 2 ^ 32) fab r.seq 1 trig words) t
      ([x], r)
    else
      let w := s.fld Reg.ACQ_AVG 24 6
      let add (x : Nat) : Nat := ((fieldInt (s.flag Reg.ACQ_AVG 31) w x) % (2 ^ 64 : Int)).toNat
      let run : AvgRun := match r.avg with
        | some a => { a with
            count := a.count + 1
            sums := (a.sums.zip words).map (fun p => (p.1 + add p.2) % 2 ^ 64)
            trig := if trig then some n else a.trig }
        | none => ⟨1, n, s.tb0 % 2 ^ 32, s.time.tb1 % 2 ^ 32, words.map add, t⟩
      if avgN ≤ run.count then
        let (x, r) := s.formed r
          (s.recordBytes run.ecn run.tb0 run.tb1 fab r.seq avgN run.trig.isSome run.sums) run.trig
        ([x], r)
      else ([], { r with avg := some run })

/-- The number of 1 bits. -/
def popcount (x : Nat) : Nat := ((List.range 64).filter (fun i => x.testBit i)).length

/-- The square root of a number below 2^98, rounded down. -/
def isqrt (v : Nat) : Nat :=
  (List.range 49).foldl (fun r i => let t := r + 2 ^ (48 - i); if t * t ≤ v then t else r) 0

/-- A signed value extended to 64 bits. -/
def toWord64 (x : Int) : Nat := (x % (2 ^ 64 : Int)).toNat

/-- A _LO/_HI pair of a result block. -/
def pairAt (off v : Nat) : List (Nat × Nat) := [(off, v % 2 ^ 32), (off + 4, v / 2 ^ 32 % 2 ^ 32)]

/-- The registers of a completed measurement block (R325, R332). -/
def measBlock (r : MeasRun) (win : Nat) : List (Nat × Nat) :=
  pairAt 0x08 r.start ++ pairAt 0x10 (toWord64 r.min) ++ pairAt 0x18 r.minEcn ++ pairAt 0x20 (toWord64 r.max) ++
    pairAt 0x28 r.maxEcn ++ pairAt 0x30 (toWord64 (r.sum.tdiv win)) ++ pairAt 0x38 (isqrt (r.sumSq / win)) ++
    pairAt 0x40 (toWord64 (r.max - r.min)) ++
    [(0x48, r.rising), (0x4C, r.high), (0x50, r.edges),
     (0x54, if r.rising < 2 then 0 else (r.lastRise - r.firstRise) % 2 ^ 32)] ++ pairAt 0x58 r.toggles

/-- Measurement channel `m` takes cycle `n` (R324, R325): its run, and the block it completes. -/
def State.measure (s : State) (m n : Nat) (r : MeasRun) : MeasRun × Option (List (Nat × Nat)) :=
  let c := Reg.MEAS_CFG m
  let w := s.fld c 12 6
  let x := (s.probeWord (s.fld c 24 6) >>> s.fld c 18 6) % 2 ^ w
  let xi := fieldInt (s.flag c 30) w x
  let hi := fieldInt (s.flag c 30) w (s.rd64 (Reg.TH_HI_LO m))
  let lo := fieldInt (s.flag c 30) w (s.rd64 (Reg.TH_LO_LO m))
  let win := s.fld (Reg.WIN m) 0 25
  let first := decide (n = r.n0)
  let h := if hi ≤ xi then true else if xi < lo then false else if first then false else r.h
  let opens := decide ((n - r.n0) % win = 0)
  let r : MeasRun := if opens then { n0 := r.n0, h := r.h, prev := r.prev, start := n } else r
  let rise := !first && !r.h && h
  let fall := !first && r.h && !h
  let r : MeasRun := { r with
    h := h
    prev := x
    sum := r.sum + xi
    sumSq := r.sumSq + xi.natAbs * xi.natAbs
    min := if opens ∨ xi < r.min then xi else r.min
    minEcn := if opens ∨ xi < r.min then n else r.minEcn
    max := if opens ∨ r.max < xi then xi else r.max
    maxEcn := if opens ∨ r.max < xi then n else r.maxEcn
    rising := if rise then r.rising + 1 else r.rising
    firstRise := if rise ∧ r.rising = 0 then n else r.firstRise
    lastRise := if rise then n else r.lastRise
    high := if h then r.high + 1 else r.high
    edges := if rise || fall then r.edges + 1 else r.edges
    toggles := if first then r.toggles else r.toggles + popcount (x ^^^ r.prev) }
  (r, if (n - r.n0 + 1) % win = 0 then some (measBlock r win) else none)

/-- ACQ_EVLOG_ERROR (R312, R333). -/
def State.evlogError (s : State) (addr : Nat) : State := s.fatal bAcq 0x0906 (addr / 64 % 2 ^ 26)

/-- The address of the event-log entry of cycle `n` (R312). -/
def State.evlogAddr (s : State) (n : Nat) : Nat :=
  s.fld Reg.ACQ_EVLOG_BASE 0 26 * 4096 + n % 2 ^ s.fld Reg.ACQ_EVLOG_CFG 0 5 * 8

/-- The external-event word of cycle `n` is fixed at its first commit (R311); in REPLAYING it is read from the
event log, or is 0 without one (R312). -/
def State.fixExt (s : State) (n : Nat) : State :=
  if s.acq.ext.any (fun e => e.1 = n) then s
  else if s.rc.state = .replaying then
    if s.flag Reg.ACQ_EVLOG_CFG 31 then
      let (bad, v, s) := s.ddrRead .acq (s.evlogAddr n) 8
      if bad then s.evlogError (s.evlogAddr n) else s.modAcq fun a => { a with ext := a.ext ++ [(n, v % 2 ^ 24)] }
    else s.modAcq fun a => { a with ext := a.ext ++ [(n, 0)] }
  else s.modAcq fun a => { a with ext := a.ext ++ [(n, a.extNext)], extNext := 0 }

/-- The external-event word of cycle `n`. -/
def State.extOf (s : State) (n : Nat) : Nat := ((s.acq.ext.find? (fun e => e.1 = n)).map (·.2)).getD 0

/-- Comparators, counters, sequencer, qualification and averaging of cycle `n` (R309 order), where the capture
state lets them run (R318): the run after them, and what is held for the seal. -/
def State.evaluate (s : State) (n : Nat) : AcqRun × AcqHeld :=
  let r := s.acq.run
  if r.cap = 0 ∨ r.cap = 5 then (r, { ecn := n })
  else
    let xs := (List.range 16).map (fun c => (c, s.cmpX c))
    let cmp := xs.foldl (fun n x =>
      if s.cmpResult x.1 x.2 (if r.fresh then x.2 else r.prevX.get (fun _ => 0) x.1) then n + 2 ^ (16 + x.1) else n) 0
    let q := s.sequence r (s.fabTrigBits + cmp + s.extOf n * 2 ^ 32)
    let live := decide (s.rc.state ≠ .replaying)
    let trig := live && q.ctrl.testBit 25 && decide (r.cap = 2)
    let r : AcqRun := { r with
      cnt := q.cnt, seq := q.seq, prevX := xs.filter (fun x => x.2 ≠ 0), fresh := false, prevE := q.e
      cap := if trig then 3 else r.cap }
    let (recs, r) := s.qualify r n q.e trig
    (r, { ecn := n, recs := recs
          out := if live then bits q.ctrl 16 8 else 0
          star := live && q.ctrl.testBit 24
          sys := if live then bits q.ctrl 8 8 else 0 })

/-- The measurement channels of cycle `n`. -/
def State.measureAll (s : State) (n : Nat) (r : AcqRun) (h : AcqHeld) : AcqRun × AcqHeld :=
  (List.range 4).foldl (fun (p : AcqRun × AcqHeld) m =>
    match p.1.meas.get (fun _ => none) m with
    | some x =>
      if s.flag (Reg.MEAS_CFG m) 31 ∧ x.n0 ≤ n then
        let (x, b) := s.measure m n x
        ({ p.1 with meas := p.1.meas.set (fun _ => none) m (some x) },
          match b with
          | some l => { p.2 with blocks := p.2.blocks ++ [(m, l, decide (s.rc.state = .replaying))] }
          | none => p.2)
      else p
    | none => p) (r, h)

/-- The evaluation of cycle `n` at its commit (R309). -/
def State.acqCommit (s : State) (n : Nat) : State :=
  let s := s.fixExt n
  let was := s.cap
  let (r, h) := s.evaluate n
  let (r, h) := s.measureAll n r h
  let s := s.modAcq fun a => { a with run := r, held := a.held ++ [h] }
  if was ≠ 3 ∧ r.cap = 3 ∧ s.flag Reg.SPOOR_TRIG_CFG 0 then s.spTrigger 1 else s

/-! ## Cycle start and rollback (R319, R323) -/

/-- Records formed and not yet written. -/
def State.heldRecs (s : State) : Nat := s.acq.held.foldl (fun n h => n + h.recs.length) 0

/-- A binding takes effect at the start of cycle `n`. -/
def State.applyBind (s : State) (n : Nat) : AcqBindKind → State
  | .arm _ =>
    (s.modRun fun r => { r with
      cap := 2, seq := 0, cnt := [], avg := none, fresh := true, after := none
      armPos := s.rd64 Reg.ACQ_WRITE_POS_LO, capture := r.capture + 1 }).raise 9 0
  | .disarm => s.modRun fun r => { r with cap := 0, avg := none }
  | .meas m => s.modRun fun r => { r with meas := r.meas.set (fun _ => none) m (some { n0 := n }) }

/-- The binding is an arm. -/
def AcqBind.isArm (b : AcqBind) : Bool := match b.kind with | .arm _ => true | _ => false

/-- The binding is an arm or a disarm. -/
def AcqBind.ofCapture (b : AcqBind) : Bool := match b.kind with | .meas _ => false | _ => true

/-- The binding takes effect at the start of cycle `n`: it waits for a cycle start, an arm for its ARM_ECN, or was bound to
this one before a rollback (R319). -/
def AcqBind.due (b : AcqBind) (n : Nat) : Bool :=
  match b.at_, b.kind with
  | some a, _ => decide (a = n)
  | none, .arm low => decide (low ≤ n)
  | none, _ => true

/-- The bindings due at the start of cycle `n`, in the order of their writes (R319). A disarm ends the arms written before it
that still wait; one written after it leaves the capture ARMING. `kept`: the bindings passed. -/
def State.applyBinds (n : Nat) (kept : List AcqBind) : List AcqBind → State → State
  | [], s => s.modAcq fun a => { a with binds := kept }
  | b :: rest, s =>
    if !b.due n then State.applyBinds n (kept ++ [b]) rest s
    else
      let disarm := decide (b.kind = .disarm)
      let kept := if disarm then kept.filter fun c => !(c.isArm && c.at_.isNone) else kept
      let s := s.applyBind n b.kind
      let s := if disarm && rest.any (fun c => c.isArm && c.at_.all (fun a => decide (n ≤ a))) then
        s.modRun fun r => { r with cap := 1 } else s
      State.applyBinds n (kept ++ [{ b with at_ := some n }]) rest s

/-- The bindings at the start of the present cycle (R319). -/
def State.acqCycleStart (s : State) : State := State.applyBinds s.rc.ecn [] s.acq.binds s

/-- The capture buffer lacks room (R323). -/
def State.captureLacks (s : State) : Bool :=
  decide (262144 - s.acq.held.foldl (fun n h => h.recs.foldl (fun n r => n + r.data.length) n) 0
    < s.recSize * s.rc.unsealed.length)

/-- Rollback to `n` (R309, R126): the acquisition state at the start of `n`; what was held for discarded cycles
goes; an arm still to come, before any disarm, leaves the capture ARMING (DEDUCED, log 20). -/
def State.acqRollback (s : State) (n : Nat) (gone : List CycleRec) : State :=
  let run := match gone.find? (fun r => r.ecn = n) with | some r => r.acq | none => s.acq.run
  let next := s.acq.binds.find? fun b => b.ofCapture && b.at_.all fun a => decide (n ≤ a)
  let arming := next.any (·.isArm)
  s.modAcq fun a => { a with
    run := if arming ∧ (run.cap = 0 ∨ run.cap = 4 ∨ run.cap = 5) then { run with cap := 1 } else run
    held := a.held.filter (fun h => h.ecn < n) }

/-! ## Pulses (R316, R317) -/

/-- A pulse of PULSE_NS begins on pin `k` (8: STAR_TRIG_OUT), or extends the one in progress; it leaves the device where the pin
is an output. -/
def State.pulse (s : State) (k : Nat) : State :=
  let s1 := s.modAcq fun a => { a with
    pulses := a.pulses.set (fun _ => none) k (some (s.now + s.fld Reg.ACQ_OUT_CFG 0 20)) }
  if k = 8 ∨ s.flag (Reg.ACQ_TRIGIO k) 0 then s1.emit [.pulse k (s.fld Reg.ACQ_OUT_CFG 0 20)] else s1

/-- The level of TRIG[k] as this device drives it (R317): none where the pin is an input or released. -/
def State.trigDrive (s : State) (k : Nat) : Option Bool :=
  let c := Reg.ACQ_TRIGIO k
  let on := (s.acq.pulses.get (fun _ => none) k).isSome
  if !s.flag c 0 then none
  else if s.flag c 1 then (if on then some false else none)
  else some (on != s.flag c 2)

/-- The level of STAR_TRIG_OUT, which is push-pull and asserted high (R317). -/
def State.starDrive (s : State) : Bool := (s.acq.pulses.get (fun _ => none) 8).isSome

/-- PULSE_END (R316): the pulse on pin `k` is over. -/
def execPulseEnd (pin : Nat) (s : State) : Host.Outcome State Fault Refusal :=
  match s.acq.pulses.get (fun _ => none) pin with
  | some t => if t ≤ s.now then ok (s.modAcq fun a => { a with pulses := a.pulses.set (fun _ => none) pin none }) else ok s
  | none => ok s

/-! ## Result blocks (R326) -/

/-- The offset of the result block of channel `b`, 4 the DSP. -/
def blockBase (b : Nat) : Nat := if b < 4 then 0x90_1040 + b * 0x100 else 0x90_2040

/-- The waiting block and SEQ of channel `b`. -/
def State.resBlock (s : State) (b : Nat) : ResBlock := s.acq.blocks.get (fun _ => {}) b

/-- Change it. -/
def State.modBlock (s : State) (b : Nat) (f : ResBlock → ResBlock) : State :=
  s.modAcq fun a => { a with blocks := a.blocks.set (fun _ => {}) b (f (a.blocks.get (fun _ => {}) b)) }

/-- Show a block: its registers latch together, READY rises. -/
def State.showBlock (s : State) (b seq : Nat) (l : List (Nat × Nat)) (statBits : Nat) : State :=
  let s := l.foldl (fun s e => s.wr (blockBase b + e.1) e.2) s
  let s := s.wr (blockBase b) (2 ^ 31 + statBits + seq)
  if b < 4 then s.raise 9 (6 + b) else s

/-- A block completes: it is shown, or waits, replacing the one that waits. -/
def State.completeBlock (s : State) (b : Nat) (l : List (Nat × Nat)) (statBits : Nat) : State :=
  let r := s.resBlock b
  let seq := (r.seq + 1) % 65536
  let s := s.modBlock b fun r => { r with seq := seq }
  if !s.flag (blockBase b) 31 then s.showBlock b seq l statBits
  else
    let s := match r.wait with
      | none => s
      | some w =>
        let s := if b < 4 then s.count (Reg.LOST b) 0 32 1 else s
        if r.lostNoted then s
        else (s.record cInfo bAcq 0x0904 (b * 2 ^ 29 + w.1)).modBlock b fun r => { r with lostNoted := true }
    s.modBlock b fun r => { r with wait := some (seq, l, statBits) }

/-- A write of RES_ACK. -/
def State.ackBlock (s : State) (b seq : Nat) : State :=
  if seq ≠ s.fld (blockBase b) 0 16 then s.record cRejected bAcq 0x0903 (b * 2 ^ 29 + seq)
  else
    let s := s.setFlag (blockBase b) 31 false
    match (s.resBlock b).wait with
    | some (q, l, x) => (s.modBlock b fun r => { r with wait := none }).showBlock b q l x
    | none => s

/-! ## The seal (R316, R322) -/

/-- Write a record to the ring; an error response ends the capture (R323). The last record of a capture that a disarm has ended
is written, but completes nothing (R319, R322). -/
def State.storeRecord (s : State) (r : AcqRec) : State :=
  if s.cap = 5 then s
  else
    let p := s.rd64 Reg.ACQ_WRITE_POS_LO
    let addr := s.fld Reg.ACQ_STORE_BASE 0 26 * 4096 + p % s.ringCap * r.data.length
    match s.ddrFill .acq addr r.data.length (mapOfBytes r.data) with
    | (some off, s) =>
      ((s.modRuns fun x => { x with cap := 5, avg := none }).record cConfig bAcq 0x0905
        ((addr + off) / 64 % 2 ^ 26)).raise 9 3
    | (none, s) =>
      let s := s.wr64 Reg.ACQ_WRITE_POS_LO (p + 1)
      let s := match r.trig with
        | some n =>
          (((s.wr64 Reg.ACQ_TRIG_ECN_LO n).wr64 Reg.ACQ_TRIG_POS_LO p).wr64 Reg.ACQ_FIRST_POS_LO
            (max r.armPos (p - s.rd Reg.ACQ_PRE))).raise 9 1
        | none => s
      let mine (x : AcqRun) : Bool := decide (x.cap = 3) && decide (x.capture = r.capture)
      if !r.last then s
      else
        let done := mine s.acq.run
        let s := s.modRuns fun x => if mine x then { x with cap := 4 } else x
        if done then s.raise 9 2 else s

/-- The event-log entry of a sealed cycle (R312). -/
def State.logEvents (s : State) (n : Nat) : State :=
  if s.flag Reg.ACQ_EVLOG_CFG 31 ∧ s.rc.state ≠ .replaying then
    let (bad, s) := s.ddrWrite .acq (s.evlogAddr n) 8 (2 ^ 63 + n % 2 ^ 15 * 2 ^ 48 + s.extOf n)
    if bad then s.evlogError (s.evlogAddr n) else s
  else s

/-- The lines of the system trigger that cycle `n` holds for its seal (R316). -/
def State.acqSys (s : State) (n : Nat) : Nat :=
  match s.acq.held.find? (fun h => h.ecn = n) with | some h => h.sys | none => 0

/-- The held effects of acquisition at the seal of a cycle, but for its system trigger. -/
def State.releaseAcq (s : State) (rec : CycleRec) : State :=
  let n := rec.ecn
  let s := s.logEvents n
  let h := (s.acq.held.find? (fun h => h.ecn = n)).getD { ecn := n }
  let s := h.recs.foldl State.storeRecord s
  let s := (List.range 8).foldl (fun s k => if h.out.testBit k then s.pulse k else s) s
  let s := if h.star then s.pulse 8 else s
  let s := h.blocks.foldl (fun s b => s.completeBlock b.1 b.2.1 (if b.2.2 then 2 ^ 30 else 0)) s
  s.modAcq fun a => { a with
    held := a.held.filter (fun h => h.ecn ≠ n)
    ext := a.ext.filter (fun e => e.1 ≠ n)
    binds := a.binds.filter (fun b => match b.at_ with | some k => decide (n < k) | none => true) }

/-! ## Rewind and load (R312, R319, R324) -/

/-- Acquisition refuses a REWIND to cycle `e` (R312). An error response on the entry is ACQ_EVLOG_ERROR (R333). -/
def State.acqRewindRefused (s : State) (e : Nat) : Bool × State :=
  if !s.flag Reg.ACQ_EVLOG_CFG 31 then (false, s)
  else if e + 2 ^ s.fld Reg.ACQ_EVLOG_CFG 0 5 ≤ s.latestBegun then (true, s)
  else
    let (bad, v, s) := s.ddrRead .acq (s.evlogAddr e) 8
    if bad then (true, s.evlogError (s.evlogAddr e))
    else (!v.testBit 63 || decide (v / 2 ^ 48 % 2 ^ 15 ≠ e % 2 ^ 15), s)

/-- The REWIND go-ahead to cycle `e` (R319, R324): every enabled channel restarts its windows there, and the arms and disarms
that wait for a cycle start, a rolled-back one among them, wait on. -/
def State.acqRewind (s : State) (e : Nat) : State :=
  let on := (List.range 4).filter fun m => s.flag (Reg.MEAS_CFG m) 31
  s.modAcq fun a => { a with
    run := { a.run with
      cap := if 2 ≤ a.run.cap ∧ a.run.cap ≤ 4 then 0 else a.run.cap
      avg := none
      meas := on.map fun m => (m, some ({ n0 := e } : MeasRun)) }
    held := []
    ext := []
    binds := a.binds.filter fun b => b.ofCapture && b.at_.all fun k => decide (s.rc.ecn ≤ k) }

/-- Every measurement channel is disabled: a RUN from LOADED, a LOAD_BEGIN (R324). -/
def State.measOff (s : State) : State :=
  let s := (List.range 4).foldl (fun s m => s.setFlag (Reg.MEAS_CFG m) 31 false) s
  s.modAcq fun a => { a with
    run := { a.run with meas := [] }
    binds := a.binds.filter (fun b => match b.kind with | .meas _ => false | _ => true) }

/-- RUN from LOADED. -/
def State.acqRunFromLoaded (s : State) : State :=
  s.measOff.modAcq fun a => { a with held := [], ext := [] }

/-- LOAD_BEGIN. -/
def State.acqLoadBegin (s : State) : State := s.measOff

/-! ## Register writes (R319, R326, R330, R332) -/

/-- ARM = 1 in IDLE, DONE or ERROR (R319). -/
def State.acqArm (s : State) : State :=
  if s.ringCap < s.rd Reg.ACQ_PRE + s.rd Reg.ACQ_POST + 1 then s.record cRejected bAcq 0x0902 s.ringCap
  else
    let low := if s.flag Reg.ACQ_CTRL 29 then s.rd64 Reg.ACQ_ARM_ECN_LO else 0
    (s.modRun fun r => { r with cap := 1 }).modAcq fun a => { a with binds := a.binds ++ [{ kind := .arm low }] }

/-- A write of DISARM = 1 (R319). -/
def State.acqDisarm (s : State) : State :=
  if s.cap = 0 then s else s.modAcq fun a => { a with binds := a.binds ++ [{ kind := .disarm }] }

/-- A write of MEAS_CFG.EN from 0 to 1 (R324). -/
def State.measBind (s : State) (m : Nat) : State :=
  let s := s.modRuns fun r => { r with meas := r.meas.set (fun _ => none) m none }
  (s.modBlock m fun r => { r with seq := 0 }).modAcq fun a => { a with
    binds := a.binds.filter (fun b => b.kind ≠ .meas m) ++ [{ kind := .meas m }] }

/-- GO (R330). -/
def State.dspGo (s : State) : State :=
  if s.flag Reg.DSP_CTRL 30 then s
  else (s.setFlag Reg.DSP_CTRL 30 true).modAcq fun a => { a with dsp := { a.dsp with
    index := 0, addr := s.rd64 Reg.DSP_CHAIN_LO % 2 ^ 40, bexp := 0, mx := none, sat := false } }

/-- The fields that may not be written now (R332). -/
def State.acqFixed (s : State) (off : Nat) (f : FieldSpec) : Bool :=
  let rel := off - 0x90_0000
  let open_ := decide (s.cap = 0 ∨ s.cap = 4 ∨ s.cap = 5)
  if (0x08 ≤ rel ∧ rel < 0x38) ∨ (0x200 ≤ rel ∧ rel < 0x800) then !open_
  else if rel = 0x38 ∨ rel = 0x3C then !s.preRun
  else if 0x1000 ≤ rel ∧ rel < 0x1400 then
    s.flag (Reg.MEAS_CFG ((rel - 0x1000) / 0x100)) 31 && decide (rel % 0x100 < 0x18) && !(decide (rel % 0x100 = 0) && decide (f.lsb = 31))
  else if rel = 0x2000 ∨ rel = 0x2004 then s.flag Reg.DSP_CTRL 30
  else false

/-- A write of an ACQ register. -/
def State.writeAcq (s : State) (init : Initiator) (off v : Nat) : State :=
  let rel := off - 0x90_0000
  if off = Reg.ACQ_CTRL ∧ v.testBit 31 ∧ (v.testBit 30 ∨ (s.cap ≠ 0 ∧ s.cap ≠ 4 ∧ s.cap ≠ 5)) then s.reject bAcq 0x0901 off
  else
    let en := (List.range 4).map (fun m => s.flag (Reg.MEAS_CFG m) 31)
    let (done, s) := s.csrWrite init off v (s.acqFixed off) false 0x0901
    if !done then s
    else if off = Reg.ACQ_CTRL then
      let s := s.setFld off 30 2 0
      if v.testBit 31 then s.acqArm else if v.testBit 30 then s.acqDisarm else s
    else if off = Reg.DSP_CTRL then
      let s := s.setFlag off 31 false
      if v.testBit 31 then s.dspGo else s
    else if off = Reg.ACQ_INT_STAT then
      (List.range 5).foldl (fun s b =>
        if v.testBit (if b < 4 then 6 + b else 4) then s.modBlock b fun r => { r with lostNoted := false } else s) s
    else if rel = 0x2044 then (s.wr off 0).ackBlock 4 (v % 65536)
    else if 0x1000 ≤ rel ∧ rel < 0x1400 ∧ rel % 0x100 = 0x44 then
      (s.wr off 0).ackBlock ((rel - 0x1000) / 0x100) (v % 65536)
    else if 0x1000 ≤ rel ∧ rel < 0x1400 ∧ rel % 0x100 = 0 then
      let m := (rel - 0x1000) / 0x100
      if !(en.getD m false) && s.flag off 31 then s.measBind m else s
    else s

/-- The sequencer and counters that registers show: changes that follow from a cycle show from its seal on (R118). -/
def State.shownAcq (s : State) : AcqRun :=
  match s.rc.unsealed with
  | r :: _ => r.acq
  | [] => s.acq.run

/-- What a read of CNT_VALUE, or of ACQ_STAT, shows. -/
def State.acqStat (s : State) : Nat := s.cap * 2 ^ 29 + s.shownAcq.seq * 2 ^ 16


end Sys2Proof.Machine
end

