-- ==== Sys2Proof/Machine/Dsp.lean ====
section
/-!
DEFINITION. The measurement DSP (R327-R330): address generators, descriptors, primitives, the end of a chain.
-/

namespace Sys2Proof.Machine

/-- Shift right, rounding to the nearest value, ties away from zero (R327). -/
def rnd (x : Int) (k : Nat) : Int :=
  if k = 0 then x
  else
    let m : Int := (x.natAbs + 2 ^ (k - 1)) / 2 ^ k
    if x < 0 then -m else m

/-- Saturate at `w` bits of two's complement, and whether it did (R327). -/
def satTo (w : Nat) (x : Int) : Int × Bool :=
  if x < -(2 ^ (w - 1)) then (-(2 ^ (w - 1)), true)
  else if 2 ^ (w - 1) - 1 < x then (2 ^ (w - 1) - 1, true)
  else (x, false)

/-- A stream (R327, R328): base, MODE, BITS, STRIDE, LEN. -/
structure DspStream where
  base : Nat
  mode : Nat
  bits : Nat
  stride : Int
  len : Nat
  deriving DecidableEq, Repr

/-- The `k`-bit reversal of `i`. -/
def bitReverse (k i : Nat) : Nat :=
  (List.range k).foldl (fun n j => if i.testBit j then n + 2 ^ (k - 1 - j) else n) 0

/-- g(i) (R327). LEN 0 under modulo and a reserved MODE have no stated address: a free value (log 7). -/
def DspStream.gen (d : DspStream) (free i : Nat) : Int :=
  match d.mode with
  | 0 => (i : Int) * d.stride
  | 1 => if d.len = 0 then ((Config.freeContent free i).toNat : Int) else ((i : Int) * d.stride) % (d.len : Int)
  | 2 => bitReverse d.bits i
  | _ => ((Config.freeContent free i).toNat : Int)

/-- The address of element `i`, of `size` bytes. -/
def DspStream.addr (d : DspStream) (free size i : Nat) : Nat :=
  (((d.base : Int) + d.gen free i * size) % (2 ^ 40 : Int)).toNat

/-- A descriptor (R328). -/
structure DspDesc where
  op : Nat
  cplx : Bool
  accClr : Bool
  last : Bool
  nLog2 : Nat
  pass : Nat
  shiftMode : Nat
  shift : Nat
  count : Nat
  a : DspStream
  b : DspStream
  d : DspStream
  const : Int
  deriving DecidableEq, Repr

/-- A stream of a descriptor, from its base word and its generator word. -/
def dspStream (base g : Nat) : DspStream :=
  { base := base % 2 ^ 40, mode := bits g 0 2, bits := bits g 3 5
    stride := fieldInt true 16 (bits g 16 16), len := bits g 32 32 }

/-- Read a descriptor from its 64 bytes (R328). -/
def dspDesc (v : Nat) : DspDesc :=
  let w (off n : Nat) : Nat := bits v (8 * off) (8 * n)
  { op := bits v 0 8, cplx := v.testBit 8, accClr := v.testBit 10, last := v.testBit 11, nLog2 := bits v 15 5
    pass := bits v 20 4, shiftMode := bits v 24 2, shift := bits v 26 4, count := w 4 4
    a := dspStream (w 0x08 8) (w 0x20 8), b := dspStream (w 0x10 8) (w 0x28 8), d := dspStream (w 0x18 8) (w 0x30 8)
    const := fieldInt true 27 (w 0x38 4) }

/-- The descriptor is invalid (R330). -/
def DspDesc.invalid (x : DspDesc) : Bool :=
  decide (x.op = 0 ∨ 5 < x.op) || decide (x.count = 0 ∨ 65536 < x.count) || decide (x.nLog2 = 0 ∨ 16 < x.nLog2) ||
    (decide (x.op = 2) && (decide (x.count ≠ 2 ^ (x.nLog2 - 1)) || decide (x.nLog2 ≤ x.pass)))

/-- What a descriptor works on: the device, its results so far, and whether an access met an error response. -/
structure DspRun where
  s : State
  d : Dsp
  bad : Bool

/-- Read a component at an address. -/
def DspRun.get (r : DspRun) (addr : Nat) : Int × DspRun :=
  if r.bad then (0, r)
  else
    let (bad, m, s) := r.s.memRead .acq addr 4
    (fieldInt true 27 (natOfBytes (bytesOfMap m 4)), { r with s := s, bad := bad })

/-- Write a component, at 27 bits extended to 32 (R327). -/
def DspRun.put (r : DspRun) (addr : Nat) (x : Int) : DspRun :=
  if r.bad then r
  else
    let (bad, s) := r.s.memWrite .acq addr (bytesOfNat ((x % (2 ^ 32 : Int)).toNat) 4)
    { r with s := s, bad := bad }

/-- Read element `i` of a stream: one component, or two. -/
def DspRun.elem (r : DspRun) (t : DspStream) (cplx : Bool) (i : Nat) : Int × Int × DspRun :=
  let a := t.addr r.s.freeCount (if cplx then 8 else 4) i
  let (x, r) := r.get a
  if cplx then
    let (y, r) := r.get (a + 4)
    (x, y, r)
  else (x, 0, r)

/-- Write element `i` of a stream. -/
def DspRun.store (r : DspRun) (t : DspStream) (cplx : Bool) (i : Nat) (x y : Int) : DspRun :=
  let a := t.addr r.s.freeCount (if cplx then 8 else 4) i
  let r := r.put a x
  if cplx then r.put (a + 4) y else r

/-- Add to accumulator `k`, which saturates at 48 bits. -/
def DspRun.addAcc (r : DspRun) (k : Nat) (x : Int) : DspRun :=
  let (v, sat) := satTo 48 (r.d.acc.getD k 0 + x)
  { r with d := { r.d with acc := r.d.acc.set k v, sat := r.d.sat || sat } }

/-- MAC (R329). -/
def DspRun.mac (r : DspRun) (x : DspDesc) : DspRun :=
  let r := if x.accClr then { r with d := { r.d with acc := [0, 0, 0, 0] } } else r
  (List.range x.count).foldl (fun r i =>
    let (ar, ai, r) := r.elem x.a x.cplx i
    let (br, bi, r) := r.elem x.b x.cplx i
    if r.bad then r
    else if x.cplx then
      (((r.addAcc 0 (rnd (ar * br) x.shift)).addAcc 1 (rnd (ai * bi) x.shift)).addAcc 2
        (rnd (ar * bi) x.shift)).addAcc 3 (rnd (ai * br) x.shift)
    else r.addAcc (i % 4) (rnd (ar * br) x.shift)) r

/-- The shift of a butterfly pass (R329). -/
def bflyShift (x : DspDesc) (mx : Option Nat) : Nat :=
  if x.shiftMode = 1 then
    let m := mx.getD (2 ^ 26 - 1)
    if m < 2 ^ 24 then 0 else if m < 2 ^ 25 then 1 else 2
  else x.shift

/-- A component that BFLY writes: under a fixed shift it may fall outside 27 bits, and the spec states no result there: a free
value (log 7). -/
def DspRun.fit (r : DspRun) (x : Int) : Int × DspRun :=
  if -(2 ^ 26) ≤ x ∧ x < 2 ^ 26 then (x, r)
  else
    let (v, s) := r.s.free
    (fieldInt true 27 v.toNat, { r with s := s })

/-- BFLY (R329): pass 0 reads A in bit-reversed order. -/
def DspRun.bfly (r : DspRun) (x : DspDesc) : DspRun :=
  let h := 2 ^ x.pass
  let n := 2 ^ x.nLog2
  let sh := bflyShift x r.d.mx
  let a := if x.pass = 0 then { x.a with mode := 2, bits := x.nLog2 } else x.a
  let (r, mx) := (List.range x.count).foldl (fun (p : DspRun × Nat) q =>
    let j := q / h * (2 * h) + q % h
    let k := q % h
    let (ur, ui, r) := p.1.elem a true j
    let (vr, vi, r) := r.elem a true (j + h)
    let (wr, wi, r) := r.elem x.b true (k * n / (2 * h))
    let yr := rnd (vr * wr - vi * wi) 25
    let yi := rnd (vr * wi + vi * wr) 25
    let (d0r, r) := r.fit (rnd (ur + yr) sh)
    let (d0i, r) := r.fit (rnd (ui + yi) sh)
    let (d1r, r) := r.fit (rnd (ur - yr) sh)
    let (d1i, r) := r.fit (rnd (ui - yi) sh)
    let r := (r.store x.d true j d0r d0i).store x.d true (j + h) d1r d1i
    (r, [d0r, d0i, d1r, d1i].foldl (fun m v => max m v.natAbs) p.2)) (r, 0)
  { r with d := { r.d with mx := some mx, bexp := r.d.bexp + sh } }

/-- MINMAX (R329). -/
def DspRun.minMax (r : DspRun) (x : DspDesc) : DspRun :=
  (List.range x.count).foldl (fun r i =>
    let (v, _, r) := r.elem x.a false i
    if r.bad then r
    else
      let d := if i = 0 ∨ v < r.d.min then { r.d with min := v, minIdx := i } else r.d
      let d := if i = 0 ∨ d.max < v then { d with max := v, maxIdx := i } else d
      { r with d := d }) r

/-- The bit length of a number below 2^64. -/
def bitLength (x : Nat) : Nat := if x = 0 then 0 else Nat.log2 x + 1

/-- BSCAN (R329). -/
def DspRun.bscan (r : DspRun) (x : DspDesc) : DspRun :=
  let (r, mx) := (List.range x.count).foldl (fun (p : DspRun × Nat) i =>
    let (re, im, r) := p.1.elem x.a x.cplx i
    (r, max p.2 (max re.natAbs im.natAbs))) (r, 0)
  { r with d := { r.d with mx := some mx, maxMag := mx, scanExp := 26 - (bitLength mx : Int) } }

/-- SCALE (R329). -/
def DspRun.scale (r : DspRun) (x : DspDesc) : DspRun :=
  (List.range x.count).foldl (fun r i =>
    let (re, im, r) := r.elem x.a x.cplx i
    let (p, sp) := satTo 27 (rnd (re * x.const) x.shift)
    let (q, sq) := satTo 27 (rnd (im * x.const) x.shift)
    let r := r.store x.d x.cplx i p q
    { r with d := { r.d with sat := r.d.sat || sp || sq } }) r

/-- One descriptor's primitive. -/
def DspRun.run (r : DspRun) (x : DspDesc) : DspRun :=
  match x.op with
  | 1 => r.mac x
  | 2 => r.bfly x
  | 3 => r.minMax x
  | 4 => r.bscan x
  | _ => r.scale x

/-- The chain ends on an error (R330). -/
def State.dspEnd (s : State) (code detail : Nat) : State :=
  ((s.setFlag Reg.DSP_CTRL 30 false).record cConfig bAcq code detail).raise 9 5

/-- The registers of the DSP's result block (R332). -/
def dspBlock (d : Dsp) : List (Nat × Nat) :=
  [(0x08, d.bexp % 256), (0x0C, d.maxMag % 2 ^ 27)] ++
    (List.range 4).flatMap (fun k => pairAt (0x10 + 8 * k) (toWord64 (d.acc.getD k 0))) ++
    pairAt 0x30 (toWord64 d.min) ++ pairAt 0x38 (toWord64 d.max) ++ [(0x40, d.minIdx), (0x44, d.maxIdx)]

/-- DSP_DESCRIPTOR (R328-R330): the DSP reads and completes one descriptor. -/
def execDspDescriptor (s : State) : Host.Outcome State Fault Refusal :=
  if !s.flag Reg.DSP_CTRL 30 then ok s
  else
    let i := s.acq.dsp.index % 2 ^ 16
    let (bad, m, s) := s.memRead .acq s.acq.dsp.addr 64
    if bad then ok (s.dspEnd 0x0907 (i * 2 ^ 16))
    else
      let x := dspDesc (natOfBytes (bytesOfMap m 64))
      if x.invalid then ok (s.dspEnd 0x0908 (i * 2 ^ 16 + x.op))
      else
        let r := DspRun.run ⟨s, s.acq.dsp, false⟩ x
        let s := { r.s with freeCount := r.s.freeCount + 1 }
        let s := s.modAcq fun a => { a with dsp := { r.d with index := r.d.index + 1, addr := r.d.addr + 64 } }
        if r.bad then ok (s.dspEnd 0x0907 (i * 2 ^ 16))
        else if x.last then
          let s := s.setFlag Reg.DSP_CTRL 30 false
          ok ((s.completeBlock 4 (dspBlock r.d) (if r.d.sat then 2 ^ 29 else 0)).raise 9 4)
        else ok s

end Sys2Proof.Machine
end

