-- ==== Sys2Proof/Machine/Load.lean ====
section
/-!
DEFINITION. The images that DDR holds of a cluster's IMEM, initial state and DMB, and how they are taken in (R64,
R65, R154). The rows that start and end a load are in DesignMemory.lean; a wake from OFF takes the same images in.
-/

namespace Sys2Proof.Machine

/-- Read a range as the loader does: its nonzero bytes at offsets, or the address that got the error response. -/
def State.loaderRead (s : State) (addr n : Nat) : Except Nat (Map Byte) × State :=
  match s.ddrGet .engine .read addr n with
  | (.ok m, s) => (.ok m, s)
  | (.error (_, off), s) => (.error (addr + off), s)

/-- The same for the map loader and the Shale loader, which reach CRYPT over the rings (R378): the first page whose
target is isolated ends the read (R385). -/
def State.ringLoaderRead (s : State) (addr n : Nat) : Except Nat (Map Byte) × State :=
  match (cutAt 4096 (n / 4096 + 2) addr n).find? (fun p => s.isolated (15 + p.1 / 4096 % 2)) with
  | none => s.loaderRead addr n
  | some p =>
    match s.loaderRead addr (p.1 - addr) with
    | (.error a, s) => (.error a, s)
    | (.ok _, s) => (.error p.1, s)

/-- A _LO/_HI pair that holds a DDR address. -/
def State.baseOf (s : State) (off : Nat) : Nat := s.rd64 off % 2 ^ 38

/-- Words of `n` bytes that a range holds, by word index, the zero words left out. -/
def wordsOf (n : Nat) (m : Map Byte) : Map Nat :=
  m.foldl (fun w e => w.set (fun _ => 0) (e.1 / n) (w.get (fun _ => 0) (e.1 / n) + e.2.toNat * 256 ^ (e.1 % n))) []

/-- Replace the IMEM of cluster `c`: words by w * 256 + b. -/
def State.setImem (s : State) (c : Nat) (m : Map Nat) : State :=
  let words : Map W96 := m.map (fun e => (c * 524288 + e.1, BitVec.ofNat 96 e.2))
  { s with imem := (s.imem.without (c * 524288) ((c + 1) * 524288)).setAll (fun _ => 0) words }

/-- The IMEM of cluster `c` after a load that stopped: undefined, a free content (log 7). -/
def State.undefImem (s : State) (c : Nat) : State :=
  let n := s.freeCount
  let words : List (Nat × W96) :=
    (List.range 524288).map (fun i => (c * 524288 + i, (Config.freeContent n i).setWidth 96))
  { s with
    freeCount := n + 1
    imem := (s.imem.without (c * 524288) ((c + 1) * 524288)).setAll (fun _ => 0) words }

/-- Read the IMEM image of cluster `c` and write it (R65 steps 1 and 2); the failing address on an error. -/
def State.imemTake (s : State) (c : Nat) : Option Nat × State :=
  match s.loaderRead (s.baseOf (Reg.IMEM_BASE_LO c)) (s.cycleLen * 3072) with
  | (.error a, s) => (some a, s.undefImem c)
  | (.ok m, s) => (none, s.setImem c (wordsOf 12 m))

/-- Read the initial-state image of cluster `c` into bank 0, and set CUR_BANK to 0 (R65 step 3, R48); the accumulator
reads 0 (R163). An error response leaves bank 0, the accumulator and CUR_BANK as they stand: R65 calls only IMEM undefined
(DESIGN CHOICE, log 109). -/
def State.initTake (s : State) (c : Nat) : Option Nat × State :=
  match s.loaderRead (s.baseOf (Reg.INIT_BASE_LO c)) 8192 with
  | (.error a, s) => (some a, s.undefImem c)
  | (.ok m, s) =>
    let bits := m.flatMap (fun e => ((List.range 8).filter (fun i => e.2.toNat.testBit i)).map
      (fun i => (c * 65536 + e.1 * 8 + i, true)))
    let b0 : Map Bool := s.bank 0
    let b0 := (b0.without (c * 65536) ((c + 1) * 65536)).setAll (fun _ => false) bits
    (none, { s with
      banks := s.banks.set (fun _ => []) 0 b0
      acc := s.acc.set (fun _ => 0) c 0
      rc := { s.rc with curBank := 0, firstArmed := true } })

/-- Replace the DMB of cluster `c`. -/
def State.setDmb (s : State) (c : Nat) (m : Map Nat) : State :=
  let words : Map W64 := m.map (fun e => (c * 32768 + e.1, BitVec.ofNat 64 e.2))
  { s with dmb := (s.dmb.without (c * 32768) ((c + 1) * 32768)).setAll (fun _ => 0) words }

/-- The DMB of cluster `c` after a load that stopped: undefined, a free content (log 7). -/
def State.undefDmb (s : State) (c : Nat) : State :=
  let n := s.freeCount
  let words : List (Nat × W64) :=
    (List.range 32768).map (fun i => (c * 32768 + i, (Config.freeContent n i).setWidth 64))
  { s with
    freeCount := n + 1
    dmb := (s.dmb.without (c * 32768) ((c + 1) * 32768)).setAll (fun _ => 0) words }

/-- Fill the DMB of cluster `c`, with zeros or from the image at DM_INIT (R154). -/
def State.dmbTake (s : State) (c : Nat) (zero : Bool) : Option Nat × State :=
  if zero then (none, s.setDmb c [])
  else
    match s.loaderRead (s.fld (Reg.DM_INIT c) 0 26 * 4096) 262144 with
    | (.error a, s) => (some a, s.undefDmb c)
    | (.ok m, s) => (none, s.setDmb c (wordsOf 8 m))

/-- IMEM_LOAD_ERROR, or DM_INIT_LOAD_ERROR. -/
def State.loadError (s : State) (source code c addr : Nat) : State :=
  s.record cConfig source code (c <<< 26 + addr / 64 % 2 ^ 26)

/-- A cluster enters OFF: all its memories are lost, its registers are not (R66, R168; log 26). -/
def State.clusterLose (s : State) (c : Nat) : State :=
  let cut (e : Nat × Map Bool) : Nat × Map Bool := (e.1, e.2.without (c * 65536) ((c + 1) * 65536))
  { (s.setImem c []).setDmb c [] with
    banks := (s.banks.map cut).filter (fun e => !e.2.isEmpty)
    clusters := s.clusters.erase c
    inbox := s.inbox.without (c * 2048) ((c + 1) * 2048)
    acc := s.acc.set (fun _ => 0) c 0 }

/-- Load the IMEM of cluster `c`, and with `withInit` its initial state (R65): DONE, or ERROR and the record of an error
response, which stops the load. -/
def State.imemLoad (s : State) (c : Nat) (withInit : Bool) : State :=
  let (bad, s) : Option Nat × State := match s.imemTake c with
    | (some a, s) => (some a, s)
    | (none, s) => if withInit then s.initTake c else (none, s)
  match bad with
  | some a =>
    let s := (s.setFlag (Reg.IMEM_CTRL c) 28 true).modRc fun r => { r with loadErr := c :: r.loadErr }
    (s.loadError bFabric 0x0187 c a).raise 0 4
  | none =>
    let s := s.setFlag (Reg.IMEM_CTRL c) 29 true
    if s.rc.loadBusy.isEmpty then s.raise 0 3 else s

/-- Fill the DMB of cluster `c` (R154): DONE, or ERROR and the record of an error response, which stops the load. -/
def State.dmbLoad (s : State) (c : Nat) (zero : Bool) : State :=
  match s.dmbTake c zero with
  | (some a, s) =>
    let s := (s.setFlag (Reg.DM_CTRL c) 28 true).modRc fun r => { r with dmErr := c :: r.dmErr }
    s.loadError bDmemq 0x0308 c a
  | (none, s) =>
    let s := s.setFlag (Reg.DM_CTRL c) 29 true
    if s.rc.dmBusy.isEmpty then s.raise 4 1 else s

/-- A cluster wakes from OFF with its memories cleared: IMEM is reloaded as in R65; in LOADED the initial state too, and the
DMB as in R154 (R66, R168). The reload of the initial state counts as a load WITH_INIT for FIRST (R73), and where no DMB load was
ever made, ZERO counts as 0 (DESIGN CHOICE, log 109). -/
def State.clusterReload (s : State) (c : Nat) : State :=
  if s.rc.state = .loaded then (s.imemLoad c true).dmbLoad c (s.rc.lastZero.get (fun _ => false) c)
  else s.imemLoad c false

/-- Cluster `c` is brought to RUN, with its restore where it was OFF (R438, R439). -/
def State.wakeCluster (s : State) (c : Nat) : State :=
  let x := s.dom c
  if x.level = 0 ∧ x.goal.isNone then s.touch c
  else (if x.level = 3 then s.clusterReload c else s).leaveDom c

/-- The enabled clusters and the commit engine are brought to RUN: on receipt of a RUN, STEP or REWIND, on a map or IMEM
load, and at any other cycle start (R439). The exit takes no time here (DESIGN CHOICE, log 27). -/
def State.wakeFabric (s : State) : State :=
  ((s.clusterIds.filter s.enabled).foldl State.wakeCluster s).leaveDom 64

end Sys2Proof.Machine
end

