-- ==== Sys2Proof/Machine/Badger.lean ====
section
/-!
DEFINITION. Badger cores, the dispatcher and the mailboxes (chapter 14).
-/

namespace Sys2Proof.Machine

/-! ## Dvorbeng instructions (R357, R362, R365, R366) -/

/-- The Dvorbeng instructions. -/
inductive Dvorbeng where
  | take | tryTake | ready | done | defer_ | clean | cinv | cflush
  deriving DecidableEq, Repr

/-- The Dvorbeng instruction of a word of the custom-0 opcode, every field that it does not use being 0; none: the word raises an
illegal-instruction exception (R357). -/
def dvorbeng (w : BitVec 32) : Option Dvorbeng :=
  let n := w.toNat
  let rd := bits n 7 5; let rs1 := bits n 15 5; let rs2 := bits n 20 5
  match bits n 12 3, bits n 25 7 with
  | 0, 0 => if rs1 = 0 ∧ rs2 = 0 then some .take else none
  | 1, 0 => if rs1 = 0 ∧ rs2 = 0 then some .tryTake else none
  | 2, 0 => if rd = 0 ∧ rs2 = 0 then some .ready else none
  | 3, 0 => if rd = 0 ∧ rs2 = 0 then some .done else none
  | 4, 0 => if rd = 0 then some .defer_ else none
  | 5, 0 => if rd = 0 ∧ rs2 = 0 then some .clean else none
  | 5, 1 => if rd = 0 ∧ rs2 = 0 then some .cinv else none
  | 5, 2 => if rd = 0 ∧ rs2 = 0 then some .cflush else none
  | _, _ => none

/-- The value that an instruction reads of its register in [lsb + 4:lsb]; x0 reads 0. -/
def instReg (d : CoreInst) (lsb : Nat) (v : W64) : Nat := if bits d.word.toNat lsb 5 = 0 then 0 else v.toNat

/-- The task that an instruction names (R357). -/
def instTask (d : CoreInst) : Nat := instReg d 15 d.rs1 % 1024

/-- The address that a cache instruction names. -/
def instAddr (d : CoreInst) : Nat := instReg d 15 d.rs1

/-- Core `k` executes instructions. -/
def State.coreExecutes (s : State) (k : Nat) : Bool := decide (k < 8) && decide ((s.core k).state = 1)

/-- The illegal-instruction exception (R357) as the RISC-V privileged specification takes it: mcause 2, mepc at the word, the word in
mtval, machine mode. Where mtvec points is the firmware's: a free value (PRESUMED, log 8). -/
def State.illegal (s : State) (d : CoreInst) : State :=
  let (x, s) := s.free
  s.modCore d.core fun c => { c with pc := x.toNat, machine := true, mcause := 2, mepc := d.pc % 2 ^ 64, mtval := d.word.toNat }

/-- What a Badger instruction does: `f` where the word spells `i`, the exception where a custom-0 word spells no instruction. The
row of another word, or of a core that does not execute, does nothing (log 4). -/
def State.onCore (s : State) (d : CoreInst) (i : Dvorbeng) (f : State → State) : State :=
  if s.coreExecutes d.core ∧ bits d.word.toNat 0 7 = 0x0B then
    let s := s.touch (74 + d.core)
    match dvorbeng d.word with
    | none => s.illegal d
    | some j => if j = i then f s else s
  else s

/-- The PC of a core stands past its instruction. -/
def State.stepPc (s : State) (d : CoreInst) : State := s.modCore d.core fun c => { c with pc := (d.pc + 4) % 2 ^ 64 }

/-- A TAKE or TRYTAKE of the core runs *select*: the task found is given to it, and its token retires; `none_`: what else. -/
def State.takeTask (s : State) (d : CoreInst) (none_ : State → State) : State :=
  let s := s.modCore d.core fun c => { c with rd := bits d.word.toNat 7 5, pc := d.pc % 2 ^ 64 }
  match s.select d.core with
  | some t => (s.give t d.core).answer (s.taskToken t)
  | none => none_ s

/-- TAKE (R365, R366): the token, or the wait for one, during which the PC stands at the TAKE. -/
def execTake (d : CoreInst) (s : State) : Host.Outcome State Fault Refusal :=
  ok (s.onCore d .take fun s => s.takeTask d fun s => s.modCore d.core fun c => { c with state := 2, since := s.now })

/-- TRYTAKE (R365): the token, or 0. -/
def execTryTake (d : CoreInst) (s : State) : Host.Outcome State Fault Refusal :=
  ok (s.onCore d .tryTake fun s => s.takeTask d fun s => (s.retire d.core 0).answer 0)

/-- READY (R362). -/
def execReady (d : CoreInst) (s : State) : Host.Outcome State Fault Refusal :=
  ok (s.onCore d .ready fun s => (s.opReady d.core 0 (instTask d)).stepPc d)

/-- DONE (R362). -/
def execDone (d : CoreInst) (s : State) : Host.Outcome State Fault Refusal :=
  ok (s.onCore d .done fun s => (s.opDone d.core (instTask d)).stepPc d)

/-- DEFER (R362, R367). -/
def execDefer (d : CoreInst) (s : State) : Host.Outcome State Fault Refusal :=
  ok (s.onCore d .defer_ fun s => (s.opDefer d.core (instTask d) (instReg d 20 d.rs2 % 2 ^ 32)).stepPc d)

/-! ## Tick (R367, R361) -/

/-- Insert a task by its deadline, after those of an equal one. -/
def State.byDeadline (s : State) (t : Nat) : List Nat → List Nat
  | [] => [t]
  | u :: l => if (s.task t).deadline < (s.task u).deadline then t :: u :: l else u :: s.byDeadline t l

/-- DISP_TICK (R367): another 1,000 ns of TB0 increments have passed. -/
def execDispTick (s : State) : Host.Outcome State Fault Refusal :=
  if s.now < s.badger.tickAt + 1000 then ok s
  else
    let s := s.modBg fun b => { b with tick := b.tick + 1, tickAt := b.tickAt + 1000 }
    let due := s.badger.delayed.filter (fun t => decide ((s.task t).deadline ≤ s.badger.tick))
    ok ((due.foldl (fun l t => s.byDeadline t l) []).foldl State.becomeReady s)

/-- HOLD_EXPIRY (R361): task `t` has been held for AFF_TICKS ticks. -/
def execHoldExpiry (t : Nat) (s : State) : Host.Outcome State Fault Refusal :=
  match (s.task t).held with
  | some h =>
    if h + s.fld Reg.DISP_CTRL 8 8 ≤ s.badger.tick then ok ((s.modTask t fun x => { x with held := none }).offerAll)
    else ok s
  | none => ok s

/-! ## Mailboxes (R369-R374) -/

/-- Mailbox `m`. -/
def State.mbox (s : State) (m : Nat) : Mbox := s.badger.boxes.get (fun _ => {}) m

/-- Change mailbox `m`; the host's mailbox interrupt follows (R373, R376). -/
def State.modMbox (s : State) (m : Nat) (f : Mbox → Mbox) : State :=
  s.modBg fun b => { b with boxes := b.boxes.set (fun _ => {}) m (f (s.mbox m)) }

/-- The receiver of mailbox `m`. -/
def State.receiver (s : State) (m : Nat) : Nat := s.fld (Reg.MB_CFG m) 0 4

/-- The reset epoch of an agent (R371). -/
def State.epochOf (s : State) (a : Nat) : Nat :=
  if a < 8 then (s.core a).epoch else if a = 8 then s.badger.hostEpoch else s.badger.dbgEpoch

/-- The receiver is a core that is OFF or in reset (R372). -/
def State.receiverDown (s : State) (m : Nat) : Bool :=
  let r := s.receiver m
  decide (r < 8) && (decide ((s.core r).state = 0) || decide ((s.dom (74 + r)).level = 3))

/-- STATUS (R370). -/
def State.mboxStatus (s : State) (m : Nat) : Nat :=
  let b := s.mbox m
  (if b.full then 2 ^ 63 else 0) + (if b.collision then 2 ^ 62 else 0) + (if b.lost then 2 ^ 61 else 0) +
    b.lostCount * 2 ^ 48 + b.senderEpoch * 2 ^ 40 + b.sender * 2 ^ 36 + s.receiver m * 2 ^ 32

/-- The wake event of a stored write (R373). -/
def State.wakeEvent (s0 : State) (m agent : Nat) (s : State) : State :=
  let r := s.receiver m
  if r < 8 then
    let s := s.wakeCore r
    if s.flag (Reg.MB_CFG m) 31 then s.opReady agent 4 (s.fld (Reg.MB_CFG m) 16 10) else s
  else s0.irqEdges s [12]

/-- The access reaches the port and mailbox window, unless its ring target is isolated (R385), or the host makes it during a SYSTEM
reset (R454). -/
def State.onWindow (s : State) (init : Initiator) (f : State → State) : State :=
  if s.hostDeaf init then s.answer 0 else if s.isolated 10 then s.busError else f s

/-- A write of WORD (R370, R372). A refused host write is posted: it is reported as a Completer Abort. -/
def State.mbWrite (s : State) (who : Initiator) (m : Nat) (w : W64) : State :=
  let a := agentOf who
  if s.receiverDown m then
    let s := s.record cRejected bMailbox 0x0B06 (a * 2 ^ 28 + s.receiver m * 2 ^ 24 + m)
    { (if who = .hostMmio then s.completerAbort else s) with bus := { data := 0, err := true } }
  else
    let b := s.mbox m
    let off := Reg.MB_COUNT m
    let t := s.count off 0 16 1
    let t := if b.full then
        let t := t.count off 16 16 1
        if b.collision then t else t.record cInfo bMailbox 0x0B05 (a * 2 ^ 28 + m)
      else t
    let t := t.modMbox m fun x => { x with
      word := w, full := true, sender := a, senderEpoch := s.epochOf a, collision := x.collision || x.full }
    { State.wakeEvent s m a t with bus := {} }

/-- A read of WORD (R370). -/
def State.mbRead (s : State) (who : Initiator) (m : Nat) : State :=
  if agentOf who ≠ s.receiver m then
    { s.record cRejected bMailbox 0x0B08 (agentOf who * 2 ^ 28 + m) with bus := {} }
  else if (s.mbox m).full then
    { s.modMbox m fun x => { x with full := false } with bus := { data := (s.mbox m).word.toNat } }
  else { s with bus := {} }

/-- A write of STATUS (R370). -/
def State.mbStatusWrite (s : State) (m v : Nat) : State :=
  { s.modMbox m fun x => { x with
      collision := x.collision && !v.testBit 62
      lost := x.lost && !v.testBit 61
      lostCount := if v.testBit 60 then 0 else x.lostCount } with bus := {} }

/-- WORD_WRITE (R370, R372). -/
def execWordWrite (who : Initiator) (m : Nat) (w : W64) (s : State) : Host.Outcome State Fault Refusal :=
  ok (s.onWindow who fun s => s.mbWrite who (m % 64) w)

/-- WORD_READ (R370). -/
def execWordRead (who : Initiator) (m : Nat) (s : State) : Host.Outcome State Fault Refusal :=
  ok (s.onWindow who fun s => s.mbRead who (m % 64))

/-- STATUS_WRITE (R370). -/
def execStatusWrite (who : Initiator) (m : Nat) (v : W64) (s : State) : Host.Outcome State Fault Refusal :=
  ok (s.onWindow who fun s => s.mbStatusWrite (m % 64) v.toNat)

/-- The words that mailboxes of a receiver core lose at its reset (R374). -/
def State.mboxReceiverReset (s : State) (k : Nat) : State :=
  (List.range 64).foldl (fun s m =>
    if s.receiver m = k ∧ (s.mbox m).full then
      (s.modMbox m fun x => { x with
        full := false, word := 0, lost := true, lostCount := satAdd 0xFF x.lostCount 1 }).record cInfo bMailbox 0x0B07
          (k * 2 ^ 24 + m)
    else s) s

/-! ## Core reset (R355, R356, R364) -/

/-- The caches of core `k` lose their content. -/
def State.dropCaches (s : State) (k : Nat) : State :=
  s.modBg fun b => { b with
    icache := b.icache.without (k * 2 ^ 34) ((k + 1) * 2 ^ 34)
    dcache := b.dcache.without (k * 2 ^ 34) ((k + 1) * 2 ^ 34) }

/-- The tasks that core `k` runs are orphaned (R364). -/
def State.orphan (s : State) (k : Nat) : State :=
  ((List.range 1024).filter (fun t => s.taskState t = 4 && (s.task t).core = k)).foldl (fun s t =>
    let s := (s.setFlag (Reg.DISP_STAT_T t) 27 true).modTask t fun x => { x with pending := false, last := none }
    ((s.record cInfo bBadger 0x0B03 (k * 2 ^ 28 + t)).raise 11 2).becomeReady t) s

/-- Where core `k` starts (R356). -/
def State.bootPc (s : State) (k : Nat) : Nat := s.rd (Reg.BG_BOOT_LO k) + 2 ^ 32 * s.fld (Reg.BG_BOOT_HI k) 0 8

/-- The Warden places core `k` in reset (R356), and releases it again where `run` says so. Its domain is in RUN, its idle time
beginning (R440), and the debug path has not halted it any more. -/
def State.resetCore (s : State) (k : Nat) (run : Bool) : State :=
  let s := s.dropCaches k
  let s := s.modCore k fun c => { epoch := (c.epoch + 1) % 256, state := if run then 1 else 0, pc := s.bootPc k }
  let s : State := { s with dbg := { s.dbg with halted := s.dbg.halted.filter (· ≠ k) } }
  let s := s.modSp fun x => { x with resumed := x.resumed.filter (· ≠ k) }
  let s := ((s.wakeCore k).mboxReceiverReset k).enterOrderly 2
  s.orphan k

/-! ## Register writes (R376) -/

/-- A write of a BADGER register. -/
def State.writeBadger (s : State) (init : Initiator) (off v : Nat) : State :=
  let rel := off - 0xB0_0000
  let k := rel / 0x10
  let t := (rel - 0x4000) / 0x10
  if rel < 0x80 ∧ rel % 0x10 = 0 then
    if isWarden init ∧ k = 0 ∧ s.anyCounts off v then s.reject bBadger 0x0B0B off
    else
      let ran := s.flag off 30
      let (done, s) := s.csrWrite init off v (fun _ => false) false 0x0B0B
      if !done then s
      else
        let s := s.setFlag off 31 false
        let run := s.flag off 30
        if v.testBit 31 || (ran && !run) then s.resetCore k run
        else if !ran && run then
          (s.modCore k fun c => { c with state := 1, pc := s.bootPc k, machine := true }).wakeCore k
        else s
  else if rel < 0x80 then
    (s.csrWrite init off v (fun _ => s.flag (Reg.BG_CORE_CTRL k) 30) false 0x0B0B).2
  else if off = Reg.DISP_CTRL then
    let was := s.orderly
    let (done, s) := s.csrWrite init off v (fun _ => false) false 0x0B0B
    if !done ∨ was = s.orderly then s
    else if s.orderly then
      (s.modBg fun b => { b with tasks := b.tasks.map (fun e => (e.1, { e.2 with held := none })) }).offerAll
    else (s.setFld Reg.DISP_STAT 29 3 0).offerAll
  else if off = Reg.DISP_READY then
    let (done, s) := s.csrWrite init off v (fun _ => false) false 0x0B0B
    if done then (s.wr off 0).opReady (agentOf init) 3 (v % 1024) else s
  else if 0x4000 ≤ rel ∧ rel < 0x8000 ∧ rel % 0x10 ≠ 0xC then
    (s.csrWrite init off v (fun _ => decide (1 < s.taskState t)) false 0x0B0B).2
  else (s.csrWrite init off v (fun _ => false) false 0x0B0B).2

/-- A write of a MAILBOX register (R374). -/
def State.writeMailbox (s : State) (init : Initiator) (off v : Nat) : State :=
  let m := (off - 0xC0_0000) / 0x10
  if m < 64 ∧ off % 0x10 = 0 then
    if ¬ (isWarden init ∨ agentOf init = 8) ∧ s.anyCounts off v then s.notWarden init off
    else s.irqEdges (s.csrWrite init off v (fun _ => (s.mbox m).full) false 0x0B0B).2 [12]
  else (s.csrWrite init off v (fun _ => false) false 0x0B0B).2

/-! ## Caches (R353, R354, R357) -/

/-- The key of a line in a core's cache. -/
def lineKey (k addr : Nat) : Nat := k * 2 ^ 34 + addr % 2 ^ 40 / 64

/-- Write back a data-cache line, where it is dirty. -/
def State.writeBack (s : State) (k addr : Nat) : State :=
  match s.badger.dcache.get (fun _ => none) (lineKey k addr) with
  | some l =>
    if l.dirty then
      (s.memWrite (.core k) (addr % 2 ^ 40 / 64 * 64) (bytesOfMap l.data 64)).2.modBg fun b => { b with
        dcache := b.dcache.set (fun _ => none) (lineKey k addr) (some { l with dirty := false }) }
    else s
  | none => s

/-- Invalidate a data-cache line. -/
def State.invalidate (s : State) (k addr : Nat) : State :=
  s.modBg fun b => { b with dcache := b.dcache.set (fun _ => none) (lineKey k addr) none }

/-- The address is cached for data (R353): DDR. -/
def cachedData (addr : Nat) : Bool := decide (addr % 2 ^ 40 < 2 ^ 38)

/-- The address is in the boot ROM, which is cached for instruction fetch (R353). -/
def bootRomAddr (addr : Nat) : Bool := decide (0x40_4000_0000 ≤ addr % 2 ^ 40) && decide (addr % 2 ^ 40 < 0x40_4004_0000)

/-- CLEAN (R357). -/
def execClean (d : CoreInst) (s : State) : Host.Outcome State Fault Refusal :=
  ok (s.onCore d .clean fun s => (if cachedData (instAddr d) then s.writeBack d.core (instAddr d) else s).stepPc d)

/-- CINV (R357). -/
def execCinv (d : CoreInst) (s : State) : Host.Outcome State Fault Refusal :=
  ok (s.onCore d .cinv fun s => (if cachedData (instAddr d) then s.invalidate d.core (instAddr d) else s).stepPc d)

/-- CFLUSH (R357). -/
def execCflush (d : CoreInst) (s : State) : Host.Outcome State Fault Refusal :=
  ok (s.onCore d .cflush fun s => (if cachedData (instAddr d) then (s.writeBack d.core (instAddr d)).invalidate d.core (instAddr d) else s).stepPc d)

/-- The access is to the data cache. -/
def dataSide (a : CacheAcc) : Bool := match a.op with | .load _ | .store _ => true | _ => false

/-- A cache of a core. -/
def State.cacheOf (s : State) (data : Bool) : Map (Option CacheLine) := if data then s.badger.dcache else s.badger.icache

/-- Put a line into a cache, or (none) take it out. -/
def State.setLine (s : State) (data : Bool) (key : Nat) (l : Option CacheLine) : State :=
  s.modBg fun b => if data then { b with dcache := b.dcache.set (fun _ => none) key l }
    else { b with icache := b.icache.set (fun _ => none) key l }

/-- BG_CACHE_CORRECTED (R354). -/
def State.cacheCorrected (s : State) (a : CacheAcc) : State :=
  ((s.record cCorrected bBadger 0x0B09 (a.core * 2 ^ 28 + (if (dataSide a) then 2 ^ 27 else 0) + a.index % 2 ^ 15)).count
    Reg.BG_CACHE_CNT (if (dataSide a) then 0 else 16) 16 1).raise 11 3

/-- A line leaves its cache, written back where it is dirty. -/
def State.evictLine (s : State) (a : CacheAcc) (addr : Nat) : State :=
  (if (dataSide a) then s.writeBack a.core addr else s).setLine (dataSide a) (lineKey a.core addr) none

/-- Room for one more line: the line that the replacement names leaves; a cache holds 512 lines of 64 bytes (R352), and where a full
one is to lose a line that nothing names, a free value chooses it (log 8). -/
def State.makeRoom (s : State) (a : CacheAcc) : State :=
  let s := match a.evict with
    | some e => s.evictLine a e
    | none => s
  let held := (s.cacheOf (dataSide a)).range (a.core * 2 ^ 34) ((a.core + 1) * 2 ^ 34)
  if held.length < 512 then s
  else
    let (x, s) := s.free
    s.evictLine a ((held.getD (x.toNat % held.length) (0, none)).1 % 2 ^ 34 * 64)

/-- The line of an access is in its cache; `true`: an error response leaves it out. A fetch takes the line from the core's own data
cache where that holds it, so that its own stores are visible to its fetch after FENCE.I (R353). -/
def State.fillLine (s : State) (a : CacheAcc) : Bool × State :=
  let key := lineKey a.core a.addr
  match (s.cacheOf (dataSide a)).get (fun _ => none) key with
  | some _ => (false, s)
  | none =>
    let s := s.makeRoom a
    match if (dataSide a) then none else s.badger.dcache.get (fun _ => none) key with
    | some l => (false, s.setLine (dataSide a) key (some { data := l.data, dirty := false }))
    | none => match s.memRead (.core a.core) (a.addr % 2 ^ 40 / 64 * 64) 64 with
      | (true, _, s) => (true, s)
      | (false, m, s) => (false, s.setLine (dataSide a) key (some { data := m, dirty := false }))

/-- What the check of the line finds (R354): the line is fetched again, or corrected in place. -/
def State.cacheUpset (s : State) (a : CacheAcc) : State :=
  match a.err with
  | none => s
  | some double =>
    let s := s.cacheCorrected a
    if !(dataSide a) || double then s.setLine (dataSide a) (lineKey a.core a.addr) none else s

/-- An access of a cached address: the data returned, or the store made; within one line (R353, R354). -/
def State.cacheMove (s : State) (a : CacheAcc) : State :=
  match (s.cacheUpset a).fillLine a with
  | (true, s) => s.busError
  | (false, s) =>
    match (s.cacheOf (dataSide a)).get (fun _ => none) (lineKey a.core a.addr), a.op with
    | some x, .store l =>
      let bytes := ((List.range l.length).zip l).filter (fun e => a.addr % 64 + e.1 < 64)
      (s.setLine true (lineKey a.core a.addr) (some
        { data := x.data.setAll (fun _ => 0) (bytes.map (fun e => (a.addr % 64 + e.1, e.2))), dirty := true })).answer 0
    | some x, .load n | some x, .fetch n =>
      s.answer (natOfBytes ((bytesOfMap x.data 64).drop (a.addr % 64) |>.take n))
    | _, _ => s

/-- CACHE_LINE_CHECK (R353, R354): an access of a core to one of its caches. Fetches outside DDR and the boot ROM pass the caches
by, as do loads and stores outside DDR, which other rows name. FENCE has nothing to do where accesses are made one after another;
FENCE.I empties the instruction cache. -/
def execCacheLineCheck (a : CacheAcc) (s : State) : Host.Outcome State Fault Refusal :=
  if ¬ s.coreExecutes a.core then ok s
  else match a.op with
    | .fence => ok s
    | .fenceI => ok (s.modBg fun b => { b with icache := b.icache.without (a.core * 2 ^ 34) ((a.core + 1) * 2 ^ 34) })
    | .fetch n =>
      if cachedData a.addr || bootRomAddr a.addr then ok (s.cacheMove a)
      else match s.memRead (.core a.core) (a.addr % 2 ^ 40) n with
        | (true, _, s) => ok s.busError
        | (false, m, s) => ok (s.answer (natOfBytes (bytesOfMap m n)))
    | _ =>
      let dirty : Bool := match s.badger.dcache.get (fun _ => none) (lineKey a.core a.addr) with | some l => l.dirty | none => false
      if !cachedData a.addr then ok s
      else if a.err = some true ∧ dirty then ok (s.fatal bBadger 0x0B0A (a.core * 2 ^ 28 + 2 ^ 27 + a.index % 2 ^ 15))
      else ok (s.cacheMove a)

/-! ## Interrupts of the cores (R366, R373, R474) -/

/-- The mailbox interrupt of core `k`: a mailbox that it receives is FULL, with IRQ_EN = 1 (R373, R474; that it lasts as the host's
does is DEDUCED, log 113). -/
def State.mailboxIrq (s : State) (k : Nat) : Bool :=
  (List.range 64).any fun m => s.receiver m = k && (s.mbox m).full && s.flag (Reg.MB_CFG m) 30

/-- The machine external interrupt of core `k` (R474): a source routed to it is asserted. -/
def State.externalIrq (s : State) (k : Nat) : Bool :=
  (List.range 20).any fun i => s.flag (Reg.INT_ROUTE i) k && s.asserted i

/-- The interrupt of mcause `cause` can be taken by core `k`: the two that the device raises only while they are asserted. -/
def State.irqOf (s : State) (k cause : Nat) : Bool :=
  match cause with | 11 => s.externalIrq k | 16 => s.mailboxIrq k | _ => true

/-- An enabled interrupt, which its trace port shows as taken, ends the wait of a core in TAKE, at which mepc then points, or in WFI,
and brings it back to RUN (R366, R375). -/
def State.interruptWait (s : State) (k : Nat) : TraceEv → State
  | .jump _ 2 cause =>
    if ((s.core k).state = 2 ∨ (s.core k).state = 3) ∧ s.irqOf k (cause % 64) then
      (s.modCore k fun c => { c with state := 1, mepc := c.pc, mcause := 2 ^ 63 + cause % 64 }).wakeCore k
    else s
  | _ => s

/-- SPOOR_PACKET (R417-R420, R424): core `k`'s trace port shows one event. -/
def execSpoorPacket (k : Nat) (ev : TraceEv) (pc : Nat) (machine : Bool) (s : State) :
    Host.Outcome State Fault Refusal :=
  ok ((s.interruptWait (k % 8) ev).coreTrace (k % 8) ev pc machine)

/-! ## What registers and the trace show -/

/-- BG_CORE_STAT[k]. -/
def State.coreStat (s : State) (k : Nat) : Nat :=
  let c := s.core k
  let lvl := (s.dom (74 + k)).level
  let power := if 2 ≤ lvl then lvl else if c.state = 2 ∨ c.state = 3 then 1 else 0
  c.state * 2 ^ 29 + power * 2 ^ 27 + (match c.task with | some t => 2 ^ 26 + t | none => 0)

/-- DISP_TASK[t].STAT. -/
def State.taskStat (s : State) (t : Nat) : Nat :=
  let x := s.task t
  s.taskState t * 2 ^ 29 + (if x.pending then 2 ^ 28 else 0) + (if s.flag (Reg.DISP_STAT_T t) 27 then 2 ^ 27 else 0) +
    (if x.held.isSome then 2 ^ 26 else 0) + x.last.getD 15 * 2 ^ 16

/-- MB_PEND of agent `a`: FULL of each mailbox it receives. -/
def State.mbPend (s : State) (a : Nat) : Nat :=
  (List.range 64).foldl (fun n m => if s.receiver m = a ∧ (s.mbox m).full then n + 2 ^ m else n) 0

end Sys2Proof.Machine
end

