-- ==== Sys2Proof/Machine/Release.lean ====
section
/-!
DEFINITION. The message-port rings (R249-R252), the sources that input windows present (R56, R97, R128), and what a
seal releases (R118, R197, R211, R227, R228).
-/

namespace Sys2Proof.Machine

/-! ## Message-port rings -/

/-- The address of the word at position `pos` of the ring whose MP_BASE_LO is `base` and whose CFG is `cfg`. -/
def State.mpAddr (s : State) (base cfg pos : Nat) : Nat :=
  s.rd64 base % 2 ^ 40 + pos % 2 ^ s.fld cfg 0 5 * 8

/-- An access of the message-port rings is made under the host's identity (R390; for DDR DEDUCED, log 16), but is not
the host's own at an address that is not there (R510). -/
def State.mpMissing (s : State) (addr : Nat) : Bool := decide (s.fuses.ddrBytes ≤ addr) && decide (addr < 2 ^ 38)

/-- The word a ring holds; none where the access gets an error response (R510). -/
def State.mpWord (s : State) (base cfg pos : Nat) : Option W64 × State :=
  let a := s.mpAddr base cfg pos
  if s.mpMissing a then (none, s.record cRejected bRing 0x0C01 a)
  else match s.memRead .hostMmio a 8 with
    | (false, m, s) => (some (BitVec.ofNat 64 (natOfBytes (bytesOfMap m 8))), s)
    | (true, _, s) => (none, s)

/-- Put a word into a ring; `true`: an error response, and the word is lost (R510). -/
def State.mpPut (s : State) (base cfg pos : Nat) (w : W64) : Bool × State :=
  let a := s.mpAddr base cfg pos
  if s.mpMissing a then (true, s.record cRejected bRing 0x0C01 a)
  else s.memWrite .hostMmio a (bytesOfNat w.toNat 8)

/-- Words a host-out channel holds. -/
def State.outHeld (s : State) (h : Nat) : Nat :=
  s.rd64 (Reg.MP_OUT_WRITE_POS_LO h) - s.rd64 (Reg.MP_OUT_READ_POS_LO h)

/-- The floor F of a host-in channel (R250). -/
def State.inFloor (s : State) (h : Nat) : Nat :=
  let r := s.rd64 (Reg.MP_IN_RELEASE_POS_LO h)
  if s.flag (Reg.MP_IN_CFG h) 30 then min r (s.host.keep.get (fun _ => 0) h) else r

/-- CREDIT (R250). -/
def State.inCredit (s : State) (h : Nat) : Nat :=
  2 ^ s.fld (Reg.MP_IN_CFG h) 0 5 - (s.rd64 (Reg.MP_IN_WRITE_POS_LO h) - s.inFloor h)

/-- Words pushed in one cycle reach host-out channel `h` (R251, R252). -/
def State.deliverOut (s : State) (h : Nat) (words : List W64) : State :=
  let cfg := Reg.MP_OUT_CFG h
  if words.isEmpty ∨ ¬ s.flag cfg 31 then s
  else
    let drop := s.flag cfg 30
    let limit := if drop then 2 ^ s.fld cfg 0 5 - s.outHeld h else s.fld cfg 16 7
    let kept := words.take limit
    let lost := words.length - kept.length
    let p := s.rd64 (Reg.MP_OUT_WRITE_POS_LO h)
    let (n, s) := kept.foldl (fun (acc : Nat × State) w =>
      match acc.2.mpPut (Reg.MP_OUT_BASE_LO h) cfg (p + acc.1) w with
      | (false, s) => (acc.1 + 1, s)
      | (true, s) => (acc.1, s.count (Reg.MP_OUT_DROPPED h) 0 32 1)) (0, s)
    let s := s.wr64 (Reg.MP_OUT_WRITE_POS_LO h) (p + n)
    let s := if n = 0 then s else s.raise 3 (16 + h)
    if lost = 0 then s
    else if drop then
      let s := s.count (Reg.MP_OUT_DROPPED h) 0 32 lost
      if s.flag Reg.MP_INT_STAT h then s else (s.record cInfo bRunctl 0x0609 h).raise 3 h
    else
      (s.count (Reg.MP_OUT_EXCESS h) 0 32 lost).record cConfig bRunctl 0x060A (min lost 255 * 2 ^ 24 + h)

/-- The pushed words of a sealed cycle reach the host-out channels; in REPLAYING they are discarded (R142, R251). -/
def State.releaseHostOut (s : State) (rec : CycleRec) : State :=
  if s.rc.state = .replaying then s
  else (List.range 16).foldl (fun s h =>
    s.deliverOut h ((rec.out.filter (fun o => o.channel = h)).map (fun o => o.word))) s

/-! ## Sources of the input windows (R56, R95, R97, R142) -/

/-- In REPLAYING, position `p` of source `src` lies in the ingress log (R142). -/
def State.logged (s : State) (src p : Nat) : Bool :=
  decide (s.rc.state ≠ .replaying) || decide (p < s.rc.liveLimit.get (fun _ => 0) src)

/-- In REPLAYING, a cycle start finds the host-in word at position `p` at the head of channel `h` only where the original
execution of that cycle had it there (R100; DEDUCED, log 81). -/
def State.seenBy (s : State) (h p : Nat) : Bool :=
  let k := s.rc.seenAt.get (fun _ => 0) (h * 2 ^ 64 + p)
  decide (s.rc.state ≠ .replaying) || (decide (k ≠ 0) && decide (k ≤ s.rc.ecn + 1))

/-- The head word of source `src` with its position: host-in channel 0-15, or Lynx channel 16-23, which at a cycle start
(`waitp` false) must present it. In REPLAYING only logged words count (R142). A word that cannot be read presents as no
head word (R510). -/
def State.headWord (s : State) (src : Nat) (waitp : Bool) : Option (Nat × W64) × State :=
  if src < 16 then
    let p := s.rd64 (Reg.MP_IN_HEAD_POS_LO src)
    if s.flag (Reg.MP_IN_CFG src) 31 && decide (p < s.rd64 (Reg.MP_IN_WRITE_POS_LO src)) && s.logged src p &&
        (waitp || s.seenBy src p) then
      let (w, s) := s.mpWord (Reg.MP_IN_BASE_LO src) (Reg.MP_IN_CFG src) p
      (w.map fun w => (p, w), s)
    else (none, s)
  else if src < 24 then
    let (h, s) := s.lxHead (src - 16) waitp
    (h.filter fun x => s.logged src x.1, s)
  else (none, s)

/-- A cycle start of a live run notes which host-in word it finds at the head of channel `h`, and the lowest such cycle
(log 81). -/
def State.noteSeen (s : State) (h p : Nat) : State :=
  let k := h * 2 ^ 64 + p
  let old := s.rc.seenAt.get (fun _ => 0) k
  if s.rc.state = .replaying ∨ (old ≠ 0 ∧ old ≤ s.rc.ecn + 1) then s
  else s.modRc fun r => { r with seenAt := r.seenAt.set (fun _ => 0) k (r.ecn + 1) }

/-- A consumed word is released from its source at the seal (R117, R249); `sealNext` is the cycle sealed. -/
def State.releaseWord (s : State) (src : Nat) : State :=
  if src < 16 then s.wr64 (Reg.MP_IN_RELEASE_POS_LO src) (s.rd64 (Reg.MP_IN_RELEASE_POS_LO src) + 1)
  else s.lynxRelease (src - 16) s.rc.sealNext

/-! ## Ports and maps at a seal -/

/-- The words of a FORERUNNER port at the seal of cycle `n`: those held toward the PY-7208 may be sent, those from it
are kept no longer (R227, R228). -/
def State.releaseForerunner (s : State) (n : Nat) : State :=
  { s with links := s.links.map (fun e =>
      let l := e.2
      let gone := (l.frRecv.filter (fun w => w.cycle ≤ n)).length
      (e.1, { l with
        framer := l.framer ++ l.frSend.filter (fun w => w.cycle ≤ n)
        frSend := l.frSend.filter (fun w => n < w.cycle)
        frRecv := l.frRecv.filter (fun w => n < w.cycle)
        frDone := l.frDone - gone })) }

/-- The old map bank becomes the shadow once E - 1 is sealed (R211). -/
def State.retireMap (s : State) (n : Nat) : State :=
  match s.net.retiring with
  | some e => if e ≤ n + 1 then { s with net := { s.net with retiring := none, shadowReady := false } } else s
  | none => s

/-- The shadow bank becomes active (R211). -/
def State.swapBanks (s : State) : State :=
  ({ s with net := { s.net with
    active := s.net.shadow, shadow := s.net.active, activeBank := 1 - s.net.activeBank, armed := none
    shadowReady := false } }).raise 6 5

/-- The cycle start of the E of an armed swap (R211). -/
def State.swapAt (s : State) (n : Nat) : State :=
  match s.net.armed with
  | some e =>
    if n < e then s
    else
      let s := s.swapBanks
      let s := { s with net := { s.net with retiring := some e } }
      if e ≤ s.rc.sealNext then s.retireMap (e - 1) else s
  | none => s

/-- The lines and ECN of a system trigger pass to the trigger sequencer, the lines as external events (R222, R311). -/
def State.systemTriggerIn (s : State) (lines ecn : Nat) : State :=
  (List.range 8).foldl (fun s i => if lines.testBit i then s.acqEvent (48 + i) else s)
    { s with acq := { s.acq with sysIn := some (lines, ecn) } }

/-- Free places of a port's framer queue of 512 words (R197); toward a PY-7208 of its 16,384-word buffer (R227). -/
def State.framerRoom (s : State) (p : Nat) : Nat :=
  let l := s.link p
  if s.fld (Reg.PORT_CFG p) 12 2 = 2 then
    16384 - (l.frSend.length + l.framer.length + (l.replay.map (fun f => f.words.length)).sum)
  else 512 - l.framer.length

/-- The framer queue of a port is full. -/
def State.framerFull (s : State) (p : Nat) : Bool := decide (s.framerRoom p = 0)

/-- The DDR address of an XQ write (R155). -/
def State.xqAddr (s : State) (w : XqWrite) : Nat :=
  s.fld (Reg.XQ_REGION_BASE w.cluster w.region) 0 26 * 4096 + w.word * 8

/-- The pending store has too little room for another cycle (R120, R121). -/
def State.pendingLacks (s : State) : Bool :=
  decide (262144 - s.rc.pendingStore.length < s.nClusters * s.cycleLen)

end Sys2Proof.Machine
end

