-- ==== Sys2Proof/Machine/Tree.lean ====
section
/-!
DEFINITION. The control trees (chapter 08, "The control trees"; R125, R133, R141): what a device does on each
down set, what a root does with each upward report, rollback (R57, R126), seal (R16 orders 9 and 10), halt (R133).

Order of definition follows what causes what: triggers, halts, aborts, seals, schedule pauses, replays.
-/

namespace Sys2Proof.Machine

/-! ## Stalls on record (R37, R40) -/

/-- The number k of STALL_EVENTS[k] and STALL_NS[k]. -/
def StallCause.k : StallCause → Nat
  | .inbox => 0 | .waitq => 1 | .waitp => 2 | .send => 3

/-- Put the stall of a cluster on record, or change the cause shown, dividing the time (R37, R40). The time
of a cause is added as it ceases to be shown (DESIGN CHOICE, log 82: R40 does not say when). -/
def State.noteStall (s : State) (c : Nat) (cause : StallCause) (index : Nat) : State :=
  match (s.cl c).stall with
  | none =>
    let s := s.count (Reg.STALL_EVENTS c cause.k) 0 32 1
    (s.modCl c fun cl => { cl with stall := some ⟨cause, cause, index, s.now, s.now, false⟩ }).fabEvent 1 c index cause.k
  | some st =>
    if st.cause = cause ∧ st.index = index then s
    else
      let s := s.count (Reg.STALL_NS c st.cause.k) 0 32 (s.now - st.shown)
      s.modCl c fun cl => { cl with stall := some { st with cause := cause, index := index, shown := s.now } }

/-- The stall of a cluster ends (R40). -/
def State.endStall (s : State) (c : Nat) : State :=
  match (s.cl c).stall with
  | none => s
  | some st =>
    let s := s.count (Reg.STALL_NS c st.cause.k) 0 32 (s.now - st.shown)
    (s.modCl c fun cl => { cl with stall := none }).fabEvent 2 c (s.now - st.began) st.first.k

/-! ## Rollback -/

/-- What a cluster keeps between cycles: its window bindings, without words, and the count of its XQ requests, by which a
late response is told apart (R85, R126). -/
def clusterKeep (e : Nat × Cluster) : Option (Nat × Cluster) :=
  let v : Cluster := {
    windows := e.2.windows.filterMap (fun w =>
      if w.2.source = 0x3F then none else some (w.1, { source := w.2.source }))
    xqSerial := e.2.xqSerial }
  if v = {} then none else some (e.1, v)

/-- The fabric actions of R57: the clusters stop at a step boundary, the inbox empties, waiting arrivals, send
records, scratch valid bits and NEAR results go, and the assembly words with them. -/
def State.fabricReset (s : State) : State :=
  { s with
    clusters := s.clusters.filterMap clusterKeep
    inbox := []
    held := []
    probes := []
    fabTrig := []
    net := { s.net with assembly := [] } }

/-- A word consumed returns to the head of its source (R126). -/
def State.unpop (s : State) (src : Nat) : State :=
  if src < 16 then s.wr64 (Reg.MP_IN_HEAD_POS_LO src) (s.rd64 (Reg.MP_IN_HEAD_POS_LO src) - 1)
  else s.lynxUnpop (src - 16)

/-- Every cluster stands at a step boundary: no step is open (R57). -/
def State.atBoundary (s : State) : Bool := s.clusters.all (fun e => !e.2.opened)

/-- Roll back to the start of cycle `n` (R126); the clusters stand at a step boundary. Stalls and waits end, their time
counted (R40). CR_COMMITTED keeps the latest cycle committed, be it discarded (DESIGN CHOICE, log 82). ABORT_STAT counts the
rollback here, at order 5 of R125, each of an extended abort and those of a pause and a halt among them (DESIGN CHOICE,
log 111: R132 counts at order 8, R145 the rollbacks performed). -/
def State.rollbackTo (s0 : State) (n : Nat) : State :=
  let s := ((s0.clusters.map (·.1)).foldl State.endStall s0).cutWaits
  let gone := s.rc.unsealed.filter (fun r => n ≤ r.ecn)
  let start := s.cycleRec n
  let undo := (gone.reverse.map (fun r => r.undo)).flatten
  let s1 : State := { s with
    dmb := undo.foldl (fun m (e : Nat × Nat × W64) => m.set (fun _ => 0) (e.1 * 32768 + e.2.1) e.2.2) s.dmb
    acc := match start with | some r => r.acc | none => s.acc }
  let s2 := (gone.reverse.map (fun r => r.popped)).flatten.foldl State.unpop s1
  let s3 := s2.modRc fun r => { r with
    pendingStore := r.pendingStore.filter (fun w => w.ecn < n)
    curBank := match start with | some x => x.bank | none => r.curBank
    unsealed := r.unsealed.filter (fun x => x.ecn < n)
    ecn := n
    begun := false
    stepping := false
    unsaid := if n ≤ s.latestBegun then 0 else r.unsaid
    snap := match r.snap with | some j => if n ≤ j.ecn then none else some j | none => none }
  let s4 := { s3.fabricReset with net := { s3.fabricReset.net with
    childA := s3.net.childA.map (fun (e : Nat × Nat) => (e.1, min e.2 n))
    childB := s3.net.childB.map (fun (e : Nat × Nat) => (e.1, min e.2 n))
    sentUp := s3.net.sentUp.map (fun (e : Nat × Nat) => (e.1, min e.2 n)) } }
  let s5 := if s.rc.snap.isSome && s4.rc.snap.isNone then s4.setFlag Reg.SNAP_STATUS 31 false else s4
  let s6 := (s5.lynxRollback n).acqRollback n gone
  let s7 := { s6 with links := s6.links.map (fun (e : Nat × Link) => (e.1, { e.2 with
    frSend := e.2.frSend.filter (fun (w : SlotWord) => w.cycle < n)
    frDone := min (e.2.frRecv.filter (fun (w : SlotWord) => w.cycle < n)).length e.2.frDone })) }
  (s7.wr64 Reg.ABORT_ECN_LO n).count Reg.ABORT_STAT 16 8 1

/-! ## System triggers (R222) -/

/-- The four keys of a device that follow `q` in its turn of eight are forgotten: they come next as new triggers. -/
def State.forgetTriggers (s : State) (dev q : Nat) : State :=
  { s with net := { s.net with acted := s.net.acted.filter (fun a =>
      ¬ ((a.1 % 256 = 0x28 ∨ a.1 % 256 = 0x29) ∧ a.2.1 % 8192 = dev
        ∧ 1 ≤ (a.2.1 / 8192 + 8 - q % 8) % 8 ∧ (a.2.1 / 8192 + 8 - q % 8) % 8 ≤ 4)) } }

/-- A received TRIGGER passes its lines once to the trigger sequencer. -/
def State.actTrigger (s : State) (ecn origin seq lines : Nat) : State :=
  let m := Msg.trigger ecn origin seq lines
  if s.acted m 0 then s
  else
    let s := ((s.forgetTriggers origin seq).act m 0).systemTriggerIn lines ecn
    if origin = s.devId then
      { s with net := { s.net with trigOut := s.net.trigOut.filter (· ≠ seq) } }
    else s

/-- The root takes TRIGGER_UP and broadcasts TRIGGER on its tree; another device passes it up. -/
def State.triggerUp (s : State) (t ecn origin seq lines : Nat) : State :=
  if s.isRoot t then
    if s.acted (.triggerUp ecn origin seq lines) t then s
    else
      ((s.act (.triggerUp ecn origin seq lines) t).sendDown t (.trigger ecn origin seq lines)).actTrigger
        ecn origin seq lines
  else s.sendUp t (.triggerUp ecn origin seq lines)

/-- Send the oldest waiting trigger, unless the TRIGGER for the one eight before it, whose number it takes, has yet to reach
this device. -/
def State.launchTrigger (s : State) : State :=
  match s.net.trigWait with
  | [] => s
  | (lines, ecn) :: rest =>
    if s.net.trigOut.contains s.net.trigSeq then s
    else
      let q := s.net.trigSeq
      let s := { s with net := { s.net with
        trigWait := rest, trigSeq := (q + 1) % 8, trigOut := s.net.trigOut ++ [q]
        acted := s.net.acted.filter (fun a =>
          ¬ ((a.1 % 256 = 0x28 ∨ a.1 % 256 = 0x29) ∧ a.2.1 = q * 8192 + s.devId)) } }
      (s.triggerUp 0 ecn s.devId q lines).triggerUp 1 ecn s.devId q lines

/-- A device raises a system trigger (R222): the ninth waits. -/
def State.raiseTrigger (s : State) (lines ecn : Nat) : State :=
  { s with net := { s.net with trigWait := s.net.trigWait ++ [(lines, ecn)] } }.launchTrigger

/-! ## Halt (R133) -/

/-- SCH_RECORDS_SUPPRESSED for the faults of the latest cycle begun that no record tells of yet (R109): at its commit, and
for faults that come after the commit before the next cycle begins, at a pause or a halt (DESIGN CHOICE, log 83). -/
def State.sayFaults (s : State) (n : Nat) : State :=
  if s.rc.unsaid = 0 then s
  else (s.recordAt cSchedule bFabric 0x017F (min 0xFFFF s.rc.unsaid) n).modRc fun r => { r with unsaid := 0 }

/-- The device enters HALTED: rolled back, but for a device in LOADED, which rolls back nothing and writes 0 to HALT_ECN
(R133 order 3, R224). The dispatcher enters ORDERLY (R360). -/
def State.enterHalted (s : State) : State :=
  let h := if s.rc.state = .loaded then 0 else s.rc.sealNext
  let isHalt := s.rc.cmd.any fun c => decide (c.code = 0x14)
  let s := if s.rc.state = .loaded then s else s.rollbackTo s.rc.sealNext
  let s := s.sayFaults s.latestBegun
  let s := s.wr64 Reg.HALT_ECN_LO h
  let s := s.recordAt cInfo bRunctl 0x0208 h s.latestBegun
  let s := if isHalt then s.modRc fun r => { r with cmd := none } else s.cancelCmd
  let s := (s.modRc fun r => { r with
    state := .halted, abort := none, resume := none, stop := none, schedPause := none, stopLow := false
    pauseAt := none, snap := none, rewind := none, rewindGone := false, halting := false }).setFlag Reg.SNAP_STATUS 31 false
  let s := s.raise 2 3
  let s := { s with net := { s.net with repeats := [], rolledA := [], rolledB := [], rewindA := [], rewindB := [] } }
  let s := s.sendFrHalt
  (if isHalt then (s.wr64 Reg.CMD_ACTED_LO h).cmdStatus 2 0x14 else s).enterOrderly 2

/-- Order 3 of R133 on this device. In IDLE and LOADING nothing happens (R240). Where cycles run, the clusters are to stop
at their next step boundary; the rollback comes then. -/
def State.haltHere (s : State) : State :=
  match s.rc.state with
  | .idle | .loading | .fatal | .halted => s
  | .running | .replaying => s.modRc fun r => { r with halting := true }
  | .loaded | .paused => s.enterHalted

/-- The device takes SYSTEM_HALT, or DEVICE_DOWN: it forwards SYSTEM_HALT on every SYSTEM port and halts. -/
def State.actSystemHalt (s : State) (gen ecn dev : Nat) : State :=
  let m := Msg.systemHalt ecn dev
  let s := s.answered 0x18
  if s.rc.state = .fatal ∨ s.acted m gen then s
  else
    let s := s.act m gen
    let s := s.emit (((s.upPorts 0).filter s.portSends).map fun p => .set p 0 1 s.net.gen m)
    (s.setFence ecn).haltHere

/-- The root takes a halt report and broadcasts SYSTEM_HALT(h), h the lowest cycle it has not sealed; another
device passes the report up. -/
def State.haltReport (s : State) (t gen dev : Nat) : State :=
  if s.rc.state = .fatal then s
  else if s.isRoot t then
    let m := Msg.systemHalt s.rc.sealNext dev
    if s.acted m gen then s else (s.castDown m).actSystemHalt gen s.rc.sealNext dev
  else
    let s := s.sendUpAs t gen (.haltReport dev)
    if s.acted (.systemHalt 0 dev) gen then s else s.await t (.haltReport dev)

/-- This device asks for a halt of the system without entering FATAL (R248, LANE_PORT_LOST, NET_FR_HALT). -/
def State.askHalt (s : State) : State :=
  let g := s.net.gen
  s.bothTrees fun s t => s.haltReport t g s.devId

/-! ## Schedule stops held (R110-R113) -/

/-- The faulting cycle of the lowest schedule stop or pause held: n of a stop for n, or of a pause with target n + 1. -/
def RunCtl.stopCycle (r : RunCtl) : Option Nat :=
  match r.stop, r.schedPause with
  | some m, some p => some (min m (p - 1))
  | some m, none => some m
  | none, some p => some (p - 1)
  | none, none => none

/-- The cycle at whose start the stop makes this device pause: n + 1, or n once an abort has discarded n (R113). -/
def RunCtl.pausePoint (r : RunCtl) : Option Nat := r.stopCycle.map fun n => if r.stopLow then n else n + 1

/-- The cycle in progress, or one above the pause, is to be discarded for a schedule pause (R110 order 4). -/
def State.pauseDue (s : State) : Bool :=
  s.rc.pausePoint.any fun p => decide (p < s.rc.ecn) || (decide (p = s.rc.ecn) && s.rc.begun)

/-- ABORT(n) discards the faulting cycle of a schedule stop held: the pause is at the start of that cycle, which
is not executed again before it (R113). -/
def State.lowerStop (s : State) (n : Nat) : State :=
  if s.rc.stopCycle.any (fun m => decide (n ≤ m)) then s.modRc fun r => { r with stopLow := true } else s

/-- A schedule stop for cycle `n`, of this device or by a pause with target n + 1, is held with those there are: where it
is the lowest, the pause is at the start of n if an abort in progress discards n (R112, R113). -/
def RunCtl.holdStop (r : RunCtl) (n : Nat) : RunCtl :=
  if r.stopCycle.any (fun m => decide (m ≤ n)) then r
  else { r with stopLow := r.abort.any (fun a => a.received && decide (a.n ≤ n)) }

/-! ## Abort (R125, R130, R131) -/

/-- An abort stops the cycle in progress at its next step boundary; a cycle below that of the abort goes on to its
commit (R125 orders 2 and 4). -/
def State.aborting (s : State) : Bool := s.rc.abort.any (fun a => decide (a.n ≤ s.rc.ecn))

/-- No step of the cycle in progress begins: an abort, a schedule pause or a halt stops the clusters at their next step
boundary (R110, R125, R133). -/
def State.stopping (s : State) : Bool := s.aborting || s.pauseDue || s.rc.halting

/-- A device takes ABORT(n): it is to stop at its next step boundary, or to finish n - 1, and roll back. A sealed cycle is
not undone (R20), nor does an abort of an older run or of a discarded cycle count (log 80). -/
def State.actAbort (s : State) (gen n : Nat) : State :=
  let s := s.answered 0x12
  if s.acted (.abort n) gen ∨ ¬ s.live ∨ ¬ s.current gen n ∨ n < s.rc.sealNext then s
  else
    let s := (s.act (.abort n) gen).setFence n
    let lower := s.rc.abort.any (fun a => a.received && decide (n < a.n))
    let s := if lower then s.answered 0x14 else s
    let a : Abort := match s.rc.abort with
      | none => { n := n, since := s.now, received := true }
      | some a =>
        if !a.received then { a with n := n, received := true }
        else if n < a.n then { a with n := n, rolled := false, extendedFrom := some (a.extendedFrom.getD a.n) }
        else a
    ((s.modRc fun r => { r with abort := some a }).lowerStop n).fabEvent 5 64 n 0

/-- A tree root counts the ABORT(n) that it is to broadcast on its trees, as `cast` does; a third for one cycle it does not
broadcast, but halts the system (R131). -/
def State.castAbort (s : State) (n : Nat) (cast : State → State) : State :=
  let k := (s.net.aborts.find? (fun a => a.1 = n)).map (·.2) |>.getD 0
  if 2 ≤ k then s.fatal bRunctl 0x0205 n
  else cast { s with net := { s.net with aborts := (n, k + 1) :: s.net.aborts.filter (fun a => a.1 ≠ n) } }

/-- The root takes ABORT_UP(n): it broadcasts ABORT for the lowest cycle named; another device passes it up. -/
def State.abortUp (s : State) (t gen n dev : Nat) : State :=
  if s.isRoot t then
    if s.acted (.abort n) s.net.gen ∨ ¬ s.live ∨ ¬ s.current gen n ∨ n < s.rc.sealNext ∨
        s.rc.abort.any (fun a => a.received && decide (a.n ≤ n)) then s
    else s.castAbort n fun s => (s.castDown (.abort n)).actAbort s.net.gen n
  else
    let s := s.sendUpAs t gen (.abortUp n dev)
    if s.acted (.abort n) gen then s else s.await t (.abortUp n dev)

/-- Orders 1 and 2 of R125: this device detects a fault of cycle `n` and sends ABORT(n). -/
def State.sendAbort (s : State) (n : Nat) : State :=
  let s := s.count Reg.ABORT_STAT 24 8 1
  let s := if s.rc.abort.isSome then s
    else s.modRc fun r => { r with abort := some { n := n, since := s.now, received := false } }
  let g := s.net.gen
  s.bothTrees fun s t => s.abortUp t g n s.devId

/-- A fault of cycle `n` that its block assigns to replay (R124): ABORT(n), or, where COMMITTED(n) has been sent,
the FATAL record CR_LATE_FAULT (R17, R133). -/
def State.replayFault (s : State) (n code : Nat) : State :=
  if (s.cycleRec n).any (fun r => r.committedAt.isSome) ∨ n < s.rc.sealNext then s.fatal bRunctl 0x0209 code
  else s.sendAbort n

/-! ## Pauses -/

/-- The device enters PAUSED with `p` as the next cycle (R110 order 6, R141 order 6, R245). A pause that lands on
REPLAY_LIMIT in REPLAYING ends the re-run (R240, R255). A pending command takes effect or is cancelled (R245, R246). -/
def State.enterPaused (s : State) (p : Nat) : State :=
  let cmd := s.rc.cmd
  let ends := s.rc.state = .replaying ∧ p = s.rd64 Reg.REPLAY_LIMIT_LO
  let s := s.cutWaits.sayFaults s.latestBegun
  let s := if ends then (s.raise 1 4).modRc fun r => { r with inReplay := false } else s
  let s := s.modRc fun r => { r with
    state := .paused, pauseAt := none, stop := none, schedPause := none, stopLow := false, abort := none
    resume := none, begun := false }
  let s := { s with net := { s.net with repeats := s.net.repeats.filter (fun r => r.2.typ = 0x18) } }
  let s := s.raise 2 2
  match cmd with
  | some c =>
    if (c.code = 0x12 ∧ c.target = p) ∨ (c.code = 0x11 ∧ c.target + c.param = p) then
      ((s.modRc fun r => { r with cmd := none }).wr64 Reg.CMD_ACTED_LO c.target).cmdStatus 2 c.code
    else s.cancelCmd
  | none => s

/-- The pause of a schedule stop is asked for: the pause received is for the lowest faulting cycle held. -/
def RunCtl.schedAt (r : RunCtl) : Option Nat :=
  if r.schedPause = r.stopCycle.map (· + 1) then r.pausePoint else none

/-- With a pause armed, the device enters PAUSED once every cycle below it is sealed (R245, R110, R113); an abort at or
below it ends first, and the rollback of any abort received. -/
def State.checkPause (s : State) : State :=
  if !s.live || s.rc.begun || s.rc.halting then s
  else
    let p := match s.rc.schedAt, s.rc.pauseAt with
      | some q, some r => some (min q r)
      | some q, none => some q
      | none, r => r
    let held (p : Nat) : Bool := s.rc.abort.any (fun a => decide (a.n ≤ p) || (a.received && !a.rolled))
    match p with
    | some p => if s.rc.ecn = p ∧ p ≤ s.rc.sealNext ∧ held p = false then s.enterPaused p else s
    | none => s

/-! ## Seal (R16 orders 9 and 10, R218) -/

/-- Release the held effects of cycle `n` and discard what it kept (R16 orders 9 and 10, R117). -/
def State.sealOne (s : State) (n : Nat) : State :=
  match s.cycleRec n with
  | none => s.modRc fun r => { r with sealNext := max r.sealNext (n + 1) }
  | some rec =>
    let s := (s.releaseHostOut rec).releaseLynx rec
    let sys := s.acqSys n
    let s := s.releaseAcq rec
    let s := if sys = 0 then s else s.raiseTrigger sys n
    let s := rec.popped.foldl State.releaseWord s
    let s := match rec.committedAt with
      | some t =>
        let d := min 0xFFFF ((s.now - t) / 10)
        (s.setFld Reg.SEAL_RTT 0 16 d).setFld Reg.SEAL_RTT 16 16 (max d (s.fld Reg.SEAL_RTT 16 16))
      | none => s
    let s := s.modRc fun r => { r with
      sealNext := n + 1
      unsealed := r.unsealed.filter (fun x => x.ecn ≠ n)
      latch := r.latch.filter (fun e => e.ecn ≠ n) }
    let s := (s.releaseForerunner n).retireMap n
    (s.wr64 Reg.CR_SEALED_LO n).fabEvent 4 64 n 0

/-- Seal every cycle through `w` this device has committed, in ECN order (R18, R218). -/
def State.sealTo : Nat → State → Nat → State
  | 0, s, _ => s
  | k + 1, s, w => if s.rc.sealNext ≤ w ∧ s.rc.sealNext < s.rc.ecn then sealTo k (s.sealOne s.rc.sealNext) w else s

/-- A device takes GLOBAL_SEAL(w). A seal seals every cycle through it; it is never undone by an abort (R20). -/
def State.actSeal (s : State) (w : Nat) : State :=
  if ¬ s.live then s
  else
    let s := State.sealTo (w + 1 - s.rc.sealNext) s w
    let s := { s with net := { s.net with
      lastSealUp := max s.net.lastSealUp (w + 1)
      aborts := s.net.aborts.filter (fun a => w < a.1) } }
    s.checkPause

/-- One above the latest cycle for which this device has sent, or is to send, COMMITTED (R17). -/
def State.committedUpTo (s : State) : Nat :=
  match s.rc.unsealed.find? (fun r => r.committedAt.isNone) with
  | some r => r.ecn
  | none => s.rc.ecn

/-- One above the subtree watermark of tree `t` (R218): the lower of this device's and each child's. -/
def State.subtree (s : State) (t : Nat) : Nat :=
  (s.children t).foldl (fun m p =>
    min m ((if t = 0 then s.net.childA else s.net.childB).get (fun _ => 0) p)) s.committedUpTo

/-- The watermark of tree `t` may have risen: a root seals through it, another device sends it up. -/
def State.watermark (s : State) (t : Nat) : State :=
  let m := s.subtree t
  if m ≤ s.rc.runStart then s
  else if s.isRoot t then
    let m := match s.rc.abort with | some a => min m a.n | none => m
    if s.net.lastSealUp < m then (s.castDown (.globalSeal (m - 1))).actSeal (m - 1) else s
  else if s.net.sentUp.get (fun _ => 0) t < m then
    { s with net := { s.net with sentUp := s.net.sentUp.set (fun _ => 0) t m } }.sendUp t (.committed (m - 1))
  else s

/-! ## Schedule stops (R110-R113) -/

/-- A device takes a schedule pause at `target`, unless it holds one as low or the pause belongs to an earlier run: cycles
at or above it are to be discarded (R110 order 4). -/
def State.actSchedPause (s : State) (gen target : Nat) : State :=
  let s := s.answered 0x16
  if ¬ s.live ∨ ¬ s.current gen (target - 1) ∨ s.rc.schedPause.any (fun q => decide (q ≤ target)) then s
  else
    let s := s.setFence target
    (s.modRc fun r => { r.holdStop (target - 1) with schedPause := some target }).checkPause

/-- The root takes a schedule-stop report for cycle `n`, keeping the lowest (R112): it pauses the system at
`n + 1`, answers again a report of the cycle it pauses for, and discards one above; another device passes the report up. -/
def State.schedStopUp (s : State) (t gen n dev : Nat) : State :=
  if s.isRoot t then
    if ¬ s.live ∨ ¬ s.current gen n ∨ s.rc.schedPause.any (fun p => decide (p ≤ n)) then s
    else if s.rc.schedPause = some (n + 1) then s.sendDown t (.schedPause (n + 1))
    else (s.castDown (.schedPause (n + 1))).actSchedPause s.net.gen (n + 1)
  else
    let s := s.sendUpAs t gen (.schedStop n dev)
    if s.rc.schedPause.any (fun p => decide (p ≤ n + 1)) then s else s.await t (.schedStop n dev)

/-- A SCHEDULE fault of the cycle (R107-R110): at most 16 records a cycle, the rest counted; the stop is raised
in either case. -/
def State.schedFault (s : State) (source code detail : Nat) : State :=
  let n := s.latestBegun
  let k := s.rc.faults.get (fun _ => 0) n
  let s := if k < 16 then s.recordAt cSchedule source code detail n
    else s.modRc fun r => { r with unsaid := r.unsaid + 1 }
  let s := s.modRc fun r => { r with faults := r.faults.set (fun _ => 0) n (k + 1) }
  if s.rc.stop.any (fun m => decide (m ≤ n)) then s
  else
    let s := s.modRc fun r => { r.holdStop n with stop := some n }
    let g := s.net.gen
    s.bothTrees fun s t => s.schedStopUp t g n s.devId

/-! ## Replay (R125 orders 6 to 8) -/

/-- A device takes REPLAY_GO(n): GEN advances, the trace shows REPLAY (R418), and it may begin the replay of `n`; its records
tell of the abort at its own start of that cycle (R132). -/
def State.actReplayGo (s : State) (n gen : Nat) : State :=
  if gen % 16 ≠ (s.net.gen + 1) % 16 ∨ ¬ s.live then s
  else
    let s := ((s.answered 0x14).answered 0x12).advanceGen gen
    let s := { s with net := { s.net with rolledA := [], rolledB := [] } }
    ((s.modRc fun r => { r with
      abort := none, resume := r.abort.map fun a => { a with n := n } }).fabEvent 6 64 n 0).checkPause

/-- The replay begins: its records, the interruption of this device and the interrupt (R132). A device that pauses in its
place tells of none (DEDUCED, log 84). -/
def State.noteReplay (s : State) : State :=
  match s.rc.resume with
  | none => s
  | some a =>
    let ns := s.now - a.since
    let s := s.modRc fun r => { r with resume := none }
    let s := s.recordAt cInfo bRunctl 0x0201 (min a.discarded 15 <<< 28 + min ns 0xFFF_FFFF) a.n
    let s := (s.setFld Reg.ABORT_STAT 0 16 (min 0xFFFF (ns / 10))).raise 1 0
    match a.extendedFrom with
    | some m => s.recordAt cInfo bRunctl 0x0202 m a.n
    | none => s

/-- The root holds ROLLED_BACK(n) of the present generation from itself and every child: it broadcasts REPLAY_GO(n), unless
a schedule stop makes the system pause below `n` (R113); another device whose subtree has rolled back sends it up. -/
def State.rolledBackUp (s : State) (t gen child n : Nat) : State :=
  if gen ≠ s.net.gen ∨ ¬ s.live then s
  else
    let l := if t = 0 then s.net.rolledA else s.net.rolledB
    let l := (child, n) :: l.filter (fun e => e.1 ≠ child)
    let s := if t = 0 then { s with net := { s.net with rolledA := l } }
             else { s with net := { s.net with rolledB := l } }
    if (8 :: s.children t).all (fun p => l.contains (p, n)) then
      if s.isRoot t then
        let go := Msg.replayGo n ((s.net.gen + 1) % 16)
        if s.rc.abort.any (fun a => a.received && decide (a.n = n)) ∧ ¬ s.rc.halting ∧
            ¬ s.rc.pausePoint.any (fun p => decide (p < n)) then
          (s.castDown go).actReplayGo n ((s.net.gen + 1) % 16)
        else s
      else (s.sendUp t (.rolledBack n)).await t (.rolledBack n)
    else s

end Sys2Proof.Machine
end

