-- ==== Sys2Proof/Machine/Operands.lean ====
section
/-!
DEFINITION. Every operand form of the step instructions (R69-R75), the request words (R147), and what a step
reads. The forms of the tree sets and registers are in Tree.lean and Registers.lean.
-/

namespace Sys2Proof.Machine

/-! ## The fields of a step instruction (R69) -/

/-- OP. -/
def wOp (w : W96) : Nat := bits w.toNat 92 4
/-- TT. -/
def wTt (w : W96) : Nat := bits w.toNat 76 16
/-- Operand k: 0 A, 1 B, 2 C, 3 D. -/
def wOperand (w : W96) (k : Nat) : Nat := bits w.toNat (63 - 13 * k) 13
/-- DEST. -/
def wDest (w : W96) : Nat := bits w.toNat 12 12
/-- AUX. -/
def wAux (w : W96) : Nat := bits w.toNat 0 12

/-- The opcode evaluates its truth table (R76). -/
def opEvaluates (op : Nat) : Bool := decide ((1 ≤ op ∧ op ≤ 7) ∨ op = 0xA ∨ op = 0xE)

/-- IMEM word `step` of BP `bp` of cluster `c`. -/
def State.word (s : State) (c step bp : Nat) : W96 :=
  s.imem.get (fun _ => 0) ((c * 2048 + step) * 256 + bp)

/-- The words of step `step` of cluster `c` that are not NOP, with their BPs, of the BPs that have not ended. -/
def State.busyWords (s : State) (c step : Nat) : List (Nat × W96) :=
  let lo := (c * 2048 + step) * 256
  ((s.imem.range lo (lo + 256)).filter (fun e => wOp e.2 ≠ 0 ∧ !(s.cl c).ended.contains (e.1 - lo))).map
    (fun e => (e.1 - lo, e.2))

/-- The first step from `from` on, below L, with a word that is not NOP for a BP that has not ended: the steps
between hold only NOP, which has no effect (R81), and pass with time. -/
def State.nextBusy (s : State) (c start : Nat) : Option Nat :=
  let lo := (c * 2048 + start) * 256
  let hi := (c * 2048 + s.cycleLen) * 256
  ((s.imem.range lo hi).find? (fun e => wOp e.2 ≠ 0 ∧ !(s.cl c).ended.contains (e.1 % 256))).map
    (fun e => e.1 / 256 - c * 2048)

/-! ## The send map (R196) -/

/-- A send-map entry as the fields R196 names. -/
inductive SendTo where
  | invalid
  | inbox (cluster bit : Nat)
  | port (p slot bit : Nat)
  deriving DecidableEq, Repr

/-- The map bank that serves cycle `n` (R211): the old bank below an armed or retiring E. -/
def State.bankFor (s : State) (n : Nat) : MapBank :=
  match s.net.armed, s.net.retiring with
  | some e, _ => if n < e then s.net.active else s.net.shadow
  | none, some e => if n < e then s.net.shadow else s.net.active
  | none, none => s.net.active

/-- Where the send map sends outbox bit `e` of cluster `c` in cycle `n`; not valid in the cases of R196. -/
def State.sendTo (s : State) (n c e : Nat) : SendTo :=
  let v := ((s.bankFor n).send.get (fun _ => 0) (c * 4096 + e)).toNat
  if !v.testBit 31 then .invalid
  else if !v.testBit 30 then
    if bits v 11 6 < s.nClusters then .inbox (bits v 11 6) (bits v 0 11) else .invalid
  else
    let p := bits v 22 3
    let role := s.fld (Reg.PORT_CFG p) 12 2
    if role = 0 ∨ (role = 2 ∧ bits v 6 16 ≤ 4095) then .port p (bits v 6 16) (bits v 0 6) else .invalid

/-- The expected mask of the assembly word of a port and slot (R197): the BITs of every valid KIND 1 entry. -/
def State.expectedMask (s : State) (n p slot : Nat) : W64 :=
  (s.bankFor n).send.foldl (fun m e =>
    if s.sendTo n (e.1 / 4096) (e.1 % 4096) = .port p slot (bits e.2.toNat 0 6)
    then m ||| BitVec.ofNat 64 (2 ^ bits e.2.toNat 0 6) else m) 0

/-! ## Arrivals (R49-R54) -/

/-- The inbox epoch (R51): the lowest uncommitted cycle modulo 4. -/
def State.epoch (s : State) : Nat := s.rc.ecn % 4

/-- The FULL entries of an inbox bit. -/
def State.entries (s : State) (c b : Nat) : List (Nat × Bool) := s.inbox.get (fun _ => []) (c * 2048 + b)

/-- How an arrival tagged `t` at an inbox bit is handled (R51). -/
inductive Arrival where
  | stored | waits | stale
  deriving DecidableEq, Repr

/-- Judge an arrival (R51): current or ahead is stored where an entry of its tag is FULL or an entry is EMPTY. -/
def State.judgeArrival (s : State) (c b t : Nat) : Arrival :=
  let d := (t + 4 - s.epoch) % 4
  if d = 3 then .stale
  else if d = 2 then .waits
  else
    let l := s.entries c b
    if l.any (fun e => e.1 = t) ∨ l.length < 2 then .stored else .waits

/-- Store an arrival: an arrival whose tag equals that of a FULL entry replaces its value. -/
def State.storeArrival (s : State) (c b t : Nat) (v : Bool) : State :=
  let l := (s.entries c b).filter (fun e => e.1 ≠ t)
  { s with inbox := s.inbox.set (fun _ => []) (c * 2048 + b) (l ++ [(t, v)]) }

/-- The value an inbox read of the present cycle returns, when its entry is there (R54). -/
def State.inboxValue (s : State) (c b : Nat) : Option Bool :=
  ((s.entries c b).find? (fun e => e.1 = s.epoch)).map (·.2)

/-! ## Operand values (R72-R74, R101) -/

/-- What DMRESP shows at `step` (R88): the response that became readable last; an arithmetic response hides a DMB
response of the same step. -/
def dmrespAt (l : List DmResp) (step : Nat) : W128 :=
  (l.foldl (fun (best : Nat × Bool × W128) r =>
    if r.readable ≤ step ∧ (best.1 < r.readable ∨ (best.1 = r.readable ∧ (r.arith ∨ !best.2.1)))
    then (r.readable, r.arith, r.value) else best) (0, false, 0)).2.2

/-- The kinds of SCH_RESERVED (R108). -/
inductive OpFault where
  | unwritten          -- 0x0102
  | reservedSpace      -- 0x0107 kind 1
  | reservedSpecial    -- 0x0107 kind 2
  | demandEmpty (w : Nat)  -- 0x0106
  deriving DecidableEq, Repr

/-- The value of one operand of BP `bp` of cluster `c` at its present step, and the fault it raises (R72, R73). -/
def State.operand (s : State) (c bp x : Nat) : Bool × Option OpFault :=
  let cl := s.cl c
  let i := bits x 0 11
  match bits x 11 2 with
  | 0 =>
    if i.testBit 10 then (false, some .reservedSpace)
    else match cl.scratch.get (fun _ => none) (bp * 1024 + i) with
      | some v => (v, none)
      | none => (false, some .unwritten)
  | 1 => if i < 256 then ((cl.near.find? (fun e => e.1 = i)).map (·.2) |>.getD false, none)
         else (false, some .reservedSpace)
  | 2 => ((cl.inboxRead.find? (fun e => e.1 = i)).map (·.2) |>.getD false, none)
  | _ =>
    if i = 0 then (false, none)
    else if i = 1 then (true, none)
    else if i = 2 then (decide (s.rc.first = some s.rc.ecn), none)
    else if i = 4 then (s.rc.ecn.testBit 0, none)
    else if 0x100 ≤ i ∧ i < 0x200 then
      ((s.bank s.rc.curBank).get (fun _ => false) ((c * 256 + bp) * 256 + (i - 0x100)), none)
    else if 0x200 ≤ i ∧ i < 0x280 then ((dmrespAt cl.dmFlight cl.step).toNat.testBit (i - 0x200), none)
    else if 0x280 ≤ i ∧ i < 0x300 then (cl.xqResp.toNat.testBit (i - 0x280), none)
    else if 0x400 ≤ i then
      let w := (i - 0x400) / 64
      let win := cl.windows.get (fun _ => {}) w
      match win.word with
      | some v => (v.toNat.testBit ((i - 0x400) % 64), none)
      | none =>
        if 16 ≤ win.source ∧ win.source < 24 ∧ s.lynxDemand (win.source - 16) then (false, some (.demandEmpty w))
        else (false, none)
    else (false, some .reservedSpecial)

/-- f of an evaluating instruction (R71). -/
def evalTt (tt : Nat) (a b c d : Bool) : Bool :=
  tt.testBit (d.toNat * 8 + c.toNat * 4 + b.toNat * 2 + a.toNat)

/-! ## Request words (R147-R149, R161) -/

/-- A request word as issued: bits with a clear flag are 0 (R84). -/
def wordOf (m : Map (Option Deposit)) (lo width : Nat) : Nat :=
  m.foldl (fun n e => match e.2 with
    | some d => if lo ≤ e.1 ∧ e.1 < lo + width ∧ d.val then n + 2 ^ (e.1 - lo) else n
    | none => n) 0

/-- Bit `i` of a request word is deposited. -/
def deposited (m : Map (Option Deposit)) (i : Nat) : Bool := (m.get (fun _ => none) i).isSome

/-- How many of the bits of a list are not deposited. -/
def missing (m : Map (Option Deposit)) (l : List Nat) : Nat := (l.filter (fun i => !deposited m i)).length

/-- `n` numbers from `lo` up. -/
def upFrom (lo n : Nat) : List Nat := (List.range n).map (· + lo)

/-- The WDATA bits of the bytes whose BE bit is 1 (R149). -/
def wdataBits (be : Nat) : List Nat :=
  ((List.range 8).filter (fun k => be.testBit k)).flatMap (fun k => upFrom (32 + 8 * k) 8)

/-- How many required bits of a DMB GO are missing (R149). -/
def dmMissing (m : Map (Option Deposit)) : Nat :=
  let rw := missing m [127, 126]
  if rw ≠ 0 then rw
  else
    let r := wordOf m 127 1; let w := wordOf m 126 1
    (if r + w = 0 then 0 else missing m (upFrom 0 15)) +
      (if w = 0 then 0 else missing m (upFrom 96 8) + missing m (wdataBits (wordOf m 96 8)))

/-- How many required bits of an XQ GO are missing, `k` being SIZE_LOG2 of the region named (R149). -/
def xqMissing (m : Map (Option Deposit)) (k : Nat) : Nat :=
  let rw := missing m [127, 126]
  if rw ≠ 0 then rw
  else
    let r := wordOf m 127 1; let w := wordOf m 126 1
    let region := missing m (upFrom 104 4)
    (if r + w = 0 then 0
     else missing m (upFrom 112 5) + region + (if region = 0 then missing m (upFrom 0 k) else 0)) +
      (if w = 0 then 0 else missing m (upFrom 96 8) + missing m (wdataBits (wordOf m 96 8)))

/-- The required bits of an arithmetic GO of a mode (R161): X in 0-53, Y in 64-117. -/
def arRequired (mode : Nat) : List Nat :=
  if mode = 0 ∨ mode = 3 then [53, 117] else [26, 53, 90, 117]

/-! ## The arithmetic unit (R162) -/

/-- A field of `w` bits read as signed or unsigned. -/
def readSigned (signed : Bool) (v lo w : Nat) : Int :=
  let x := bits v lo w
  if signed ∧ x.testBit (w - 1) then (x : Int) - 2 ^ w else x

/-- An integer in two's complement at `w` bits. -/
def toField (w : Nat) (x : Int) : Nat := (x % (2 ^ w : Int)).toNat

/-- The result of an arithmetic mode in DMRESP, and the new accumulator (R162). -/
def arith (mode : Nat) (signed : Bool) (x y : Nat) (acc : W128) : W128 × W128 :=
  let f (v lo w : Nat) := readSigned signed v lo w
  let g (v lo w : Nat) := readSigned true v lo w
  match mode with
  | 0 => let r := BitVec.ofNat 128 (toField 128 (f x 0 54 * f y 0 54)); (r, r)
  | 1 => (BitVec.ofNat 128 (toField 64 (f x 0 27 * f y 0 27) + 2 ^ 64 * toField 64 (f x 27 27 * f y 27 27)), acc)
  | 2 =>
    let a := g x 0 27; let b := g x 27 27; let c := g y 0 27; let d := g y 27 27
    (BitVec.ofNat 128 (toField 64 (a * c - b * d) + 2 ^ 64 * toField 64 (a * d + b * c)), acc)
  | 3 => let r := acc + BitVec.ofNat 128 (toField 128 (f x 0 54 * f y 0 54)); (r, r)
  | _ => (BitVec.ofNat 128 (toField 128 (f x 0 27 * f y 0 27 + f x 27 27 * f y 27 27)), acc)

end Sys2Proof.Machine
end

