-- ==== Sys2Proof/Machine/Fabric.lean ====
section
/-!
DEFINITION. The step instructions (chapters 02 and 03): one Boolean processor executing its instruction of the
present step, the stall check that opens a step, and the end of a step.

A step opens when the first of its BPs executes: the stall conditions of R37 are checked over all 256 BPs, and the
inbox bits the step reads are read then (R78 phase 1). It ends when every BP whose word is not NOP and that has
not executed END has executed it: then GO and PUSH act, tags retire and NEAR results pass on (R78 phases 4, 5).
Steps that hold only NOP words pass with time (R81; log 10).
-/

namespace Sys2Proof.Machine

/-! ## Faults at an instruction (R108) -/

/-- The common layout of a SCHEDULE detail. -/
def detailAt (c bp step low : Nat) : Nat := c <<< 26 + bp <<< 18 + step <<< 7 + low

/-- Raise SCH_RESERVED of a kind (R108). -/
def State.schReserved (s : State) (c bp kind pos : Nat) : State :=
  s.schedFault bFabric 0x0107 (detailAt c bp (s.cl c).step (kind <<< 4 + pos <<< 2))

/-- Raise the fault an operand read met. -/
def State.operandFault (s : State) (c bp pos : Nat) : OpFault → State
  | .unwritten => s.schedFault bFabric 0x0102 (detailAt c bp (s.cl c).step (pos <<< 5))
  | .reservedSpace => s.schReserved c bp 1 pos
  | .reservedSpecial => s.schReserved c bp 2 pos
  | .demandEmpty w => s.schedFault bFabric 0x0106 (detailAt c bp (s.cl c).step (pos <<< 5 + w <<< 1))

/-! ## Stalls (R37, R40) -/

/-- The send of the BP's outbox bit comes first in the cycle (R50): no earlier step sent it, and no lower BP of
this step sends it (log 11). -/
def State.sendsFirst (s : State) (c bp e : Nat) : Bool :=
  !(s.cl c).sent.contains e &&
    !((s.busyWords c (s.cl c).step).any (fun w => w.1 < bp ∧ wOp w.2 = 2 ∧ wAux w.2 = e))

/-- The assembly bits that the first SENDs of the present step of cluster `c` are still to send: key port * 65536 + slot,
and bit. -/
def State.portSendsOf (s : State) (c : Nat) : List (Nat × Nat) :=
  (s.busyWords c (s.cl c).step).filterMap fun e =>
    if wOp e.2 = 2 ∧ s.sendsFirst c e.1 (wAux e.2) then
      match s.sendTo s.rc.ecn c (wAux e.2) with
      | .port p slot b => some (p * 65536 + slot, b)
      | _ => none
    else none

/-- The assembly words (key port * 65536 + slot) that the bits `l` complete. -/
def State.completes (s : State) (l : List (Nat × Nat)) : List Nat :=
  (l.map (·.1)).eraseDups.filter fun k =>
    let (_, sent) := (s.net.assembly.get (fun _ => none) k).getD (0, 0)
    let all := (l.filter (·.1 = k)).foldl (fun m e => m ||| BitVec.ofNat 64 (2 ^ e.2)) sent
    all = s.expectedMask s.rc.ecn (k / 65536) (k % 65536)

/-- A SEND of the step that cluster `c` is to open cannot be accepted now (R37, R53, R82, R197, R227). The SENDs of a step
are judged together, with those of the steps already open: where the words they complete for a port outnumber the free
places of its framer queue, each SEND to such a word waits. -/
def State.sendBlocked (s : State) (c e : Nat) : Bool :=
  match s.sendTo s.rc.ecn c e with
  | .invalid => false
  | .inbox d b => s.enabled d && decide (s.judgeArrival d b (s.rc.ecn % 4) = .waits)
  | .port p slot _ =>
    let others := (s.clusters.filter fun x => x.2.opened && decide (x.1 ≠ c)).flatMap fun x => s.portSendsOf x.1
    let done := (s.completes (s.portSendsOf c ++ others)).filter (· / 65536 = p)
    done.contains (p * 65536 + slot) && decide (s.framerRoom p < done.length)

/-- The stall conditions one BP's instruction meets (R37), with the object of each; an instruction that waits for several
inbox bits shows that of its first operand (DESIGN CHOICE, log 82: R37 names only the BP). -/
def State.stallsOf (s : State) (c bp : Nat) (w : W96) : List (StallCause × Nat) :=
  let cl := s.cl c
  let op := wOp w
  (if opEvaluates op then
    (List.range 4).filterMap (fun k =>
      let x := wOperand w k
      if bits x 11 2 = 2 ∧ (s.inboxValue c (bits x 0 11)).isNone then some (StallCause.inbox, bits x 0 11) else none)
   else []) ++
  (if op = 8 then
    match cl.tags.get (fun _ => none) (bits (wAux w) 0 5) with
    | some t => if t.fromStep ≤ cl.step ∧ !t.arrived then [(StallCause.waitq, bits (wAux w) 0 5)] else []
    | none => []
   else []) ++
  (if op = 9 ∧ (cl.windows.get (fun _ => {}) (bits (wAux w) 0 4)).word.isNone
   then [(StallCause.waitp, bits (wAux w) 0 4)] else []) ++
  (if op = 2 ∧ s.sendsFirst c bp (wAux w) ∧ s.sendBlocked c (wAux w) then [(StallCause.send, wAux w)] else [])

/-- The cause and index shown for a set of conditions: the first cause in the order of R37, its lowest BP. -/
def shownStall (l : List (StallCause × Nat)) : Option (StallCause × Nat) :=
  match l.find? (fun e => e.1 = .inbox), l.find? (fun e => e.1 = .waitq),
        l.find? (fun e => e.1 = .waitp), l.find? (fun e => e.1 = .send) with
  | some e, _, _, _ => some e
  | none, some e, _, _ => some e
  | none, none, some e, _ => some e
  | none, none, none, e => e

/-- Every WAITP of the step whose window is bound and empty latches its source's head word, if there is one
(R95). -/
def State.latchWaitp (s : State) (c : Nat) : State :=
  (s.busyWords c (s.cl c).step).foldl (fun s e =>
    if wOp e.2 = 9 then
      let i := bits (wAux e.2) 0 4
      let win := (s.cl c).windows.get (fun _ => {}) i
      match win.word with
      | some _ => s
      | none =>
        match s.headWord win.source true with
        | (some (seq, v), s) => s.modCl c fun cl => { cl with
            windows := cl.windows.set (fun _ => {}) i { win with word := some v, seq := seq } }
        | (none, s) => s
    else s) s

/-- The sources of which those WAITPs read the head word. -/
def State.waitpSources (s : State) (c : Nat) : List Nat :=
  (s.busyWords c (s.cl c).step).filterMap fun e =>
    let win := (s.cl c).windows.get (fun _ => {}) (bits (wAux e.2) 0 4)
    if wOp e.2 = 9 ∧ win.word.isNone then some win.source else none

/-- Open the present step of a cluster: check every stall condition (R37), and, where none holds, read the inbox
bits the step reads (R78 phase 1). `errs` are the soft errors that the reads of a WAITP find. -/
def State.openStep (s : State) (c : Nat) (errs : List EccErr) : State :=
  let s := (s.latchWaitp c).lxHeadErrors (s.waitpSources c) errs
  let words := s.busyWords c (s.cl c).step
  match shownStall (words.flatMap (fun e => s.stallsOf c e.1 e.2)) with
  | some (cause, index) => s.noteStall c cause index
  | none =>
    let reads := (words.filter (fun e => opEvaluates (wOp e.2))).flatMap (fun e =>
      (List.range 4).filterMap (fun k =>
        let x := wOperand e.2 k
        if bits x 11 2 = 2 then some (bits x 0 11, (s.inboxValue c (bits x 0 11)).getD false) else none))
    (s.endStall c).modCl c fun cl => { cl with opened := true, inboxRead := reads }

/-! ## Soft errors (R59-R62, R152) -/

/-- The number of a memory in the detail of records 0x0180-0x0182. -/
def eccMemNum : EccMem → Nat
  | .imem => 0 | .state => 1 | .scratch => 2 | .inbox => 3 | .outbox => 4 | .dmb => 5 | .lynxIn | .map | .held => 6

/-- The detail of a fabric ECC record, or of a DMB one. -/
def eccDetail (e : EccErr) : Nat :=
  match e.mem with
  | .dmb => e.cluster <<< 26 + e.word
  | .inbox | .outbox => e.cluster <<< 26 + eccMemNum e.mem <<< 23 + e.word
  | _ => e.cluster <<< 26 + eccMemNum e.mem <<< 23 + e.bp <<< 15 + e.word

/-- Count a corrected error in ECC_CNT. -/
def State.countEcc (s : State) (e : EccErr) : State :=
  match e.mem with
  | .imem => s.count (Reg.ECC_CNT e.cluster) 24 8 1
  | .state => s.count (Reg.ECC_CNT e.cluster) 16 8 1
  | .scratch => s.count (Reg.ECC_CNT e.cluster) 8 8 1
  | .inbox | .outbox => s.count (Reg.ECC_CNT e.cluster) 0 8 1
  | .dmb | .lynxIn | .map | .held => s

/-- A soft error in a map of the system network (R231): corrected on read, or FATAL. -/
def State.mapUpset (s : State) (port : Nat) (double : Bool) : State :=
  if double then s.fatal bSysnet 0x050A (port * 2 ^ 29 + 2 * 2 ^ 27)
  else s.record cCorrected bSysnet 0x0509 (port * 2 ^ 29 + 2 * 2 ^ 27)

/-- A soft error in a word that cycle `n` uses: corrected and replayed (R60, R152), or FATAL (R62). Inbox and
outbox words carry parity only, so they have no uncorrectable error. -/
def State.upset (s : State) (n : Nat) (e : EccErr) : State :=
  if e.mem = .lynxIn ∨ e.mem = .held then s
  else if e.mem = .map then s.mapUpset (e.word % 8) e.double
  else if e.double ∧ e.mem ≠ .inbox ∧ e.mem ≠ .outbox then
    if e.mem = .dmb then s.fatal bDmemq 0x0303 (eccDetail e) else s.fatal bFabric 0x0182 (eccDetail e)
  else
    let s := s.countEcc e
    if e.mem = .dmb then (s.recordAt cCorrected bDmemq 0x0302 (eccDetail e) n).replayFault n 0x0302
    else ((s.recordAt cCorrected bFabric 0x0181 (eccDetail e) n).raise 0 1).replayFault n 0x0181

/-- A soft error where no running cycle uses the word: corrected in place without an abort (R61, R152), or FATAL. -/
def State.idleUpset (s : State) (e : EccErr) : State :=
  if e.mem = .lynxIn ∨ e.mem = .held then s
  else if e.mem = .map then s.mapUpset (e.word % 8) e.double
  else if e.double then
    if e.mem = .dmb then s.fatal bDmemq 0x0303 (eccDetail e) else s.fatal bFabric 0x0182 (eccDetail e)
  else
    let s := s.countEcc e
    if e.mem = .dmb then (s.record cCorrected bDmemq 0x0301 (eccDetail e)).raise 4 0
    else (s.record cCorrected bFabric 0x0180 (eccDetail e)).raise 0 0

/-! ## The parts of an instruction -/

/-- Write f to DEST (R75). -/
def State.put (s : State) (c bp dest : Nat) (f : Bool) : State :=
  match bits dest 10 2 with
  | 0 => s.modCl c fun cl => { cl with scratch := cl.scratch.set (fun _ => none) (bp * 1024 + bits dest 0 10) (some f) }
  | 1 =>
    if bits dest 8 2 = 0 then
      s.modCl c fun cl => { cl with next := cl.next.set (fun _ => none) (bp * 256 + bits dest 0 8) (some f) }
    else s.schReserved c bp 3 0
  | 2 => s
  | _ => s.schReserved c bp 3 0

/-- The value f of BP `bp`'s instruction (R71). -/
def State.evalWord (s : State) (c bp : Nat) (w : W96) : Bool :=
  let v (k : Nat) := (s.operand c bp (wOperand w k)).1
  evalTt (wTt w) (v 0) (v 1) (v 2) (v 3)

/-- `result(w)` of the spec's pseudocode: evaluate, raise the operand faults, put f on NEAR and to DEST. -/
def State.result (s : State) (c bp : Nat) (w : W96) : State :=
  let f := s.evalWord c bp w
  let s1 := (List.range 4).foldl (fun t k =>
    match (s.operand c bp (wOperand w k)).2 with
    | some e => t.operandFault c bp k e
    | none => t) s
  (s1.modCl c fun cl => { cl with nearNext := cl.nearNext ++ [(bp, f)] }).put c bp (wDest w) f

/-- Deposit f into bit `i` of a word of the cluster (R79): at one step the lowest BP's value is taken, and each
deposit not taken raises SCH_DUP_DEPOSIT; a later step replaces the value. -/
def depositIn (m : Map (Option Deposit)) (c step bp i : Nat) (f : Bool) : Map (Option Deposit) × Option Nat :=
  match m.get (fun _ => none) i with
  | some d =>
    if d.step = step then
      if d.bp < bp then (m, some bp) else (m.set (fun _ => none) i (some ⟨f, c, step, bp⟩), some d.bp)
    else (m.set (fun _ => none) i (some ⟨f, c, step, bp⟩), none)
  | none => (m.set (fun _ => none) i (some ⟨f, c, step, bp⟩), none)

/-- Raise SCH_DUP_DEPOSIT for the BP whose deposit was not taken. -/
def State.dupDeposit (s : State) (c kind : Nat) : Option Nat → State
  | some b => s.schedFault bFabric 0x0103 (detailAt c b (s.cl c).step (kind <<< 5))
  | none => s

/-- Deposit into a device-wide probe or trigger bit (R80): lowest cluster, then latest step, then lowest BP. -/
def depositDevice (m : Map (Option Deposit)) (c step bp i : Nat) (f : Bool) : Map (Option Deposit) :=
  let new : Option Deposit := some ⟨f, c, step, bp⟩
  match m.get (fun _ => none) i with
  | some d =>
    if c < d.cluster ∨ (c = d.cluster ∧ (d.step < step ∨ (d.step = step ∧ bp < d.bp)))
    then m.set (fun _ => none) i new else m
  | none => m.set (fun _ => none) i new

/-! ## Sends (R49, R50, R82, R197) -/

/-- A completed or flushed assembly word enters the framer queue of its port (R197, R198); toward a PY-7208
every word is FULL and is held until its seal (R227). -/
def State.frameWord (s : State) (p slot : Nat) (mask word : W64) : State :=
  let w : SlotWord := ⟨p, slot, s.rc.ecn, s.net.gen, mask = BitVec.allOnes 64, mask, word, true⟩
  if s.fld (Reg.PORT_CFG p) 12 2 = 2 then
    s.modLink p fun l => { l with frSend := l.frSend ++ [{ w with full := true, mask := BitVec.allOnes 64 }] }
  else s.modLink p fun l => { l with framer := l.framer ++ [w] }

/-- Deliver outbox bit `e` with value f (R82): the destination's inbox bit, or the assembly word of its slot. -/
def State.deliver (s : State) (c e : Nat) (f : Bool) : State :=
  match s.sendTo s.rc.ecn c e with
  | .invalid => s
  | .inbox d b =>
    let t := s.rc.ecn % 4
    if !s.enabled d then s
    else match s.judgeArrival d b t with
    | .stored => s.storeArrival d b t f
    | .waits => s
    | .stale => s.schedFault bFabric 0x0101 (d <<< 26 + b <<< 15 + t <<< 13 + s.epoch <<< 11 + c)
  | .port p slot b =>
    let k := p * 65536 + slot
    let (v, m) := (s.net.assembly.get (fun _ => none) k).getD (0, 0)
    let bit : W64 := BitVec.ofNat 64 (2 ^ b)
    let v := if f then v ||| bit else v &&& ~~~bit
    let m := m ||| bit
    let exp := s.expectedMask s.rc.ecn p slot
    let s := { s with net := { s.net with assembly := s.net.assembly.set (fun _ => none) k (some (v, m)) } }
    if m = exp then s.frameWord p slot exp v else s

/-- The words of incomplete assembly words with a bit sent are framed as MASKED (R198). -/
def State.flushAssembly (s : State) : State :=
  let l := s.net.assembly
  l.foldl (fun s e => match e.2 with
    | some (v, m) =>
      if m = s.expectedMask s.rc.ecn (e.1 / 65536) (e.1 % 65536) then s
      else s.frameWord (e.1 / 65536) (e.1 % 65536) m v
    | none => s) s

/-! ## GO (R84, R85, R147-R163) -/

/-- Issue the DMB request of a step (R84, R150, R151). -/
def State.goDmb (s : State) (c : Nat) : State :=
  match (s.cl c).goDm with
  | [] => s
  | b :: bs =>
    let cl := s.cl c
    let m := cl.dmReq
    let bp := bs.foldl min b
    if dmMissing m ≠ 0 then
      s.schedFault bFabric 0x0104 (detailAt c bp cl.step (min 31 (dmMissing m)))
    else
      let a := wordOf m 0 15
      let r := wordOf m 127 1; let w := wordOf m 126 1
      let old := s.dmb.get (fun _ => 0) (c * 32768 + a)
      s.modCl c fun cl => { cl with
        dmReq := []
        dmFlight := if r = 1 then cl.dmFlight ++ [⟨cl.step + 4, false, old.setWidth 128⟩] else cl.dmFlight
        dmLog := if w = 1 then cl.dmLog ++ [(a, wordOf m 96 8, BitVec.ofNat 64 (wordOf m 32 64))] else cl.dmLog }

/-- The overlay of the pending store over DDR for word `word` of region `r` of cluster `c`: committed cycles below
the reading one, the newest entry of each byte winning (R120, R157). Answers the word and whether any byte came
from the store. -/
def State.forwarded (s : State) (addr : Nat) (base : W64) : W64 × Bool :=
  s.rc.pendingStore.foldl (fun (acc : W64 × Bool) w =>
    if s.xqAddr w = addr ∧ w.be ≠ 0 then (mergeBytes w.be acc.1 w.data, true) else acc) (base, false)

/-- Issue the XQ request of a step (R84, R85, R105, R155-R157). Where several region errors hold, the record names the
lowest code (DESIGN CHOICE, log 82: R155 gives no order). -/
def State.goXqueue (s : State) (c : Nat) : State :=
  match (s.cl c).goXq with
  | [] => s
  | b :: bs =>
    let cl := s.cl c
    let m := cl.xqReq
    let bp := bs.foldl min b
    let reg := wordOf m 104 4
    let cfg := Reg.XQ_REGION_CFG c reg
    let k := s.fld cfg 0 6
    if xqMissing m k ≠ 0 then
      s.schedFault bFabric 0x0104 (detailAt c bp cl.step (1 <<< 5 + min 31 (xqMissing m k)))
    else
      let r := wordOf m 127 1; let w := wordOf m 126 1
      let tag := wordOf m 112 5
      let word := wordOf m 0 32
      let s := s.modCl c fun cl => { cl with xqReq := [] }
      if r + w = 0 then s
      else
        let err : Option Nat :=
          if !s.flag cfg 31 then some 0
          else if 2 ^ k ≤ word then some 1
          else if w = 1 ∧ !s.flag cfg 30 then some 2
          else none
        let mkTag (arrived : Bool) (data : Option W128) : XqTag :=
          ⟨cl.xqSerial, cl.step + 1, arrived, data, s.now⟩
        let put (s : State) (t : XqTag) : State := s.modCl c fun cl => { cl with
          tags := cl.tags.set (fun _ => none) tag (some t)
          retiredTags := cl.retiredTags.filter (· ≠ tag)
          xqSerial := cl.xqSerial + 1 }
        match err with
        | some why =>
          let s := (s.record cConfig bDmemq 0x0304 (c <<< 26 + reg <<< 22 + why <<< 20 + tag)).raise 4 2
          if r = 1 then put s (mkTag false (some (BitVec.ofNat 128 (2 ^ 64)))) else put s (mkTag true none)
        | none =>
          let addr := s.fld (Reg.XQ_REGION_BASE c reg) 0 26 * 4096 + word * 8
          let s := if w = 1 then s.modCl c fun cl => { cl with xqLog := cl.xqLog ++
              [⟨s.rc.ecn, c, reg, word, wordOf m 96 8, BitVec.ofNat 64 (wordOf m 32 64)⟩] } else s
          if r = 1 then
            let (bad, v, s) := s.ddrRead .fabric addr 8
            let (v, fwd) := s.forwarded addr (BitVec.ofNat 64 v)
            put s (mkTag false (some (if bad then BitVec.ofNat 128 (2 ^ 64)
              else BitVec.ofNat 128 (v.toNat + (if fwd then 2 ^ 65 else 0)))))
          else put s (mkTag true none)

/-- Start the arithmetic operation of a step, in the mode of the lowest BP (R86, R87, R161-R163). The mode of a higher BP
is not judged, and raises no SCH_RESERVED (DESIGN CHOICE, log 82: R87 and R107 leave it open). -/
def State.goArith (s : State) (c : Nat) : State :=
  match (s.cl c).goAr with
  | [] => s
  | g :: gs =>
    let cl := s.cl c
    let (bp, mode) := gs.foldl (fun a b => if b.1 < a.1 then b else a) g
    if 5 ≤ mode then s.schReserved c bp 6 0
    else
      let miss := missing cl.arReq (arRequired mode)
      if miss ≠ 0 then s.schedFault bFabric 0x0104 (detailAt c bp cl.step (2 <<< 5 + min 31 miss))
      else
        let (r, acc) := arith mode (s.flag (Reg.AR_CFG c) 0) (wordOf cl.arReq 0 54) (wordOf cl.arReq 64 54)
          (s.acc.get (fun _ => 0) c)
        let s := { s with acc := s.acc.set (fun _ => 0) c acc }
        s.modCl c fun cl => { cl with arReq := [], dmFlight := cl.dmFlight ++ [⟨cl.step + 5, true, r⟩] }

/-- PUSH: the staging word as it stands becomes the cluster's pushed word (R90, R91). -/
def State.doPushes (s : State) (c : Nat) : State :=
  s.modCl c fun cl => { cl with
    pushed := cl.pushNow.foldl (fun m ch =>
      m.set (fun _ => none) ch (some (BitVec.ofNat 64 (wordOf cl.staging (ch * 64) 64)))) cl.pushed }

/-- The WAITQs of a step retire their tags; XQRESP shows the response of the lowest BP that retires one with data
(R88, R89). A tag issued again at this very step keeps its later request: that is handled by `old` being the tags
as they stood at the start of the step. -/
def State.doRetires (s : State) (c : Nat) (old : Map (Option XqTag)) : State :=
  let cl := s.cl c
  let taken := cl.retire.filterMap (fun e =>
    match old.get (fun _ => none) e.2 with
    | some t => some (e.1, e.2, t)
    | none => none)
  let best := (taken.filter (fun e => e.2.2.data.isSome)).foldl
    (fun (b : Option (Nat × Nat × XqTag)) e => match b with
      | none => some e
      | some x => if e.1 < x.1 then some e else some x) none
  s.modCl c fun cl => { cl with
    xqResp := match best with | some e => e.2.2.data.getD 0 | none => cl.xqResp
    tags := taken.foldl (fun m e =>
      match m.get (fun _ => none) e.2.1 with
      | some t => if t.serial = e.2.2.serial then m.set (fun _ => none) e.2.1 none else m
      | none => m) cl.tags
    retiredTags := cl.retiredTags ++ taken.map (fun e => e.2.1) }

/-- The cluster moves to its next busy step, or waits for commit. -/
def State.advance (s : State) (c start : Nat) : State :=
  let s := if start = 0 ∧ s.nextBusy c start = some 0 then s
    else { s with stepped := s.stepped.set (fun _ => 0) c (s.now + 1) }
  match s.nextBusy c start with
  | some k => s.modCl c fun cl => { cl with
      step := k, opened := false, doneBps := [], inboxRead := [], goDm := [], goXq := [], goAr := []
      pushNow := [], retire := [], waitqBad := [], nearNext := []
      near := if k = start then cl.nearNext else [] }
  | none => s.modCl c fun cl => { cl with
      phase := .waitCommit, step := s.cycleLen - 1, opened := false, doneBps := [], inboxRead := []
      goDm := [], goXq := [], goAr := [], pushNow := [], retire := [], waitqBad := [], near := [], nearNext := [] }

/-- Every enabled cluster has completed its last step. -/
def State.allAtEnd (s : State) : Bool :=
  s.clusterIds.all (fun c => !s.enabled c || decide ((s.cl c).phase = .waitCommit))

/-- SCH_WAITQ_NO_REQUEST for the WAITQs of the step that name no outstanding tag (R107, R108), once its GOs have acted: 2
where a WAITQ had retired the tag earlier in the cycle, also where this step issues it again (DESIGN CHOICE, log 82), 1
where only this step issues it. -/
def State.waitqFaults (s : State) (c : Nat) : State :=
  (s.cl c).waitqBad.foldl (fun s b =>
    let issued := ((s.cl c).tags.get (fun _ => none) b.2.1).any (fun t => decide (t.fromStep = (s.cl c).step + 1))
    let why := if b.2.2 then 2 else if issued then 1 else 0
    s.schedFault bFabric 0x0105 (detailAt c b.1 (s.cl c).step (why <<< 5 + b.2.1))) s

/-- The end of a step (R78 phases 4 and 5), when every BP of it has executed. -/
def State.endStep (s : State) (c : Nat) : State :=
  let cl := s.cl c
  if (s.busyWords c cl.step).all (fun e => cl.doneBps.contains e.1) then
    let old := cl.tags
    let s := ((((s.goDmb c).goXqueue c).goArith c).doPushes c).waitqFaults c
    let s := (s.doRetires c old).advance c (cl.step + 1)
    if s.allAtEnd then s.flushAssembly else s
  else s

/-- BP `b` executes its instruction of the present step, if the cluster is stepping, the word there has one of the
opcodes `ops`, and it has not executed it yet: `f` is the instruction's own effect. In any other case the event
does not take place (log 4). A step that stalls records the stall. A step that is open goes on to its end, also in FATAL
(R133 order 1). -/
def State.bpStep (s : State) (b : BpSel) (ops : Nat → Bool) (f : State → W96 → State) : State :=
  let c := b.cluster
  let cl := s.cl c
  let w := s.word c cl.step b.bp
  if ¬ ((s.live ∨ (s.rc.state = .fatal ∧ cl.opened)) ∧ s.rc.stepping ∧ s.enabled c ∧ cl.phase = .stepping ∧ b.bp < 256 ∧ ops (wOp w) ∧
      ¬ cl.doneBps.contains b.bp ∧ ¬ cl.ended.contains b.bp) then s
  else if ¬ cl.opened ∧ s.stopping then s
  else
    let s := if cl.opened then s else s.openStep c b.err.toList
    if !(s.cl c).opened then s
    else
      let s := f s w
      let s := s.modCl c fun cl => { cl with doneBps := cl.doneBps ++ [b.bp] }
      let n := s.rc.ecn
      let s := s.endStep c
      match b.err with
      | some e =>
        if s.live then s.upset n { e with cluster := c, bp := b.bp }
        else s.idleUpset { e with cluster := c, bp := b.bp }
      | none => s

/-! ## The meanings -/

/-- The BP has fetched its word of step `k` in the present cycle: the cluster has reached the step, and no earlier word is
END (R35). -/
def State.fetched (s : State) (c bp k : Nat) : Bool :=
  let cl := s.cl c
  s.live && s.rc.stepping && s.enabled c && decide (bp < 256) && decide (k < s.cycleLen) &&
    (decide (cl.phase = .waitCommit) || (decide (cl.phase = .stepping) && decide (k ≤ cl.step))) &&
    (List.range k).all (fun j => wOp (s.word c j bp) ≠ 0xF)

/-- NOP (R70, R81): no effect but the check of the fetched word (R59): steps that hold only NOP pass with time (log 10), so
the error names its step. -/
def execNop (b : BpSel) (s : State) : Host.Outcome State Fault Refusal :=
  match b.err with
  | some e =>
    if e.mem = .imem ∧ wOp (s.word b.cluster e.word b.bp) = 0 ∧ s.fetched b.cluster b.bp e.word then
      ok (s.upset s.rc.ecn { e with cluster := b.cluster, bp := b.bp })
    else ok s
  | none => ok s

/-- LUT (R81). -/
def execLut (b : BpSel) (s : State) : Host.Outcome State Fault Refusal :=
  ok (s.bpStep b (· = 1) fun s w => s.result b.cluster b.bp w)

/-- The own effect of SEND (R82). -/
def State.sendEffect (s : State) (c bp : Nat) (w : W96) : State :=
  let f := s.evalWord c bp w
  let e := wAux w
  let first := s.sendsFirst c bp e
  let valid := s.sendTo s.rc.ecn c e ≠ .invalid
  let s := s.result c bp w
  if !valid then s.schedFault bFabric 0x0108 (detailAt c bp (s.cl c).step 0)
  else if first then (s.modCl c fun cl => { cl with sent := cl.sent ++ [e] }).deliver c e f
  else s.count (Reg.OUTBOX_REWRITE c) 0 32 1

/-- SEND (R49, R50, R82). -/
def execSend (b : BpSel) (s : State) : Host.Outcome State Fault Refusal :=
  ok (s.bpStep b (· = 2) fun s w => s.sendEffect b.cluster b.bp w)

/-- The own effect of MEMB (R83). -/
def State.membEffect (s : State) (c bp : Nat) (w : W96) : State :=
  let f := s.evalWord c bp w
  let s := s.result c bp w
  let cl := s.cl c
  let i := bits (wAux w) 0 7
  let go := (wAux w).testBit 7
  if (wAux w).testBit 8 then
    let (m, dup) := depositIn cl.xqReq c cl.step bp i f
    (s.modCl c fun cl => { cl with xqReq := m, goXq := if go then cl.goXq ++ [bp] else cl.goXq }).dupDeposit c 1 dup
  else
    let (m, dup) := depositIn cl.dmReq c cl.step bp i f
    (s.modCl c fun cl => { cl with dmReq := m, goDm := if go then cl.goDm ++ [bp] else cl.goDm }).dupDeposit c 0 dup

/-- MEMB (R83-R85). -/
def execMemb (b : BpSel) (s : State) : Host.Outcome State Fault Refusal :=
  ok (s.bpStep b (· = 3) fun s w => s.membEffect b.cluster b.bp w)

/-- The own effect of ARIB (R86). -/
def State.aribEffect (s : State) (c bp : Nat) (w : W96) : State :=
  let f := s.evalWord c bp w
  let s := s.result c bp w
  let i := bits (wAux w) 0 7
  let s := if (54 ≤ i ∧ i < 64) ∨ 118 ≤ i then s.schReserved c bp 4 0
    else
      let (m, dup) := depositIn (s.cl c).arReq c (s.cl c).step bp i f
      (s.modCl c fun cl => { cl with arReq := m }).dupDeposit c 2 dup
  if (wAux w).testBit 7 then s.modCl c fun cl => { cl with goAr := cl.goAr ++ [(bp, bits (wAux w) 8 4)] } else s

/-- ARIB (R86, R87). -/
def execArib (b : BpSel) (s : State) : Host.Outcome State Fault Refusal :=
  ok (s.bpStep b (· = 4) fun s w => s.aribEffect b.cluster b.bp w)

/-- The own effect of PORTB (R90). -/
def State.portbEffect (s : State) (c bp : Nat) (w : W96) : State :=
  let f := s.evalWord c bp w
  let s := s.result c bp w
  let ch := bits (wAux w) 6 5
  if 24 ≤ ch then s.schReserved c bp 5 0
  else
    let (m, dup) := depositIn (s.cl c).staging c (s.cl c).step bp (ch * 64 + bits (wAux w) 0 6) f
    (s.modCl c fun cl => { cl with
      staging := m
      pushNow := if (wAux w).testBit 11 then cl.pushNow ++ [ch] else cl.pushNow }).dupDeposit c 3 dup

/-- PORTB (R90, R91). -/
def execPortb (b : BpSel) (s : State) : Host.Outcome State Fault Refusal :=
  ok (s.bpStep b (· = 5) fun s w => s.portbEffect b.cluster b.bp w)

/-- PROBE (R93, R80). -/
def execProbe (b : BpSel) (s : State) : Host.Outcome State Fault Refusal :=
  ok (s.bpStep b (· = 6) fun s w =>
    let f := s.evalWord b.cluster b.bp w
    let s := s.result b.cluster b.bp w
    { s with probes := depositDevice s.probes b.cluster (s.cl b.cluster).step b.bp (wAux w) f })

/-- TRIGB (R93, R80). -/
def execTrigb (b : BpSel) (s : State) : Host.Outcome State Fault Refusal :=
  ok (s.bpStep b (· = 7) fun s w =>
    let f := s.evalWord b.cluster b.bp w
    let s := s.result b.cluster b.bp w
    { s with fabTrig := depositDevice s.fabTrig b.cluster (s.cl b.cluster).step b.bp (bits (wAux w) 0 4) f })

/-- The own effect of WAITQ (R89): the tag outstanding at the start of the step retires at its end; a tag that is not
outstanding is judged there too. -/
def State.waitqEffect (s : State) (c bp : Nat) (w : W96) : State :=
  let cl := s.cl c
  let t := bits (wAux w) 0 5
  match cl.tags.get (fun _ => none) t with
  | some _ => s.modCl c fun cl => { cl with retire := cl.retire ++ [(bp, t)] }
  | none => s.modCl c fun cl => { cl with waitqBad := cl.waitqBad ++ [(bp, t, cl.retiredTags.contains t)] }

/-- WAITQ (R89). -/
def execWaitq (b : BpSel) (s : State) : Host.Outcome State Fault Refusal :=
  ok (s.bpStep b (· = 8) fun s w => s.waitqEffect b.cluster b.bp w)

/-- WAITP (R95): the wait and the latch are the opening of the step; the instruction itself does no more. -/
def execWaitp (b : BpSel) (s : State) : Host.Outcome State Fault Refusal :=
  ok (s.bpStep b (· = 9) fun s _ => s)

/-- POP (R97): marks its window's head word for consumption at commit. -/
def execPop (b : BpSel) (s : State) : Host.Outcome State Fault Refusal :=
  ok (s.bpStep b (· = 0xA) fun s w =>
    let i := bits (wAux w) 0 4
    (s.result b.cluster b.bp w).modCl b.cluster fun cl => { cl with
      windows := let win := cl.windows.get (fun _ => {}) i
        if win.word.isSome then cl.windows.set (fun _ => {}) i { win with pop := true } else cl.windows })

/-- MARK (R94): one fabric event with the tag AUX. -/
def execMark (b : BpSel) (s : State) : Host.Outcome State Fault Refusal :=
  ok (s.bpStep b (· = 0xE) fun s w =>
    (s.result b.cluster b.bp w).fabEvent 7 b.cluster (wAux w) b.bp)

/-- END (R35): no further instruction of the BP this cycle. -/
def execEndBp (b : BpSel) (s : State) : Host.Outcome State Fault Refusal :=
  ok (s.bpStep b (· = 0xF) fun s _ =>
    s.modCl b.cluster fun cl => { cl with ended := cl.ended ++ [b.bp] })

/-- A reserved opcode 0xB-0xD (R77): as NOP, with SCH_RESERVED. -/
def execReservedOpcode (b : BpSel) (s : State) : Host.Outcome State Fault Refusal :=
  ok (s.bpStep b (fun op => 0xB ≤ op ∧ op ≤ 0xD) fun s _ => s.schReserved b.cluster b.bp 0 0)

end Sys2Proof.Machine
end

