-- ==== Sys2Proof/Machine/Receive.lean ====
section
/-!
DEFINITION. The receive path of a port (R204-R209): which words are accepted, where the receive map and the relay
table send them, what waits in the held store.
-/

namespace Sys2Proof.Machine

/-- What a port's words for `p` in the held store number (HELD.NOW). -/
def State.heldOf (s : State) (p : Nat) : Nat := (s.held.filter (fun w => w.port = p)).length

/-- A receive-map entry as the fields R204 names; `none`: missing or not valid. The cluster must be present, and a
relay index name a valid entry. -/
structure RecvTo where
  inbox : Option (Nat × Nat)     -- cluster and word
  relay : Option (Nat × Nat)     -- port and slot
  deriving DecidableEq, Repr

/-- Where the maps send slot `slot` of port `p` in cycle `n` (R204, R205). -/
def State.recvTo (s : State) (n p slot : Nat) : Option RecvTo :=
  let m := s.bankFor n
  let e := (m.recv.get (fun _ => 0) (p * 8192 + slot)).toNat
  let r := (m.relay.get (fun _ => 0) (bits e 0 14)).toNat
  let kind := bits e 29 2
  if 8192 ≤ slot ∨ ¬ e.testBit 31 ∨ kind = 3 then none
  else if kind ≠ 0 ∧ ¬ r.testBit 31 then none
  else if kind ≠ 1 ∧ s.nClusters ≤ bits e 19 6 then none
  else some {
    inbox := if kind = 1 then none else some (bits e 19 6, bits e 14 5)
    relay := if kind = 0 then none else some (bits r 16 3, bits r 0 16) }

/-- The arrival of one bit from a port (R51): stored, or still waiting (`true`). `behind`: an earlier arrival of the
port still waits at the bit, and a waiting arrival is held without reordering (R53). -/
def State.arriveWords (s : State) (port c b t : Nat) (behind v : Bool) : Bool × State :=
  if !s.enabled c then (false, s)
  else if behind then (true, s)
  else match s.judgeArrival c b t with
    | .stored => (false, s.storeArrival c b t v)
    | .waits => (true, s)
    | .stale => (false, s.schedFault bFabric 0x0101 (c <<< 26 + b <<< 15 + t <<< 13 + s.epoch <<< 11 + 2 ^ 10 + port <<< 7))

/-- The bits of inbox word `word` of cluster `c` at which arrivals of port `p` wait (R53). -/
def State.waitingBits (s : State) (p c word : Nat) : W64 :=
  s.held.foldl (fun m w =>
    if w.port = p ∧ (s.recvTo w.cycle w.port w.slot).any (fun d => d.inbox = some (c, word)) then
      m ||| w.mask else m) 0

/-- The bits of `mask` arrive at inbox word `word` of cluster `c`; the mask of those that wait. -/
def State.arriveWord (s : State) (port c word t : Nat) (mask v : W64) : W64 × State :=
  let waiting := s.waitingBits port c word
  (List.range 64).foldl (fun (r : W64 × State) i =>
    if mask.getLsbD i then
      let (w, s) := r.2.arriveWords port c (word * 64 + i) t (waiting.getLsbD i) (v.getLsbD i)
      (if w then r.1 ||| BitVec.ofNat 64 (2 ^ i) else r.1, s)
    else r) (0, s)

/-- A word of the held store is handled again (R52). -/
def State.retryHeld (s : State) (w : SlotWord) : State :=
  match s.recvTo w.cycle w.port w.slot with
  | some ⟨some (c, word), _⟩ =>
    let (left, s) := s.arriveWord w.port c word (w.cycle % 4) w.mask w.word
    if left = 0 then s else { s with held := s.held ++ [{ w with mask := left }] }
  | _ => s

/-- The waiting arrivals are handled again, in the order in which they arrived (R52, R209). -/
def State.deliverHeld (s : State) : State :=
  s.held.foldl (fun s w =>
    if s.fld (Reg.PORT_CFG w.port) 12 2 ≠ 2 && !s.accepts w.gen w.cycle then s.count (Reg.STALE_DROP w.port) 0 32 1
    else s.retryHeld w) { s with held := [] }

/-- Some bit of a word would wait at the inbox. -/
def State.wouldWait (s : State) (w : SlotWord) (c word : Nat) : Bool :=
  let waiting := s.waitingBits w.port c word
  s.enabled c && (List.range 64).any (fun i =>
    w.mask.getLsbD i && (waiting.getLsbD i || decide (s.judgeArrival c (word * 64 + i) (w.cycle % 4) = .waits)))

/-- One word passes the receive maps (R205, R206): `none` where the path stops at it. -/
def State.passWord (s : State) (w : SlotWord) : Option State × State :=
  match s.recvTo w.cycle w.port w.slot with
  | none => (some (s.schedFault bSysnet 0x0109 (w.port <<< 29 + w.slot <<< 13)), s)
  | some dst =>
    let badRole : Bool := match dst.relay with
      | some (p, _) => decide (s.fld (Reg.PORT_CFG p) 12 2 ≠ 0)
      | none => false
    let relayFull : Bool := match dst.relay with | some (p, _) => s.framerFull p | none => false
    let heldFull : Bool := match dst.inbox with
      | some (c, word) => s.wouldWait w c word && decide (8192 ≤ s.heldOf w.port)
      | none => false
    if badRole then
      (some (s.schedFault bSysnet 0x010A (w.port <<< 29 + w.slot <<< 13 + ((dst.relay.getD (0, 0)).1) <<< 10)), s)
    else if relayFull then (none, s)
    else if heldFull then
      (none, if s.flag Reg.NET_INT_STAT 6 then s else (s.record cInfo bSysnet 0x0507 (w.port <<< 29)).raise 6 6)
    else
      let s1 := match dst.relay with
        | some (p, slot) => s.modLink p fun l => { l with framer := l.framer ++ [{ w with port := p, slot := slot, own := false }] }
        | none => s
      let s2 := match dst.inbox with
        | some (c, word) =>
          let (left, s) := s1.arriveWord w.port c word (w.cycle % 4) w.mask w.word
          if left = 0 then s
          else
            let s : State := { s with held := s.held ++ [{ w with mask := left }] }
            s.setFld (Reg.HELD w.port) 16 16 (max (s.fld (Reg.HELD w.port) 16 16) (s.heldOf w.port))
        | none => s1
      (some s2, s)

end Sys2Proof.Machine
end

