-- ==== Sys2Proof/Machine/Commit.lean ====
section
/-!
DEFINITION. The life of a cycle and what undoes it (chapters 01, 05, 06): cycle start, commit, drain, rollback,
snapshots, rewind.
-/

namespace Sys2Proof.Machine

/-! ## Cycle start (R14, R16 order 2) -/

/-- Nothing but the seal keeps cycle `ecn` from beginning (R14, R110, R113, R125, R141, R245). -/
def State.mayBegin (s : State) : Bool :=
  s.live && !s.rc.begun && !s.rc.halting && s.rc.rewind.isNone &&
  s.rc.abort.all (fun a => decide (s.rc.ecn < a.n)) &&
  s.rc.pausePoint.all (fun p => decide (s.rc.ecn < p)) && s.rc.pauseAt.all (fun p => decide (s.rc.ecn < p))

/-- The seal that R14 asks for is held. -/
def State.sealHeld (s : State) : Bool := decide (s.rc.ecn < s.rc.sealNext + s.window)

/-- The bound input windows and their sources (R55): cluster * 16 + window, and the source. -/
def State.boundWindows (s : State) : List (Nat × Nat) :=
  s.clusterIds.flatMap (fun c => (List.range 16).filterMap (fun w =>
    let src := s.fld (Reg.PORT_WIN_MAP c w) 0 6
    if src = 0x3F then none else some (c * 16 + w, src)))

/-- Source `src` at the start of the cycle: its head word, and the windows that latch it. The latch log takes both at the
first execution of the cycle and governs its replays (R55, R56, R117, R128). -/
def State.latchSource (bound : List (Nat × Nat)) (s : State) (src : Nat) : State :=
  let n := s.rc.ecn
  let old := s.rc.latch.find? (fun e => e.ecn = n ∧ e.src = src)
  let (head, s) := if old.all (fun e => e.seq.isSome) then s.headWord src false else (none, s)
  let e : LatchEntry := old.getD ⟨n, src, head.map (·.1), (bound.filter (·.2 = src)).map (·.1)⟩
  let s := if old.isSome then s else s.modRc fun r => { r with latch := r.latch ++ [e] }
  let s := match head with
    | some x => if src < 16 then s.noteSeen src x.1 else s
    | none => s
  let w : Window := { source := src, word := head.map (·.2), seq := (head.map (·.1)).getD 0 }
  e.windows.foldl (fun s k => s.modCl (k / 16) fun cl => { cl with windows := cl.windows.set (fun _ => {}) (k % 16) w }) s

/-- The input windows of every cluster latch anew (R55). -/
def State.latchWindows (s : State) : State :=
  let bound := s.boundWindows
  let s := { s with clusters := s.clusters.filterMap fun e =>
    let v : Cluster := { e.2 with windows := [] }
    if v = {} then none else some (e.1, v) }
  (List.range 24).foldl (State.latchSource bound) s

/-- The sources whose head words the start of the cycle reads. -/
def State.latchedSources (s : State) : List Nat :=
  (s.rc.latch.filter fun e => decide (e.ecn = s.rc.ecn) && e.seq.isSome).map (·.src)

/-- The content of a snapshot slot from offset 0x1000 on (R136): accumulators, start state, DMB. -/
def State.snapContent (s : State) : Map Byte :=
  let m := s.acc.foldl (fun m e => orBytes m (bytesAt (0x1000 + e.1 * 16) e.2.toNat 16)) []
  let m := (s.bank s.rc.curBank).foldl (fun m e =>
    let bp := e.1 / 256; let i := e.1 % 256
    if e.2 then orBytes m [(0x2000 + bp * 32 + i / 8, BitVec.ofNat 8 (2 ^ (i % 8)))] else m) m
  s.dmb.foldl (fun m e => orBytes m (bytesAt (0x100000 + e.1 * 8) e.2.toNat 8)) m

/-- The header of the snapshot of the present cycle but for VALID and CRC (R137). The journal position counts the entries
of the pending store that are still to be drained (DESIGN CHOICE, log 85: R137 does not say). -/
def State.snapHeader (s : State) : Map Byte :=
  let jr := (s.rc.pendingStore.filter (fun w => s.flag (Reg.XQ_REGION_CFG w.cluster w.region) 29)).length
  orBytes [] (bytesAt 0 s.rc.ecn 8 ++ bytesAt 8 1 4 ++
    bytesAt 0xC ((if s.fuses.is9416 then 0x9416 else 0x9408) * 65536 + s.devId) 4 ++
    bytesAt 0x10 (s.window * 2 ^ 24 + s.nBanks * 2 ^ 16 + s.cycleLen) 4 ++
    bytesAt 0x18 (s.rd64 Reg.JRNL_HEAD_LO + (if s.flag Reg.JRNL_CFG 31 then 32 * jr else 0)) 8 ++
    (List.range 8).flatMap (fun b => bytesAt (0x20 + 8 * b) (s.lynxHead b) 8) ++
    (List.range 16).flatMap (fun h => bytesAt (0x60 + 8 * h) (s.rd64 (Reg.MP_IN_HEAD_POS_LO h)) 8))

/-- The DDR address of snapshot slot `k` (R136). -/
def State.slotAddr (s : State) (k : Nat) : Nat :=
  s.fld Reg.SNAP_BASE_LO 25 7 * 2 ^ 25 + s.fld Reg.SNAP_BASE_HI 0 6 * 2 ^ 32 + k * 0x200_0000

/-- The parts of a snapshot slot as offset and size, in the order in which the engine writes them; those of clusters that
the grade lacks are none (R136, R138). -/
def State.slotParts (s : State) : List (Nat × Nat) :=
  [(0x2000, s.nClusters * 0x2000), (0x1000, s.nClusters * 16), (0x10_0000, s.nClusters * 0x4_0000), (0, 0x1000)]

/-- Write `parts` of the slot at `a` from the bytes `m`; the offset of the first error response, which ends the copy. -/
def State.slotFill (s : State) (parts : List (Nat × Nat)) (a : Nat) (m : Map Byte) : Option Nat × State :=
  parts.foldl (fun (r : Option Nat × State) p =>
    match r.1 with
    | some _ => r
    | none =>
      let part := (m.range p.1 (p.1 + p.2)).map (fun e => (e.1 - p.1, e.2))
      match r.2.ddrFill .engine (a + p.1) p.2 part with
      | (some off, s) => (some (p.1 + off), s)
      | (none, s) => (none, s)) (none, s)

/-- The bytes of the slot of snapshot `j` when its copy is complete: VALID and the CRC-32 of the header among them. -/
def SnapJob.bytes (j : SnapJob) : Map Byte :=
  orBytes (j.header.foldl (fun m e => orBytes m [e]) j.content)
    (bytesAt 0xE0 1 4 ++ bytesAt 0xE4 (crc32 (bytesOfMap j.header 0xE0)) 4)

/-- A snapshot that stops on an error response (R140): the slot stays invalid, NEXT_SLOT unchanged. -/
def State.snapError (s : State) (slot off : Nat) : State :=
  (((s.modRc fun r => { r with snap := none }).setFlag Reg.SNAP_STATUS 31 false)).record cConfig bRunctl 0x0206
    (slot <<< 27 + off / 64)

/-- At the start of a snapshot cycle the engine arms its slot, or skips the snapshot while BUSY (R135, R138,
R140). No snapshot is taken in REPLAYING (R142). SNAP_STATUS.VALID is kept by reading the VALID word that the arming clears;
an error response to that read cancels the snapshot (DESIGN CHOICE, log 85: R138 does not say how it is kept). NEXT_SLOT and
VALID stay as they are when SLOTS is lowered or SNAP_BASE moves: that slot is armed (DESIGN CHOICE, log 111). -/
def State.armSnapshot (s : State) : State :=
  let n := s.rc.ecn
  if s.flag Reg.SNAP_CFG 31 ∧ n % (s.rd Reg.SNAP_PERIOD) = 0 ∧ s.rc.runStart < n ∧ s.rc.state = .running then
    if s.rc.snap.isSome then
      ((s.count Reg.SNAP_SKIPPED 0 32 1).recordAt cInfo bRunctl 0x0203 n n).raise 1 2
    else
      let slot := s.fld Reg.SNAP_STATUS 16 5
      let a := s.slotAddr slot
      let (bad, v, s) := s.ddrRead .engine (a + 0xE0) 4
      if bad then s.snapError slot 0xE0
      else
        let (bad, s) := s.ddrWrite .engine (a + 0xE0) 4 0
        if bad then s.snapError slot 0xE0
        else
          let s := if v % 2 = 1 then s.setFld Reg.SNAP_STATUS 0 5 (s.fld Reg.SNAP_STATUS 0 5 - 1) else s
          let job : SnapJob := { ecn := n, slot := slot, bank := s.rc.curBank, content := s.snapContent,
                                 header := s.snapHeader }
          (s.modRc fun r => { r with snap := some job }).setFlag Reg.SNAP_STATUS 31 true
  else s

/-- The next bank of the present cycle is still reserved for a snapshot (R139). -/
def State.bankHeld (s : State) : Bool :=
  match s.rc.snap with
  | some j => j.bankHeld && decide (j.bank = (s.rc.curBank + 1) % s.nBanks) && decide (j.ecn ≠ s.rc.ecn)
  | none => false

/-- The first wait of each snapshot is recorded (R139). -/
def State.noteBankWait (s : State) : State :=
  match s.rc.snap with
  | some j =>
    if j.waited then s
    else ((s.modRc fun r => { r with snap := some { j with waited := true } }).record cInfo bRunctl 0x0204
      j.ecn).raise 1 3
  | none => s

/-- A host-out channel under WAIT lacks room for the cycles begun and not sealed (R252). -/
def State.hostOutLacks (s : State) : Bool :=
  (List.range 16).any (fun h =>
    s.flag (Reg.MP_OUT_CFG h) 31 && !s.flag (Reg.MP_OUT_CFG h) 30 &&
      decide (2 ^ s.fld (Reg.MP_OUT_CFG h) 0 5 - (s.rd64 (Reg.MP_OUT_WRITE_POS_LO h) - s.rd64 (Reg.MP_OUT_READ_POS_LO h))
        < s.fld (Reg.MP_OUT_CFG h) 16 7 * s.rc.unsealed.length))

/-- What holds the clusters back after cycle start and before step 0. -/
def State.preStepWaits (s : State) : List WaitKind :=
  (if s.pendingLacks then [.pending] else []) ++ (if s.bankHeld then [.snapBank] else []) ++
  (if s.hostOutLacks then [.hostOut] else []) ++ s.egLacking.map .egress ++
  (if s.captureLacks then [.capture] else [])

/-- The clusters begin step 0. -/
def State.beginSteps (s : State) : State :=
  let s := s.modRc fun r => { r with stepping := true }
  let s := s.clusterIds.foldl (fun s c =>
    if s.enabled c then (s.modCl c fun cl => { cl with phase := .stepping }).advance c 0 else s) s
  if s.allAtEnd then s.flushAssembly else s

/-- The waits between cycle start and step 0 (R121, R139, R252, R273, R323), and step 0 when none applies. -/
def State.trySteps (s : State) : State :=
  if !s.live then s
  else
    let l := s.preStepWaits
    let s := s.setWaits l
    let s := if l.contains .snapBank then s.noteBankWait else s
    if l.isEmpty then s.beginSteps else s

/-- The cycle start of cycle `ecn` (R16 order 2), which is the start of a replay where one is due (R132). `errs` are the
soft errors that reading the head entries of the Lynx channels finds. -/
def State.beginCycle (s : State) (errs : List EccErr) : State :=
  let n := s.rc.ecn
  let s := s.sayFaults s.latestBegun
  let s := s.lynxCycleStart
  let s := s.modRc fun r => { r with
    begun := true
    fresh := false
    faults := r.faults.filter (fun e => decide (e.1 ≠ n) && decide (r.sealNext ≤ e.1 + 1))
    first := if r.firstArmed then some n else r.first
    firstArmed := false
    again := decide (n < r.reached) || decide (r.state = .replaying)
    executed := max r.executed (n + 1)
    reached := max r.reached (n + 1)
    unsealed := r.unsealed ++ [{ ecn := n, bank := r.curBank, acc := s.acc, acq := s.acq.run }] }
  let s := (((s.clusterIds.filter s.enabled).foldl State.touch s).touch 64).noteReplay.latchWindows
  let s := s.lxHeadErrors s.latchedSources errs
  let s := { s with probes := [], fabTrig := [] }
  let s := (s.swapAt n).armSnapshot
  (s.acqCycleStart).trySteps

/-- CYCLE_START (R14): the device begins cycle n, or records what it waits for. The last cycle of a re-run is the one below
REPLAY_LIMIT (R141 order 6). -/
def execCycleStart (errs : List EccErr) (s : State) : Host.Outcome State Fault Refusal :=
  if s.rc.begun then
    if s.live ∧ ¬ s.rc.stepping ∧ ¬ s.stopping then ok s.trySteps else ok s
  else if s.rc.state = .replaying ∧ s.rc.ecn = s.rd64 Reg.REPLAY_LIMIT_LO ∧ s.rc.rewind.isNone ∧ ¬ s.rc.halting then
    if s.rc.sealNext = s.rc.ecn then ok (s.enterPaused s.rc.ecn) else ok s
  else if ¬ s.mayBegin then ok s
  else if ¬ s.sealHeld then ok (s.setWaits [.seal])
  else
    let s := if s.rc.waits.any (fun w => w.1 = .seal) then s.count Reg.SEAL_WAIT_EVENTS 0 32 1 else s
    let l := s.paceLacking
    let s := s.setWaits (l.map .pace)
    if ¬ l.isEmpty then ok s
    else
      let s := s.wakeFabric
      if s.live then ok (s.beginCycle errs) else ok s

/-! ## Commit (R16 orders 6 and 7) -/

/-- Every send of the cycle is accepted (R15): no word assembled here waits for a frame. -/
def State.sendsAccepted (s : State) : Bool :=
  (List.range 8).all (fun p => !(s.link p).framer.any (fun w => w.own && w.cycle = s.rc.ecn && w.gen = s.net.gen))

/-- The bank rotates (R45, R46): the next bank takes the current one with the next-state writes over it. -/
def State.rotate (s : State) : State :=
  let cur := s.bank s.rc.curBank
  let nb := (s.rc.curBank + 1) % s.nBanks
  let new := s.clusters.foldl (fun m e => e.2.next.foldl (fun m w =>
    match w.2 with
    | some v => m.set (fun _ => false) (e.1 * 65536 + w.1) v
    | none => m) m) cur
  { s with banks := s.banks.set (fun _ => []) nb new, rc := { s.rc with curBank := nb } }

/-- The DMB writes of a cluster's log are applied in issue order, each with its undo entry (R119). -/
def State.applyDmLog (s : State) (c : Nat) : State :=
  (s.cl c).dmLog.foldl (fun s e =>
    let k := c * 32768 + e.1
    let old := s.dmb.get (fun _ => 0) k
    let s := { s with dmb := s.dmb.set (fun _ => 0) k (mergeBytes e.2.1 old e.2.2) }
    s.modRec s.rc.ecn fun r => { r with undo := (c, e.1, old) :: r.undo }) s

/-- The sources that lose their head word at the commit (R97), ascending. -/
def State.poppedSources (s : State) : List Nat :=
  (List.range 24).filter (fun src => s.clusters.any (fun e =>
    e.2.windows.any (fun w => w.2.source = src && w.2.pop && w.2.word.isSome)))

/-- A source loses its head word (R97, R249). -/
def State.popSource (s : State) (src : Nat) : State :=
  if src < 16 then s.wr64 (Reg.MP_IN_HEAD_POS_LO src) (s.rd64 (Reg.MP_IN_HEAD_POS_LO src) + 1)
  else s.lynxPop (src - 16)

/-- At commit the entries tagged n become EMPTY (R52). -/
def State.releaseInbox (s : State) (t : Nat) : State :=
  { s with inbox := s.inbox.filterMap (fun e =>
      let l := e.2.filter (fun x => x.1 ≠ t)
      if l = [] then none else some (e.1, l)) }

/-- The words pushed in the cycle, in ascending cluster order (R92). -/
def State.pushedWords (s : State) : List OutWord :=
  s.clusters.flatMap (fun e => e.2.pushed.filterMap (fun p => p.2.map (fun v => ⟨p.1, e.1, v⟩)))

/-- Commit of cycle n (R16 order 6): everything but the checks of order 7. -/
def State.commitCycle (s : State) : State :=
  let n := s.rc.ecn
  let pops := s.poppedSources
  let out := s.pushedWords
  let xq := s.clusters.flatMap (fun e => e.2.xqLog)
  let s := (s.clusters.map (·.1)).foldl State.applyDmLog s
  let s := s.rotate
  let s := pops.foldl State.popSource s
  let s := s.modRec n fun r => { r with popped := pops, out := out, committed := true }
  let s := s.modRc fun r => { r with pendingStore := r.pendingStore ++ xq }
  let s := s.lynxCommit n
  let s := s.acqCommit n
  let s := s.sayFaults n
  let s : State := { s with clusters := s.clusters.filterMap clusterKeep, net := { s.net with assembly := [] } }
  let s := s.releaseInbox (n % 4)
  let s := s.modRc fun r => { r with ecn := n + 1, begun := false, stepping := false }
  (s.wr64 Reg.CR_COMMITTED_LO n).fabEvent 3 64 n 0

/-- The words that wait are read again (R52), with the soft errors `errs` that this finds in the held store of a port
(R231); one that cannot be corrected ends in FATAL before any word passes on. -/
def State.rereadHeld (s : State) (errs : List EccErr) : State :=
  let s := (errs.filter fun e => e.mem = .held ∧ s.heldOf (e.cluster % 8) ≠ 0).foldl (fun s e =>
    let d := e.cluster % 8 * 2 ^ 29 + 3 * 2 ^ 27
    if e.double then s.fatal bSysnet 0x050A d else s.record cCorrected bSysnet 0x0509 d) s
  if s.rc.state = .fatal then s else s.deliverHeld

/-- COMMIT (R16, R17): due once every cluster is at its end and every send is accepted. `errs` are the soft errors
its checks find: one in the bank of the start state leads to ABORT(n), one under a commit write of the DMB is
corrected (R152); those of the held stores have no part in the cycle (R231). COMMITTED(n) goes up when the checks have passed. -/
def execCommit (errs : List EccErr) (s : State) : Host.Outcome State Fault Refusal :=
  if ¬ (s.live ∧ s.rc.begun ∧ s.rc.stepping ∧ s.allAtEnd ∧ s.sendsAccepted ∧ ¬ s.stopping) then ok s
  else
    let n := s.rc.ecn
    let s := s.commitCycle.rereadHeld errs
    let s := errs.foldl (fun s e => if e.mem = .dmb then s.idleUpset e else s.upset n e) s
    if ¬ s.live ∨ errs.any (fun e => e.mem ≠ .dmb ∧ e.mem ≠ .map ∧ e.mem ≠ .lynxIn ∧ e.mem ≠ .held) then ok s
    else
      let s := s.modRec n fun r => { r with committedAt := some s.now }
      ok (((s.watermark 0).watermark 1).checkPause)

/-! ## Drain and journal (R120, R160, R164, R165) -/

/-- A journal entry (R164). -/
def journalEntry (w : XqWrite) : Nat :=
  let b := w.ecn % 2 ^ 64 + w.word * 2 ^ 64 + w.cluster * 2 ^ 96 + w.region * 2 ^ 104 + w.be * 2 ^ 112 +
    w.data.toNat * 2 ^ 128
  b + crc32 (bytesOfNat b 28) * 2 ^ 224

/-- The journal ring (R164). -/
def State.journalAddr (s : State) (pos : Nat) : Nat :=
  s.fld Reg.JRNL_BASE 0 26 * 4096 + pos % 2 ^ s.fld Reg.JRNL_CFG 0 6

/-- The entry is to be journalled (R142, R164). -/
def State.journals (s : State) (w : XqWrite) : Bool :=
  s.flag Reg.JRNL_CFG 31 && s.flag (Reg.XQ_REGION_CFG w.cluster w.region) 29 && decide (s.rc.state ≠ .replaying)

/-- The drain waits for journal space no longer: the time adds to JRNL_FULL_NS (R165). -/
def State.endDrainWait (s : State) : State :=
  match s.rc.drainWait with
  | some t => (s.count Reg.JRNL_FULL_NS 0 32 (s.now - t)).modRc fun r => { r with drainWait := none }
  | none => s

/-- DRAIN_WRITE (R120): the oldest sealed pending-store entry is written to DDR and journalled, or waits for
journal space (R165); a wait that goes on when DM_INT_STAT.JRNL_FULL is cleared is recorded again (DESIGN CHOICE, log 111).
A write that fails is FATAL (R160, R510). -/
def execDrainWrite (failed : Bool) (s : State) : Host.Outcome State Fault Refusal :=
  match s.rc.pendingStore with
  | [] => ok s
  | w :: rest =>
    if ¬ (w.ecn < s.rc.sealNext) ∨ s.rc.state = .fatal then ok s
    else if s.journals w ∧ 2 ^ s.fld Reg.JRNL_CFG 0 6 < s.rd64 Reg.JRNL_HEAD_LO + 32 - s.rd64 Reg.JRNL_TAIL_LO then
      let s := if s.rc.drainWait.isSome then s else s.modRc fun r => { r with drainWait := some s.now }
      if s.flag Reg.DM_INT_STAT 3 then ok s
      else ok ((s.record cInfo bDmemq 0x0309 0).raise 4 3)
    else
      let s := s.endDrainWait
      let fail (s : State) : State := s.fatal bDmemq 0x0306 (w.cluster <<< 26 + w.region <<< 22)
      if failed then ok (fail s)
      else
        let (bad, s) := s.ddrWriteBe .fabric (s.xqAddr w) w.be w.data
        if bad then ok (fail s)
        else
          let s1 := s.modRc fun r => { r with pendingStore := rest }
          if s.journals w then
            let h := s.rd64 Reg.JRNL_HEAD_LO
            let (bad, s2) := s1.ddrWrite .fabric (s.journalAddr h) 32 (journalEntry w)
            if bad then ok (fail s2) else ok (s2.wr64 Reg.JRNL_HEAD_LO (h + 32))
          else ok s1

/-- HALT_DRAIN_COMPLETE (R133 order 4). -/
def execHaltDrainComplete (s : State) : Host.Outcome State Fault Refusal :=
  if s.rc.state = .halted ∧ s.rc.pendingStore = [] then ok (s.raise 1 5) else ok s

/-! ## Rollback (R125 orders 5 and 6, R110 order 4, R113, R133 order 3) -/

/-- A rollback is due: for a halt, for an abort received whose cycle, or the start of the pause below it, the device has
reached, or for a schedule pause below the cycles begun. Answers its target. -/
def State.rollbackDue (s : State) : Option Nat :=
  if !s.live || !s.atBoundary then none
  else if s.rc.halting then some s.rc.sealNext
  else
    let pause := if s.pauseDue then s.rc.pausePoint else none
    match s.rc.abort with
    | none => pause
    | some a =>
      if a.received && !a.rolled then
        let target := match s.rc.pausePoint with | some p => min a.n p | none => a.n
        if target ≤ s.rc.ecn then some target else none
      else pause

/-- ROLLBACK (R126): the clusters stand at a step boundary and a rollback is due. `errs` are the soft errors that its
checked reads find (R57, R152). -/
def execRollback (errs : List EccErr) (s : State) : Host.Outcome State Fault Refusal :=
  match s.rollbackDue with
  | none => ok s
  | some target =>
    let k := (s.rc.unsealed.filter (fun r => target ≤ r.ecn)).length
    let s := errs.foldl State.idleUpset s
    if ¬ s.live then ok s
    else if s.rc.halting then ok s.enterHalted
    else
      let s := s.rollbackTo target
      match s.rc.abort with
      | some a =>
        if a.received && !a.rolled then
          let s := s.modRc fun r => { r with abort := some { a with rolled := true, discarded := a.discarded + k } }
          ok ((s.bothTrees fun s t => s.rolledBackUp t s.net.gen 8 a.n).checkPause)
        else ok s.checkPause
      | none => ok s.checkPause

/-! ## Snapshots (R138, R140) -/

/-- SNAPSHOT_COPY_DONE (R138, R139). `bankOnly`: the copy of the bank is complete, and the bank free again. Else the slot
holds the whole copy, and GLOBAL_SEAL(S - 1) is held. -/
def execSnapshotCopyDone (bankOnly : Bool) (errs : List EccErr) (s : State) : Host.Outcome State Fault Refusal :=
  match s.rc.snap with
  | none => ok s
  | some j =>
    if if bankOnly then !j.bankHeld else decide (s.rc.sealNext < j.ecn) then ok s
    else
      let s := errs.foldl State.idleUpset s
      if s.rc.state = .fatal then ok s
      else
        let parts := if bankOnly then s.slotParts.take 1 else if j.bankHeld then s.slotParts else s.slotParts.drop 1
        let (bad, s) := s.slotFill parts (s.slotAddr j.slot) j.bytes
        match bad with
        | some off => ok (s.snapError j.slot off)
        | none =>
          if bankOnly then ok (s.modRc fun r => { r with snap := some { j with bankHeld := false } })
          else
            let slots := s.fld Reg.SNAP_CFG 16 5
            let s := s.modRc fun r => { r with snap := none }
            let s := (s.setFlag Reg.SNAP_STATUS 31 false).setFld Reg.SNAP_STATUS 16 5 ((j.slot + 1) % slots)
            let s := s.setFld Reg.SNAP_STATUS 0 5 (s.fld Reg.SNAP_STATUS 0 5 + 1)
            ok ((s.wr64 Reg.SNAP_ECN_LO j.ecn).raise 1 1)

end Sys2Proof.Machine
end

