-- ==== Sys2Proof/Machine/RunControl.lean ====
section
/-!
DEFINITION. Run control (R238-R248), rewind (R141, R167), loading (R241, R468): the commands of CMD and the COMMAND
sets that carry them.
-/

namespace Sys2Proof.Machine

/-! ## Checks of a command (R47, R221, R239) -/

/-- The command code is legal in a run-control state, PARAM bit 0 given (R239). -/
def legalIn (code : Nat) (st : RcState) (variant : Bool) : Bool :=
  match code, st with
  | 0x01, .idle | 0x01, .loaded => true
  | 0x01, .paused | 0x01, .halted => variant
  | 0x02, .loading => true
  | 0x03, .loading | 0x03, .loaded | 0x03, .paused | 0x03, .halted => true
  | 0x10, .loaded | 0x10, .paused | 0x11, .loaded | 0x11, .paused => true
  | 0x12, .running | 0x12, .replaying => true
  | 0x13, .paused | 0x13, .halted => true
  | 0x14, .running | 0x14, .paused | 0x14, .replaying => true
  | _, _ => false

/-- The first tree check that fails (R221): tree, port, reason. -/
def State.treeCheck (s : State) : Option (Nat × Nat × Nat) :=
  let check (t p : Nat) (isParent : Bool) : Option (Nat × Nat × Nat) :=
    if s.fld (Reg.PORT_CFG p) 12 2 ≠ 0 then some (t, p, 0)
    else if !s.flag (Reg.PORT_STAT p) 31 then some (t, p, 1)
    else if isParent ∧ s.fld (Reg.PORT_PEER p) 0 13 ≠ s.fld (Reg.TREE_ID t) 16 13 then some (t, p, 2)
    else none
  ([0, 1].flatMap (fun t =>
    (if s.isRoot t then [] else [(t, s.parent t, true)]) ++ (s.children t).map (fun p => (t, p, false)))).findSome?
    (fun e => check e.1 e.2.1 e.2.2)

/-- Write NET_TREE_CFG for a failed tree check. -/
def State.treeCfgRecord (s : State) (e : Nat × Nat × Nat) : State :=
  s.record cRejected bSysnet 0x0508 (e.2.1 <<< 29 + e.1 <<< 28 + e.2.1 <<< 25 + e.2.2 <<< 23)

/-- RC_REJECTED_STATE (R239, R248). -/
def State.rejectState (s : State) (code : Nat) : State :=
  s.record cRejected bRunctl 0x0603 (code <<< 24 + s.rc.state.num)

/-! ## Rewind (R141, R167, R228, R250, R266, R312) -/

/-- Snapshot slot `k` holds a valid snapshot of `e`, with a correct CRC where `crc` asks for it (R141, R243). A part that
cannot be read holds none. -/
def State.slotHolds (s : State) (crc : Bool) (k e : Nat) : Bool × State :=
  let a := s.slotAddr k
  let (bad1, tail, s) := s.ddrRead .engine (a + 0xE0) 8
  if bad1 ∨ tail % 2 = 0 then (false, s)
  else
    let (bad2, hdr, s) := s.ddrRead .engine a 0xE0
    (!bad2 && decide (hdr % 2 ^ 64 = e) && (!crc || decide (tail / 2 ^ 32 = crc32 (bytesOfNat hdr 0xE0))), s)

/-- The lowest slot that `slotHolds` names. -/
def State.slotOf (s : State) (crc : Bool) (e : Nat) : Option Nat × State :=
  (List.range (s.fld Reg.SNAP_CFG 16 5)).foldl (fun (acc : Option Nat × State) k =>
    match acc.1 with
    | some _ => acc
    | none =>
      let (good, s) := acc.2.slotHolds crc k e
      (if good then some k else none, s)) (none, s)

/-- The valid writable regions of the clusters: cluster, region. -/
def State.validRegions (s : State) : List (Nat × Nat) :=
  s.clusterIds.flatMap (fun c => ((List.range 16).filter (fun r => s.flag (Reg.XQ_REGION_CFG c r) 31)).map
    (fun r => (c, r)))

/-- Why this device refuses a REWIND to S, if it does: the reason of CR_REWIND_REJECTED. A device with a FORERUNNER port
refuses every one with reason 2 (R228). -/
def State.rewindRefusal (s : State) (e : Nat) : Option Nat × State :=
  if (List.range 8).any (fun p => s.fld (Reg.PORT_CFG p) 12 2 = 2) then (some 2, s)
  else
    match s.slotOf true e with
    | (none, s) => (some 0, s)
    | (some k, s) =>
      let wr := s.validRegions.filter (fun x => s.flag (Reg.XQ_REGION_CFG x.1 x.2) 30)
      if (!s.flag Reg.JRNL_CFG 31 && !wr.isEmpty) || wr.any (fun x => !s.flag (Reg.XQ_REGION_CFG x.1 x.2) 29) ||
          decide (e < s.rd64 Reg.JRNL_TAIL_ECN_LO) || s.rc.trim.isSome then (some 1, s)
      else
        let (bad, v, s) := s.ddrRead .engine (s.slotAddr k + 0x20) 192
        let pos (i : Nat) : Nat := v / 2 ^ (64 * i) % 2 ^ 64
        if bad then (some 0, s)
        else if (List.range 16).any (fun h => s.flag (Reg.MP_IN_CFG h) 31 &&
            decide (pos (8 + h) + 2 ^ s.fld (Reg.MP_IN_CFG h) 0 5 < s.rd64 (Reg.MP_IN_WRITE_POS_LO h))) then (some 2, s)
        else
          match s.lynxRewindRefused e pos with
          | (true, s) => (some 2, s)
          | (false, s) =>
            let (no, s) := s.acqRewindRefused e
            (if no then some 2 else none, s)

/-- A device takes REWIND_GO(S): GEN advances and its restore begins (R141 order 3). -/
def State.actRewindGo (s : State) (e gen : Nat) : State :=
  if gen % 16 ≠ (s.net.gen + 1) % 16 ∨ s.rc.rewind ≠ some e then s
  else
    let s := (s.answered 0x1A).advanceGen gen
    let s := { s with net := { s.net with rewindA := [], rewindB := [], repeats := [] } }
    s.modRc fun r => { r with rewindGone := true }

/-- The REWIND is rejected (R141 order 3): CR_REWIND_REJECTED with the reason, and nothing else changes. -/
def State.rewindRejected (s : State) (reason : Nat) : State :=
  let s := s.record cRejected bRunctl 0x0207 reason
  let s := { s with net := { s.net with
    rewindA := [], rewindB := []
    repeats := s.net.repeats.filter (fun r => match r.2 with | .rewindReport _ false _ => false | _ => true) } }
  let s := s.modRc fun r => { r with rewind := none, rewindGone := false }
  match s.rc.cmd with
  | some c => if c.code = 0x13 then (s.modRc fun r => { r with cmd := none }).cmdStatus 6 0x13 else s
  | none => s

/-- A device that has reported success learns of another device's refusal: by the report it passes up, as a root by the
report itself, or, where neither reaches it, by the next COMMAND (DEDUCED, log 88). -/
def State.rewindLearns (s : State) : State :=
  if s.rc.rewind.isSome ∧ ¬ s.rc.rewindGone then s.rewindRejected 3 else s

/-- A successful REWIND_REPORT of this device (8) or of a child: sent up, or answered by the root, once all are
there (R141, R218). One that comes before the REWIND it answers has reached this device comes again (R215). -/
def State.rewindUp (s : State) (t child e : Nat) : State :=
  if s.rc.rewind ≠ some e then s
  else
  let l := if t = 0 then s.net.rewindA else s.net.rewindB
  let l := (child, e) :: l.filter (fun x => x.1 ≠ child)
  let s := if t = 0 then { s with net := { s.net with rewindA := l } }
           else { s with net := { s.net with rewindB := l } }
  if (8 :: s.children t).all (fun p => l.contains (p, e)) then
    if s.isRoot t then
      if s.rc.rewindGone then s
      else (s.castDown (.rewindGo e ((s.net.gen + 1) % 16))).actRewindGo e ((s.net.gen + 1) % 16)
    else (s.sendUp t (.rewindReport e false 0)).await t (.rewindReport e false 0)
  else s

/-- A refused REWIND_REPORT: the root rejects the command, another device passes it up. -/
def State.rewindRefusedUp (s : State) (t e reason : Nat) : State :=
  let s := if s.rc.rewind = some e then s.rewindLearns else s
  if s.isRoot t then s
  else (s.sendUp t (.rewindReport e true reason)).await t (.rewindReport e true reason)

/-- Order 2 of R141 on this device. -/
def State.startRewind (s : State) (e : Nat) : State :=
  match s.rewindRefusal e with
  | (no, s) =>
    if s.rc.state = .fatal then s
    else
      let s := s.modRc fun r => { r with rewind := some e, rewindGone := false }
      let s : State := { s with net := { s.net with rewindA := [], rewindB := [] } }
      match no with
      | none => s.bothTrees fun s t => s.rewindUp t 8 e
      | some why => ((s.rewindRejected why).rewindRefusedUp 0 e why).rewindRefusedUp 1 e why

/-- The regions that a rewind rebuilds: valid, writable and journalled (R167). -/
def State.rebuilds (s : State) (c r : Nat) : Bool :=
  let cfg := Reg.XQ_REGION_CFG c r
  s.flag cfg 31 && s.flag cfg 30 && s.flag cfg 29

/-- What ends the rebuilding of the regions: the detail of XQ_DRAIN_FAILED, which stands for any error response here
(DESIGN CHOICE, log 85), or a wrong CRC. -/
inductive RebuildEnd where
  | failed (detail : Nat)
  | crc
  deriving DecidableEq, Repr

/-- Apply the journal entries below S to the live regions (R167), from position `p`. -/
def State.rebuild : Nat → State → Nat → Nat → Nat → Option RebuildEnd × Nat × State
  | 0, s, p, _, _ => (none, p, s)
  | k + 1, s, p, head, e =>
    if head ≤ p then (none, p, s)
    else
      let (bad, v, s) := s.ddrRead .fabric (s.journalAddr p) 32
      if bad then (some (.failed 0), p, s)
      else if v / 2 ^ 224 ≠ crc32 (bytesOfNat (v % 2 ^ 224) 28) then (some .crc, p, s)
      else if e ≤ v % 2 ^ 64 then (none, p, s)
      else
        let c := v / 2 ^ 96 % 64; let r := v / 2 ^ 104 % 16
        if ¬ s.rebuilds c r then State.rebuild k s (p + 32) head e
        else
          let addr := s.fld (Reg.XQ_REGION_BASE c r) 0 26 * 4096 + v / 2 ^ 64 % 2 ^ 32 * 8
          let (bad, s) := s.ddrWriteBe .fabric addr (v / 2 ^ 112 % 256) (BitVec.ofNat 64 (v / 2 ^ 128))
          if bad then (some (.failed (c <<< 26 + r <<< 22)), p, s) else State.rebuild k s (p + 32) head e

/-- Copy each valid, writable and journalled region from its base image (R167); on an error response, the detail that names
the region. -/
def State.copyImages (s : State) : Option Nat × State :=
  (s.validRegions.filter (fun x => s.rebuilds x.1 x.2)).foldl (fun (acc : Option Nat × State) x =>
    match acc.1 with
    | some _ => acc
    | none =>
      let s := acc.2
      let n := 8 * 2 ^ s.fld (Reg.XQ_REGION_CFG x.1 x.2) 0 6
      let (bad, s) := s.ddrCopy .fabric (s.fld (Reg.XQ_REGION_IMG x.1 x.2) 0 26 * 4096)
        (s.fld (Reg.XQ_REGION_BASE x.1 x.2) 0 26 * 4096) n
      (bad.map fun _ => x.1 <<< 26 + x.2 <<< 22, s)) (none, s)

/-- Bytes `off` to `off + n - 1` of the slot at `a`; where the read gets an error response, which the spec gives no result,
a free content (log 7). -/
def State.slotRead (s : State) (a off n : Nat) : Map Byte × State :=
  match s.ddrMap .engine (a + off) n with
  | (some m, s) => (m, s)
  | (none, s) =>
    (((List.range n).map fun i => (i, (Config.freeContent s.freeCount i).setWidth 8)).filter fun e => e.2 ≠ 0,
      { s with freeCount := s.freeCount + 1 })

/-- The fabric, the accumulators and the DMB take what the slot at `a` holds: the start state in bank 0 (R141 order 4). -/
def State.restoreSlot (s : State) (a : Nat) : State :=
  let (state, s) := s.slotRead a 0x2000 (s.nClusters * 0x2000)
  let (accs, s) := s.slotRead a 0x1000 (s.nClusters * 16)
  let (dmbs, s) := s.slotRead a 0x10_0000 (s.nClusters * 0x4_0000)
  let bank0 : Map Bool := state.flatMap (fun x => ((List.range 8).filter (fun i => x.2.toNat.testBit i)).map
    (fun i => (x.1 / 32 * 256 + x.1 % 32 * 8 + i, true)))
  { s with
    banks := s.banks.set (fun _ => []) 0 bank0
    dmb := (wordsOf 8 dmbs).map fun e => (e.1, BitVec.ofNat 64 e.2)
    acc := (wordsOf 16 accs).map fun e => (e.1, BitVec.ofNat 128 e.2) }

/-- The ingress positions take those of the slot's header, and the device enters REPLAYING at `e` (R141 order 4). -/
def State.enterReplaying (s : State) (a e : Nat) : State :=
  let (pm, s) := s.slotRead a 0x20 192
  if s.rc.state = .fatal then s
  else
  let pos (i : Nat) : Nat := natOfBytes (bytesOfMap pm 192) / 2 ^ (64 * i) % 2 ^ 64
  let limits : Map Nat :=
    (List.range 16).map (fun h => (h, s.rd64 (Reg.MP_IN_WRITE_POS_LO h))) ++
    (List.range 8).map (fun b => (16 + b, s.rd64 (Reg.LX_IN_WRITE_POS_LO b)))
  let s := (List.range 16).foldl (fun s h =>
    if s.flag (Reg.MP_IN_CFG h) 31 then
      (s.wr64 (Reg.MP_IN_HEAD_POS_LO h) (pos (8 + h))).wr64 (Reg.MP_IN_RELEASE_POS_LO h) (pos (8 + h))
    else s) s
  let s := (s.lynxRewind e pos).acqRewind e
  let s := s.endDrainWait
  let s := s.wr64 Reg.REPLAY_LIMIT_LO s.rc.rewindLimit
  let cmd := s.rc.cmd
  let s := s.modRc fun r => { r with
    state := .replaying, inReplay := true, ecn := e, begun := false, stepping := false, sealNext := e
    runStart := e, curBank := 0, unsealed := [], latch := [], pendingStore := [], rewind := none
    rewindGone := false, liveLimit := limits.filter (fun x => x.2 ≠ 0), cmd := none, executed := e, waits := [], stop := none
    schedPause := none, stopLow := false, abort := none, resume := none, pauseAt := none, faults := [], unsaid := 0 }
  let s := { s with net := { s.net with lastSealUp := e, sentUp := [], childA := [], childB := [] } }
  match cmd with
  | some c => (s.wr64 Reg.CMD_ACTED_LO c.target).cmdStatus 2 c.code
  | none => s

/-- REWIND_RESTORE (R141 order 4, R167): state, DMB, regions and positions from the slot; then REPLAYING. Sealed entries of
the pending store that are still to be drained are dropped (DESIGN CHOICE, log 85: R141 does not say). -/
def execRewindRestore (s : State) : Host.Outcome State Fault Refusal :=
  match s.rc.rewind with
  | none => ok s
  | some e =>
    if ¬ s.rc.rewindGone then ok s
    else
    match s.slotOf true e with
    | (none, s) => ok (s.rewindRejected 0)
    | (some k, s) =>
      let a := s.slotAddr k
      let (bad1, s) := (s.fabricReset.restoreSlot a).copyImages
      if s.rc.state = .fatal then ok s
      else match bad1 with
      | some d => ok (s.fatal bDmemq 0x0306 d)
      | none =>
        let head := s.rd64 Reg.JRNL_HEAD_LO
        let tail := s.rd64 Reg.JRNL_TAIL_LO
        let (bad2, p, s) := State.rebuild ((head - tail) / 32 + 1) s tail head e
        if s.rc.state = .fatal then ok s
        else match bad2 with
        | some .crc => ok (s.fatal bDmemq 0x030A (p / 32))
        | some (.failed d) => ok (s.fatal bDmemq 0x0306 d)
        | none => ok ((s.wr64 Reg.JRNL_HEAD_LO p).enterReplaying a e)

/-! ## COMMAND (R245-R248) -/

/-- RUN and STEP take effect: ECN is T from LOADED, GEN advances, and a STEP arms its pause (R207, R245). A run from LOADED
counts its aborts (R131), its faults and its cycles anew (DESIGN CHOICE, log 111: R131 names the seal only); one from PAUSED
goes on counting. -/
def State.applyRun (s : State) (t code param : Nat) : State :=
  let fromLoaded := decide (s.rc.state = .loaded)
  let s := s.modRc fun r => if fromLoaded then { r with ecn := t, first := none } else r
  let s := s.advanceGen ((s.net.gen + 1) % 16)
  let s := s.modRc fun r => { r with
    state := if r.inReplay then .replaying else .running
    fresh := r.fresh || fromLoaded
    sealNext := if fromLoaded then t else r.sealNext
    executed := t
    unsealed := []
    latch := []
    runStart := t
    pauseAt := if code = 0x11 then some (t + param) else none
    stop := none, schedPause := none, stopLow := false, abort := none, resume := none, waits := [], begun := false
    stepping := false, halting := false, unsaid := 0
    faults := if fromLoaded then [] else r.faults
    reached := if fromLoaded then t else r.reached }
  let s := { s with net := { s.net with
    lastSealUp := t, sentUp := [], childA := [], childB := [], rolledA := [], rolledB := []
    aborts := if fromLoaded then [] else s.net.aborts
    repeats := s.net.repeats.filter (fun r => r.2.typ = 0x18) } }
  let s := s.emit ((s.upPorts 2).flatMap fun p => List.replicate 4 (.frSeq p 2 t 0))
  let s := s.lynxAnchor t
  if fromLoaded then s.acqRunFromLoaded else s

/-- A system command taken by this device (R245, R247, R248). -/
def State.actCommand (s : State) (target cseq code param : Nat) : State :=
  let m := Msg.command target cseq code param
  if s.rc.state = .fatal ∨ s.acted m 0 then s
  else
    -- CSEQs half the range back or more are forgotten: a new command may carry them again
    let s := { s with net := { s.net with acted := s.net.acted.filter (fun a =>
      (a.1 % 256 ≠ 0x20 ∧ a.1 % 256 ≠ 0x21) ∨ (cseq + 65536 - a.2.1 % 65536) % 65536 < 0x8000) } }.act m 0
    let s := s.rewindLearns.answered 0x1A
    if code = 0x15 then s.modRc fun r => { r with rewindLimit := target }
    else if ¬ legalIn code s.rc.state false then (s.rejectState code).askHalt
    else if code = 0x10 ∨ code = 0x11 then
      if s.nBanks < s.window + 1 then (s.record cRejected bFabric 0x0186 Reg.FAB_CFG).askHalt
      else match s.treeCheck with
        | some e => (s.treeCfgRecord e).askHalt
        | none =>
          -- a wake from OFF reads DDR, and may end in FATAL (R407)
          let s := s.wakeFabric
          if s.rc.state = .fatal then s
          else
            let s := s.applyRun target code param
            match s.rc.cmd with
            | some c => if c.code = 0x10 then
                ((s.modRc fun r => { r with cmd := none }).wr64 Reg.CMD_ACTED_LO target).cmdStatus 2 c.code else s
            | none => s
    else if code = 0x12 then
      if s.rc.ecn < target ∨ (s.rc.ecn = target ∧ ¬ s.rc.begun) then
        (s.modRc fun r => { r with pauseAt := some target }).checkPause
      else
        let s := s.modRc fun r => { r with pauseAt := some target }
        if (s.cycleRec target).any (fun r => r.committedAt.isNone) then
          (s.record cInfo bRunctl 0x0607 target).sendAbort target
        else s.fatal bRunctl 0x0209 0x0607
    else if code = 0x13 then s.wakeFabric.startRewind target
    else s

/-- The command root broadcasts a COMMAND: on tree A, and as COMMAND_RELAY up tree B, or on B where it is the root
of B too (R219). -/
def State.broadcastCommand (s : State) (target code param : Nat) : State :=
  let q := (s.rc.cseq + 1) % 65536
  let s := s.modRc fun r => { r with cseq := q }
  let s := s.setFld Reg.CMD_STATUS 0 16 q
  let s := s.sendDown 0 (.command target q code param)
  let s := if s.isRoot 1 then s.sendDown 1 (.command target q code param)
    else s.sendUp 1 (.commandRelay target q code param)
  s.actCommand target q code param

/-! ## CMD (R239, R241-R244) -/

/-- The command is judged in the present state, a pending system command included (R239, R242). -/
def State.cmdLegal (s : State) (code : Nat) (variant : Bool) : Bool :=
  legalIn code s.rc.state variant && (s.rc.cmd.isNone || code == 0x14)

/-- Reject a command for the state (R239). -/
def State.cmdRejectState (s : State) (code : Nat) : State := (s.rejectState code).cmdStatus 3 code

/-- Parts common to the local commands. -/
def State.localCmd (s : State) (code : Nat) (variant : Bool) (f : State → State) : State :=
  if s.cmdLegal code variant then f s else s.cmdRejectState code

/-- A local command is done. -/
def State.cmdDone (s : State) (code : Nat) : State := (s.wr64 Reg.CMD_ACTED_LO s.rc.ecn).cmdStatus 2 code

/-- The target of a system command, or the T that breaks its condition (R243): a REWIND names a snapshot ECN, which a slot
with VALID = 1 carries in its header. -/
def State.cmdTarget (s : State) (code : Nat) (auto : Bool) : (Nat × Bool) × State :=
  let h := s.rc.sealNext + s.window - 1
  let t := s.rd64 Reg.CMD_TARGET_LO
  match code with
  | 0x12 => (if auto then (h + s.fld Reg.RC_CFG 0 8, true) else (t, decide (h < t)), s)
  | 0x13 =>
    let (k, s) := s.slotOf false t
    ((t, k.isSome), s)
  | _ =>
    (if s.rc.state = .loaded then (if auto then 0 else t, true)
     else if auto then (s.rc.ecn, true) else (t, decide (t = s.rc.ecn)), s)

/-- A system command other than HALT written to CMD (R242-R244): root, state, target, then the checks of R47 and
R221 for RUN and STEP, and the broadcast. -/
def State.systemCmd (s : State) (code param : Nat) (auto : Bool) : State :=
  if !s.isRoot 0 then (s.record cRejected bRunctl 0x0605 (code <<< 24)).cmdStatus 5 code
  else if !s.cmdLegal code false then s.cmdRejectState code
  else
    let ((t, good), s) := s.cmdTarget code auto
    if s.rc.state = .fatal then s
    else if !good then (s.record cRejected bRunctl 0x0604 t).cmdStatus 4 code
    else if (code = 0x10 ∨ code = 0x11) ∧ s.nBanks < s.window + 1 then
      (s.record cRejected bFabric 0x0186 Reg.FAB_CFG).cmdStatus 6 code
    else
      match (if code = 0x10 ∨ code = 0x11 then s.treeCheck else none) with
      | some e => (s.treeCfgRecord e).cmdStatus 6 code
      | none =>
        let limit := s.rc.sealNext
        let s := if code = 0x13 then s.broadcastCommand limit 0x15 0 else s
        let s := s.cmdStatus 1 code
        let s := s.modRc fun r => { r with cmd := some ⟨code, param, t, (r.cseq + 1) % 65536⟩ }
        s.broadcastCommand t code param

/-- HALT (R244): cancels a pending command, and SYSTEM_HALT goes out at once; it is pending until the root has halted. -/
def State.haltCmd (s : State) : State :=
  if !s.isRoot 0 then (s.record cRejected bRunctl 0x0605 (0x14 <<< 24)).cmdStatus 5 0x14
  else if !s.cmdLegal 0x14 false then s.cmdRejectState 0x14
  else
    let s := match s.rc.cmd with
      | some _ => s.raise 2 1
      | none => s
    let s := (s.modRc fun r => { r with cmd := some ⟨0x14, 0, r.sealNext, r.cseq⟩ }).cmdStatus 1 0x14
    let g := s.net.gen
    let s := s.castDown (.systemHalt s.rc.sealNext s.devId)
    s.actSystemHalt g s.rc.sealNext s.devId

/-- The first load condition that stops LOAD_END (R241): BUSY before ERROR, IMEM before DMB before maps, lowest
cluster first. -/
def State.loadBlock (s : State) : Option Nat :=
  let lowest (l : List Nat) : Option Nat := match l with | [] => none | a :: r => some (r.foldl min a)
  match lowest s.rc.loadBusy, lowest s.rc.dmBusy with
  | some c, _ => some (c <<< 26)
  | none, some c => some (c <<< 26 + 1 <<< 24)
  | none, none =>
    if s.net.busy then some (0x3F <<< 26 + 2 <<< 24)
    else match lowest s.rc.loadErr, lowest s.rc.dmErr with
      | some c, _ => some (c <<< 26 + 1 <<< 23)
      | none, some c => some (c <<< 26 + 1 <<< 24 + 1 <<< 23)
      | none, none => if s.rc.mapErr then some (0x3F <<< 26 + 2 <<< 24 + 1 <<< 23) else none

/-- The image mismatches of R468, in the order of the detail codes. -/
def State.imageMismatches (s : State) : List Nat :=
  (if s.fld Reg.IMG_CFG 0 12 ≠ s.cycleLen then [0] else []) ++
  (if s.fld Reg.IMG_CFG 24 4 ≠ s.nBanks then [1] else []) ++
  (if s.fld Reg.IMG_CFG 16 4 ≠ s.window then [2] else []) ++
  (if s.rc.variant ∧ s.rd Reg.IMG_CFG_ID ≠ s.rd Reg.IMG_ACTIVE_CFG_ID then [3] else []) ++
  (if s.rc.variant ∧ s.rd Reg.IMG_BODY_ID ≠ s.rd Reg.IMG_ACTIVE_BODY_ID then [4] else [])

/-- LOAD_END (R241, R468). -/
def State.loadEnd (s : State) : State :=
  match s.loadBlock with
  | some d => (s.record cRejected bRunctl 0x0606 d).cmdStatus 6 0x02
  | none =>
    match s.imageMismatches with
    | [] =>
      let s := ((s.wr Reg.IMG_ACTIVE_CFG_ID (s.rd Reg.IMG_CFG_ID)).wr Reg.IMG_ACTIVE_BODY_ID
        (s.rd Reg.IMG_BODY_ID)).wr Reg.IMG_ACTIVE_PROBE_ID (s.rd Reg.IMG_PROBE_ID)
      -- a halt acted on before this load ends does not hide one that comes after it (R240)
      let s : State := { s with net := { s.net with acted := s.net.acted.filter (fun a => a.1 % 256 ≠ 0x19) } }
      (s.modRc fun r => { r with
        state := if r.variant then r.ret else .loaded
        variant := false
        ret := .idle }).cmdDone 0x02
    | l => (l.foldl (fun s k => s.record cRejected bRunctl 0x1006 k) s).cmdStatus 6 0x02

/-- LOAD_BEGIN (R241). -/
def State.loadBegin (s : State) (param : Nat) : State :=
  let v := param % 2 = 1 ∧ (s.rc.state = .paused ∨ s.rc.state = .halted)
  let s := s.modRc fun r => { r with
    ret := if v then r.state else .idle
    variant := decide v
    state := .loading
    loadErr := [], dmErr := [], mapErr := false }
  s.acqLoadBegin.cmdDone 0x01

/-- A servo that is OFF (R342): it has no estimate until an exchange completes. -/
def Servo.off (v : Servo) : Servo := { last := v.last }

/-- Both time servos are OFF (R342, R348). -/
def State.timeOff (s : State) : State :=
  { s with time := { s.time with servoA := s.time.servoA.off, servoB := s.time.servoB.off } }

/-- UNLOAD (R239): IDLE. -/
def State.unload (s : State) : State :=
  ((s.modRc fun r => { r with
    state := .idle, variant := false, ret := .idle, inReplay := false, unsealed := [], pauseAt := none, abort := none
    resume := none, stop := none, schedPause := none, stopLow := false, first := none }).timeOff).cmdDone 0x03

/-- The word that a command row writes to CMD (R239). -/
def cmdWord (w : CmdWrite) (code : Nat) : Nat :=
  (if w.auto then 2 ^ 31 else 0) + w.param % 65536 * 256 + code % 256

/-- A command issued with its code, PARAM and AUTO after clamping (R239). -/
def State.issue (s : State) (code param : Nat) (auto : Bool) : State :=
  match code with
  | 0x01 => s.localCmd 0x01 (param % 2 = 1) fun s => s.loadBegin param
  | 0x02 => s.localCmd 0x02 false State.loadEnd
  | 0x03 => s.localCmd 0x03 false State.unload
  | 0x14 => s.haltCmd
  | _ => s.systemCmd code param auto

/-- The codes of R239. -/
def cmdCodes : List Nat := [0x01, 0x02, 0x03, 0x10, 0x11, 0x12, 0x13, 0x14]

/-- A write of CMD (R239): a code not listed is clamped to NONE, which is issued and rejected; PARAM 0 of a STEP is
clamped to 1; reserved bits are recorded (R10). -/
def State.writeCmd (s : State) (init : Initiator) (v : Nat) : State :=
  let code := bits v 0 8
  let known := cmdCodes.contains code
  let param := bits v 8 16
  let p := if code = 0x11 ∧ param = 0 then 1 else param
  let s := if known ∨ code = 0 then s else s.clamped init Reg.CMD 0 8 v 0
  let s := if p = param then s else s.clamped init Reg.CMD 8 16 v 1
  let s := if bits v 24 7 = 0 then s else s.clamped init Reg.CMD 24 7 v 0
  if known then s.issue code p (v.testBit 31) else s.cmdStatus 7 0

/-! ## The rows of the tree sets -/

/-- The full ECN nearest this device's own, of the 48 bits that a set carries (R213). -/
def State.widenEcn (s : State) (n : Nat) : Nat := widenNear 48 n s.rc.ecn

/-- A control ordered set that spells `m` arrives (R213, R224, R512): one with a wrong CRC-16, TYPE or coding is discarded
and counted; a port with PEER_DOWN and a device in FATAL act on none; a good tree set ends its link's silence (R220). -/
def State.onSet (s : State) (h : SetHdr) (m : Msg) (f : State → State) : State :=
  if h.bad ∨ h.crc ≠ m.crc h.tree h.gen then s.count (Reg.CTRL_ERR h.port) 0 32 1
  else if (s.link h.port).peerDown ∨ s.rc.state = .fatal then s
  else
    let s := if h.tree = 1 then (s.modLink h.port fun l => { l with heardA := s.now }).setFlag Reg.TREE_STAT (16 + h.port % 8) false
      else if h.tree = 2 then (s.modLink h.port fun l => { l with heardB := s.now }).setFlag Reg.TREE_STAT (24 + h.port % 8) false
      else s
    f s

/-- A down set of a tree: it is passed on to the children of its own tree, and, by the root of the other tree that
has not made the same broadcast, on that tree too (R218, R219); `act` is the device's own part. -/
def State.onDown (s : State) (h : SetHdr) (m : Msg) (act : State → State) : State :=
  s.onSet h m fun s =>
    let t := h.tree - 1
    let o := 1 - t
    let s := s.sendDownAs t h.gen m
    let s := if s.isRoot o ∧ ¬ s.net.acted.contains (m.cast h.gen) then s.sendDownAs o h.gen m else s
    act s

/-- COMMITTED (R218): taken when R209 accepts it. -/
def execCommitted (h : SetHdr) (w : Nat) (s : State) : Host.Outcome State Fault Refusal :=
  let w := s.widenEcn w
  ok (s.onSet h (.committed w) fun s =>
    if s.accepts h.gen w then
      let s := if h.tree = 1 then { s with net := { s.net with childA := s.net.childA.set (fun _ => 0) h.port (w + 1) } }
        else { s with net := { s.net with childB := s.net.childB.set (fun _ => 0) h.port (w + 1) } }
      s.watermark (h.tree - 1)
    else s)

/-- GLOBAL_SEAL (R218). -/
def execGlobalSeal (h : SetHdr) (w : Nat) (s : State) : Host.Outcome State Fault Refusal :=
  let w := s.widenEcn w
  ok (s.onSet h (.globalSeal w) fun s =>
    let t := h.tree - 1
    let rise := decide (s.net.lastSealUp < w + 1) && s.current h.gen w
    let s := s.sendDownAs t h.gen (.globalSeal w)
    let s := if s.isRoot (1 - t) ∧ rise then s.sendDownAs (1 - t) h.gen (.globalSeal w) else s
    if rise then s.actSeal w else s)

/-- ABORT_UP (R125, R130, R131). -/
def execAbortUp (h : SetHdr) (n dev : Nat) (s : State) : Host.Outcome State Fault Refusal :=
  let n := s.widenEcn n
  ok (s.onSet h (.abortUp n dev) fun s => s.abortUp (h.tree - 1) h.gen n dev)

/-- ABORT (R125 order 4). The root of the other tree counts it as a broadcast of its own (R131, R219). -/
def execAbort (h : SetHdr) (n : Nat) (s : State) : Host.Outcome State Fault Refusal :=
  let n := s.widenEcn n
  let m := Msg.abort n
  ok (s.onSet h m fun s =>
    let t := h.tree - 1
    let o := 1 - t
    let s := s.sendDownAs t h.gen m
    let s := if s.isRoot o ∧ s.live ∧ ¬ s.net.acted.contains (m.cast h.gen) then
      s.castAbort n fun s => s.sendDownAs o h.gen m else s
    s.actAbort h.gen n)

/-- ROLLED_BACK (R125 orders 6 and 7). -/
def execRolledBack (h : SetHdr) (n : Nat) (s : State) : Host.Outcome State Fault Refusal :=
  let n := s.widenEcn n
  ok (s.onSet h (.rolledBack n) fun s => s.rolledBackUp (h.tree - 1) h.gen h.port n)

/-- REPLAY_GO (R125 order 8, R207). -/
def execReplayGo (h : SetHdr) (n gen : Nat) (s : State) : Host.Outcome State Fault Refusal :=
  let n := s.widenEcn n
  ok (s.onDown h (.replayGo n gen) fun s => s.actReplayGo n gen)

/-- SCHED_STOP (R110, R112). -/
def execSchedStop (h : SetHdr) (n dev : Nat) (s : State) : Host.Outcome State Fault Refusal :=
  let n := s.widenEcn n
  ok (s.onSet h (.schedStop n dev) fun s => s.schedStopUp (h.tree - 1) h.gen n dev)

/-- SCHED_PAUSE (R110 order 4). -/
def execSchedPause (h : SetHdr) (target : Nat) (s : State) : Host.Outcome State Fault Refusal :=
  let target := s.widenEcn target
  ok (s.onDown h (.schedPause target) fun s => s.actSchedPause h.gen target)

/-- HALT_REPORT (R133). -/
def execHaltReport (h : SetHdr) (dev : Nat) (s : State) : Host.Outcome State Fault Refusal :=
  ok (s.onSet h (.haltReport dev) fun s => s.haltReport (h.tree - 1) h.gen dev)

/-- SYSTEM_HALT (R133 order 3): on a tree, where it is passed on as every down set is, or as the copy that a neighbour
sends on the port. -/
def execSystemHalt (h : SetHdr) (ecn dev : Nat) (s : State) : Host.Outcome State Fault Refusal :=
  let n := s.widenEcn ecn
  let m := Msg.systemHalt n dev
  ok (if h.tree = 0 then s.onSet h m fun s => s.actSystemHalt h.gen n dev
    else s.onDown h m fun s => s.actSystemHalt h.gen n dev)

/-- REWIND_REPORT (R141, R218), of the present generation (R214). -/
def execRewindReport (h : SetHdr) (e : Nat) (refused : Bool) (reason : Nat) (s : State) :
    Host.Outcome State Fault Refusal :=
  let e := s.widenEcn e
  ok (s.onSet h (.rewindReport e refused reason) fun s =>
    if h.gen ≠ s.net.gen then s
    else if refused then s.rewindRefusedUp (h.tree - 1) e reason else s.rewindUp (h.tree - 1) h.port e)

/-- REWIND_GO (R141 order 3). -/
def execRewindGo (h : SetHdr) (e gen : Nat) (s : State) : Host.Outcome State Fault Refusal :=
  let e := s.widenEcn e
  ok (s.onDown h (.rewindGo e gen) fun s => s.actRewindGo e gen)

/-- COMMAND (R245-R248). -/
def execCommand (h : SetHdr) (target cseq code param : Nat) (s : State) : Host.Outcome State Fault Refusal :=
  let t := s.widenEcn target
  ok (s.onDown h (.command t cseq code param) fun s => s.actCommand t cseq code param)

/-- COMMAND_RELAY (R219): the tree B root broadcasts it on B; another device passes it up. -/
def execCommandRelay (h : SetHdr) (target cseq code param : Nat) (s : State) : Host.Outcome State Fault Refusal :=
  let t := s.widenEcn target
  ok (s.onSet h (.commandRelay t cseq code param) fun s =>
    if s.isRoot 1 then
      if s.acted (.commandRelay t cseq code param) 0 then s
      else ((s.act (.commandRelay t cseq code param) 0).sendDown 1 (.command t cseq code param)).actCommand
        t cseq code param
    else s.sendUpAs 1 h.gen (.commandRelay t cseq code param))

/-- TRIGGER_UP (R222). -/
def execTriggerUp (h : SetHdr) (ecn origin seq lines : Nat) (s : State) : Host.Outcome State Fault Refusal :=
  let n := s.widenEcn ecn
  ok (s.onSet h (.triggerUp n origin seq lines) fun s => (s.triggerUp (h.tree - 1) n origin seq lines).launchTrigger)

/-- SYSTEM_TRIGGER (R222): TRIGGER received. -/
def execSystemTrigger (h : SetHdr) (ecn origin seq lines : Nat) (s : State) : Host.Outcome State Fault Refusal :=
  let n := s.widenEcn ecn
  ok (s.onDown h (.trigger n origin seq lines) fun s => (s.actTrigger n origin seq lines).launchTrigger)

end Sys2Proof.Machine
end

