-- ==== Sys2Proof/Machine/Time.lean ====
section
/-!
DEFINITION. The time bases and time exchange (chapter 13): TB0 and its discipline, the servos, the TB1 output,
timers, and the tick.
-/

namespace Sys2Proof.Machine

/-- Change the time bases. -/
def State.modTime (s : State) (f : TimeBase → TimeBase) : State := { s with time := f s.time }

/-- A signed number as the low `w` bits of two's complement, saturating. -/
def satField (w : Nat) (x : Int) : Nat := ((satTo w x).1 % (2 ^ w : Int)).toNat

/-! ## Servos and the TB1 output (R338, R342-R344) -/

/-- Servo `t` as it stands. -/
def State.servo (s : State) (t : Nat) : Servo := if t = 0 then s.time.servoA else s.time.servoB

/-- Change servo `t`. -/
def State.modServo (s : State) (t : Nat) (f : Servo → Servo) : State :=
  s.modTime fun x => if t = 0 then { x with servoA := f x.servoA } else { x with servoB := f x.servoB }

/-- The master of tree `t` (TB1_MASTER_ID). -/
def State.masterOf (s : State) (t : Nat) : Nat := s.fld Reg.TB1_MASTER_ID (16 * t) 13

/-- This device is master `t`; in IDLE every servo is OFF, the master's too (DEDUCED, log 21). -/
def State.isMaster (s : State) (t : Nat) : Bool := decide (s.masterOf t = s.devId)

/-- The state of servo `t` (R338, R342). -/
def State.servoState (s : State) (t : Nat) : Nat :=
  if s.rc.state = .idle then 0
  else if s.isMaster t then 2
  else if s.isRoot t then 0
  else (s.servo t).state

/-- TB0 in 10^-9 ns. -/
def State.tb0Fine (s : State) : Nat := s.time.tb0 * 10 ^ 9 + s.time.frac

/-- TB1 in 10^-9 ns. -/
def State.tb1Fine (s : State) : Nat := s.time.tb1 * 10 ^ 9 + s.time.tb1Frac

/-- The estimate of servo `t`, in 10^-9 ns; of a servo that has none, a free value (log 7). -/
def State.estimate (s : State) (t : Nat) : Int :=
  if s.rc.state ≠ .idle ∧ s.isMaster t then (s.tb0Fine : Int)
  else if (s.servo t).known then (s.servo t).est
  else ((Config.freeValue s.freeCount).toNat : Int)

/-- The value of a base a timer compares with: TB0, or TB1 while it is locked (R345). -/
def State.timerBase (s : State) (k : Nat) : Nat :=
  if s.flag (Reg.TMR_CFG k) 30 ∧ s.time.tb1Locked then s.time.tb1 else s.time.tb0

/-- TMR_TIME in effect. -/
def State.timerTime (s : State) (k : Nat) : Nat := s.time.tmrTime.get (fun _ => 0) k

/-- Timers whose TMR_TIME a step from the state `s0` has passed (R347). -/
def State.noteSteps (s0 s : State) : State :=
  (List.range 8).foldl (fun t k =>
    if s.flag (Reg.TMR_CFG k) 31 ∧ s0.timerBase k < s.timerTime k ∧ s.timerTime k ≤ s.timerBase k then
      t.modTime fun x => { x with late := x.late ++ [k], skip := x.skip ++ [k] }
    else t) s

/-- The target that TB1_CFG.SEL and the servos choose (R343); the return from B to A is its own event. -/
def State.chosenTarget (s : State) : Nat :=
  match s.fld Reg.TB1_CFG 0 2 with
  | 1 => 0
  | 2 => 1
  | _ => if s.servoState 0 ≠ 2 ∧ s.servoState 1 = 2 then 1 else s.time.target

/-- Change the target (R344). -/
def State.setTarget (s : State) (t : Nat) : State :=
  if s.time.target = t then s
  else ((s.modTime fun x => { x with target := t, slewing := x.started }).record cInfo bTime 0x0A04 t).raise 10 2

/-- In IDLE, and on a tree without a parent port, a servo is OFF (R342). -/
def State.servoSettle (s : State) (t : Nat) : State :=
  if s.rc.state = .idle ∨ s.isRoot t then s.modServo t Servo.off else s

/-- The rate of servo `t` against TB0; that of the master is TB0's own (R338). -/
def State.servoRate (s : State) (t : Nat) : Int := if s.isMaster t then 0 else (s.servo t).rate

/-- The target and the lock of TB1 after a change of a servo or of a setting (R343, R344). -/
def State.timeUpdate (s : State) : State :=
  let s := (s.servoSettle 0).servoSettle 1
  let s := s.modTime fun x => { x with
    aLocked := if s.servoState 0 = 2 then some (x.aLocked.getD x.clock) else none }
  let s := s.setTarget s.chosenTarget
  let s := if s.servoState s.time.target = 2 then s.modTime fun x => { x with holdRate := s.servoRate x.target } else s
  let locked := decide (s.servoState s.time.target = 2)
  if locked = s.time.tb1Locked then s
  else if locked then
    let t := if s.time.started then s.modTime fun x => { x with tb1Locked := true }
      else
        let e := (s.estimate s.time.target).toNat
        s.modTime fun x => { x with
          tb1Locked := true, started := true, tb1 := e / 10 ^ 9 % 2 ^ 64, tb1Frac := e % 10 ^ 9 }
    s.noteSteps t
  else
    let t := ((s.modTime fun x => { x with tb1Locked := false, slewing := false }).record cInfo bTime 0x0A05
      s.time.target).raise 10 3
    s.noteSteps t

/-- Both servos return to OFF (R342, R348). -/
def State.servosOff (s : State) : State := s.timeOff.timeUpdate

/-- The TB1 output over one increment of TB0 of `inc` (10^-9 ns): it follows its target, at most PPB faster or
slower than TB0; in holdover it runs at the rate of its last target (R344). -/
def State.tb1Advance (s : State) (inc : Int) : State :=
  if !s.time.started then s
  else
    let v : Int := s.tb1Fine
    let lim := inc * s.fld Reg.TB1_SLEW 0 24 / 10 ^ 9
    let (new, slewing) : Int × Bool :=
      if s.time.tb1Locked then
        let d := s.estimate s.time.target - (v + inc)
        let move := if d < -lim then -lim else if lim < d then lim else d
        let rest := (d - move).natAbs
        (v + inc + move, decide ((s.fld Reg.TB1_CFG 16 8) * 10 ^ 9 ≤ rest))
      else (v + inc + inc * s.time.holdRate / 10 ^ 9, s.time.slewing)
    let n := new.toNat
    s.modTime fun x => { x with tb1 := n / 10 ^ 9 % 2 ^ 64, tb1Frac := n % 10 ^ 9, slewing := slewing }

/-- One period of REFCLK100 (R334-R337): TB0 advances by 10 ns, corrected by the discipline loop and by the slew of
TB0_ADJ at 100 ppm; the servos and TB1 run with it. -/
def State.timeTick (s : State) : State :=
  let lim : Int := 10 * 100_000
  let sl := if s.time.slew < -lim then -lim else if lim < s.time.slew then lim else s.time.slew
  let inc : Int := 10 * 10 ^ 9 + 10 * s.time.rate + sl
  let fine := s.tb0Fine + inc.toNat
  let run (v : Servo) : Servo := if v.known then { v with est := v.est + inc + inc * v.rate / 10 ^ 9 } else v
  let s1 := s.modTime fun x => { x with
    clock := x.clock + (fine / 10 ^ 9 - x.tb0)
    tb0 := fine / 10 ^ 9 % 2 ^ 64
    frac := fine % 10 ^ 9
    slew := x.slew - sl
    servoA := run x.servoA
    servoB := run x.servoB }
  (s1.tb1Advance inc).timeUpdate

/-! ## TB0 (R336, R337) -/

/-- TB0 steps to `v` (R336, R337): LOCKED clears, and the timers it passes are to fire. -/
def State.stepTb0 (s : State) (v : Nat) : State :=
  let d : Int := (v : Int) - s.time.tb0
  let t := s.modTime fun x => { x with tb0 := v % 2 ^ 64, frac := 0, edges := 0 }
  let t := (t.setFlag Reg.TB0_STAT 31 false).record cInfo bTime 0x0A01 (satField 32 d)
  (s.noteSteps t).raise 10 0

/-- The edge period of the discipline source, in ns (R336). -/
def State.edgePeriod (s : State) : Nat :=
  if s.fld Reg.TB0_CFG 0 2 = 1 then 10 ^ 9 else s.rd Reg.TB0_SYNC_PERIOD * 1000

/-- The edge of a pin (none: PPS_IN) is a discipline edge (R336, R317). -/
def State.isDiscipline (s : State) (pin : Option Nat) (rising : Bool) : Bool :=
  match s.fld Reg.TB0_CFG 0 2, pin with
  | 1, none => rising != s.flag Reg.TB0_CFG 8
  | 2, some k =>
    let e := s.fld (Reg.ACQ_TRIGIO k) 3 2
    decide (k = s.fld Reg.TB0_CFG 4 3) && !s.flag (Reg.ACQ_TRIGIO k) 0 &&
      (e == 2 || (e == 0 && rising) || (e == 1 && !rising))
  | _, _ => false

/-- DISCIPLINE_EDGE (R336). The correction that the loop chooses is a free value within ±200 ppm (log 7). -/
def execDisciplineEdge (pin : Option Nat) (rising : Bool) (s : State) : Host.Outcome State Fault Refusal :=
  if !s.isDiscipline pin rising then ok s
  else
    let p := s.edgePeriod
    let v := s.time.tb0
    let near := (v + p / 2) / p * p
    let e : Int := (v : Int) - near
    let s := (s.wr64 Reg.TB0_EDGE_LO v).modTime fun x => { x with lastEdge := x.clock, lostNoted := false }
    if s.time.setAt = some s.time.clock then ok s   -- SET_NOW at the same moment: the edge is not used (R348)
    else if s.flag Reg.TB0_STAT 30 then
      ok ((s.setFlag Reg.TB0_STAT 30 false).stepTb0 (s.rd64 Reg.TB0_SET_LO))
    else
      let s := s.setFld Reg.TB0_STAT 0 24 (satField 24 e)
      if s.fld Reg.TB0_CFG 16 16 * 1000 < e.natAbs then ok (s.stepTb0 near)
      else
        let (f, s) := s.free
        let rate : Int := ((f.toNat % 400_001 : Nat) : Int) - 200_000
        let n := if e.natAbs < 100 then s.time.edges + 1 else 0
        let s := (s.modTime fun x => { x with rate := rate, edges := n }).wr Reg.TB0_RATE (satField 32 rate)
        ok (if 4 ≤ n then s.setFlag Reg.TB0_STAT 31 true else s)

/-- TIME_SYNC_LOST (R336): no edge within 1.5 periods. -/
def execTimeSyncLost (s : State) : Host.Outcome State Fault Refusal :=
  let src := s.fld Reg.TB0_CFG 0 2
  if src = 0 ∨ s.time.lostNoted ∨ s.time.clock - s.time.lastEdge < s.edgePeriod * 3 / 2 then ok s
  else
    let s := (s.modTime fun x => { x with lostNoted := true, edges := 0 }).setFlag Reg.TB0_STAT 31 false
    ok ((s.record cInfo bTime 0x0A02 src).raise 10 1)

/-! ## Time exchange (R339-R342) -/

/-- A correction of PORT_ASYM in 2^-16 ns (R341); an exchange uses those in force as it begins. -/
def State.asym (s : State) (p : Nat) (tx : Bool) : Int :=
  fieldInt true 16 (s.fld (Reg.PORT_ASYM p) (if tx then 16 else 0) 16) * 65536 / 1000

/-- A time in 10^-9 ns as a stamp in 2^-16 ns, with the sub-nanosecond part of the event. -/
def stampOf (fine : Int) (frac : Nat) : Int := fine * 65536 / 10 ^ 9 + frac

/-- STAMP of a set (R339). -/
def stampField (x : Int) : Nat := (x % (2 ^ 64 : Int)).toNat

/-- STAMP widened to the full value nearest the estimate of servo `t` (R339). -/
def State.widen (s : State) (t stamp : Nat) : Int :=
  (widenNear 64 stamp (stampOf (s.estimate t) 0).toNat : Nat)

/-- Send a time-exchange set on a port that sends sets; a device in FATAL sends none (R348, R512). -/
def State.sendExch (s : State) (port typ t seq stamp : Nat) : State :=
  if s.portSends port then s.emit [.exch port typ t seq (s.masterOf t) stamp] else s

/-- The port is UP in the SYSTEM role. -/
def State.upSystem (s : State) (p : Nat) : Bool := (s.upPorts 0).contains p

/-- A part of the exchange is missing at its bound (R340): DELAY_REQ, and with it the rest, 4 µs after SYNC. -/
def ExchParent.over (e : ExchParent) (clock : Nat) : Bool := decide (e.began + 4000 < clock)

/-- The same on the child's side: FOLLOW_UP 1 µs after SYNC, DELAY_RESP 4 µs after it. -/
def ExchChild.over (e : ExchChild) (clock : Nat) : Bool := decide (e.began + (if e.t1.isNone then 1000 else 4000) < clock)

/-- Abandon an exchange with a part missing (R340): on the parent's side of `port` and tree `t`, and on the child's. -/
def State.loseParent (s : State) (port t : Nat) : State :=
  (s.modTime fun x => { x with exchP := x.exchP.set (fun _ => none) (port * 2 + t) none }).count Reg.EXCH_LOST 0 32 1

@[inherit_doc State.loseParent]
def State.loseChild (s : State) (t : Nat) : State :=
  (s.modTime fun x => { x with exchC := x.exchC.set (fun _ => none) t none }).count Reg.EXCH_LOST 0 32 1

/-- The exchanges of a port and tree that have passed a bound are abandoned before anything comes of a later part. -/
def State.endExch (s : State) (port t : Nat) : State :=
  let s := if (s.time.exchP.get (fun _ => none) (port * 2 + t)).any (·.over s.time.clock) then s.loseParent port t else s
  if (s.time.exchC.get (fun _ => none) t).any (fun e => decide (e.port = port) && e.over s.time.clock) then s.loseChild t else s

/-- EXCHANGE_DUE (R340): the parent begins an exchange on a child port, SYNC and FOLLOW_UP, or skips it. FOLLOW_UP
leaves at the time of SYNC (DESIGN CHOICE within the bound of R340, log 22). -/
def execExchangeDue (port tree frac : Nat) (s : State) : Host.Outcome State Fault Refusal :=
  let t := tree % 2
  let k := port * 2 + t
  let dt := 1000 * 2 ^ s.fld Reg.TB1_CFG 8 4
  if ¬ ((s.children t).contains port ∧ s.upSystem port ∧ s.portSends port) then ok s
  else if s.time.clock < s.time.dueAt.get (fun _ => 0) k + dt then ok s
  else
    let s := (s.modTime fun x => { x with dueAt := x.dueAt.set (fun _ => 0) k x.clock }).endExch port t
    match s.time.exchP.get (fun _ => none) k with
    | some _ => ok s
    | none =>
      let q := s.time.seqs.get (fun _ => 0) k
      let t1 := stampOf (s.estimate t) (frac % 65536) + s.asym port true
      let s := { s with freeCount := s.freeCount + 1 }
      let s := s.modTime fun x => { x with
        seqs := x.seqs.set (fun _ => 0) k ((q + 1) % 256)
        exchP := x.exchP.set (fun _ => none) k (some { seq := q, began := x.clock, asym := s.asym port false }) }
      ok ((s.sendExch port 1 t q 0).sendExch port 2 t q (stampField t1))

/-- A time-exchange set of a TYPE arrives (R339, R342): a bad one is counted, one of a foreign master is discarded and
recorded once. A port that is not UP, or whose peer is down, takes no set, and a device in FATAL acts on none (R180, R224,
R512). -/
def State.onExch (s : State) (x : ExchSet) (typ : Nat) (f : State → State) : State :=
  let t := x.tree % 2
  let k := x.port * 2 + t
  if ¬ (s.upSystem x.port ∧ s.portSends x.port) then s
  else if x.bad ∨ x.crc ≠ crc16 (exchBytes typ t x.seq x.master x.stamp) then s.count Reg.EXCH_ERR 0 32 1
  else if x.master ≠ s.masterOf t then
    if s.time.noted.contains k then s
    else ((s.modTime fun y => { y with noted := k :: y.noted }).record cConfig bTime 0x0A06
      (x.port * 2 ^ 29 + t * 2 ^ 28 + x.master % 2 ^ 13)).raise 10 4
  else f ((s.modTime fun y => { y with noted := y.noted.filter (· ≠ k) }).endExch x.port t)

/-- The port is the parent port of tree `t`. -/
def State.fromParent (s : State) (t port : Nat) : Bool := !s.isRoot t && decide (port = s.parent t)

/-- SYNC (R340 order 2): the child stamps t2. An exchange that it finds unfinished has a part missing. -/
def execSync (x : ExchSet) (s : State) : Host.Outcome State Fault Refusal :=
  ok (s.onExch x 1 fun s =>
    let t := x.tree % 2
    if s.fromParent t x.port then
      let s := if (s.time.exchC.get (fun _ => none) t).isSome then s.loseChild t else s
      s.modTime fun y => { y with exchC := y.exchC.set (fun _ => none) t (some
        { port := x.port, seq := x.seq, began := y.clock, asym := s.asym x.port true
          t2 := stampOf s.tb0Fine (x.frac % 65536) - s.asym x.port false }) }
    else s)

/-- FOLLOW_UP (R340 orders 3 and 4): the child takes t1 and sends DELAY_REQ at t3. -/
def execFollowUp (x : ExchSet) (s : State) : Host.Outcome State Fault Refusal :=
  ok (s.onExch x 2 fun s =>
    let t := x.tree % 2
    match s.time.exchC.get (fun _ => none) t with
    | some e =>
      if e.port = x.port ∧ e.seq = x.seq ∧ e.t1.isNone ∧ s.fromParent t x.port then
        let e := { e with
          t1 := some (s.widen t x.stamp)
          t3 := stampOf s.tb0Fine (x.frac % 65536) + e.asym }
        let s := { s with freeCount := s.freeCount + 1 }
        (s.modTime fun y => { y with exchC := y.exchC.set (fun _ => none) t (some e) }).sendExch x.port 3 t x.seq 0
      else s
    | none => s)

/-- DELAY_REQ (R340 orders 5 and 6): the parent stamps t4 and sends DELAY_RESP. -/
def execDelayReq (x : ExchSet) (s : State) : Host.Outcome State Fault Refusal :=
  ok (s.onExch x 3 fun s =>
    let t := x.tree % 2
    let k := x.port * 2 + t
    match s.time.exchP.get (fun _ => none) k with
    | some e =>
      if e.seq = x.seq then
        let t4 := stampOf (s.estimate t) (x.frac % 65536) - e.asym
        let s := { s with freeCount := s.freeCount + 1 }
        (s.modTime fun y => { y with exchP := y.exchP.set (fun _ => none) k none }).sendExch x.port 4 t x.seq
          (stampField t4)
      else s
    | none => s)

/-- A servo takes an exchange (R341, R342): one whose delay lies more than 50 ns from the filtered delay is
discarded; the estimate, rate and filtered delay that the second-order loop forms are free values (log 7). -/
def State.servoTake (s : State) (t : Nat) (e : ExchChild) (t1 t4 : Int) : State :=
  let delay := ((e.t2 - t1) + (t4 - e.t3)) / 2
  let offset := (e.t2 - t1) - delay
  let v := s.servo t
  if v.known ∧ 50 * 65536 < (delay - v.delay).natAbs then s.modServo t fun x => { x with last := s.time.clock }
  else
    let err := (offset - (stampOf s.tb0Fine 0 - stampOf v.est 0)).natAbs
    let small := v.known && decide (err < s.fld Reg.TB1_CFG 16 8 * 65536)
    let large := v.known && decide (s.fld Reg.TB1_CFG 24 8 * 65536 < err)
    let (f1, s) := s.free
    let (f2, s) := s.free
    let (f3, s) := s.free
    let good := if small then v.good + 1 else 0
    let poor := if large then v.poor + 1 else 0
    let st := if v.state = 0 ∨ v.state = 3 then 1
      else if 4 ≤ poor then 3
      else if v.state = 1 ∧ 16 ≤ good then 2
      else v.state
    let s := s.modServo t fun x => { x with
      state := st, known := true, est := f1.toNat, rate := fieldInt true 32 f2.toNat, delay := f3.toNat % 2 ^ 32
      good := if st = v.state then good else 0
      poor := if st = v.state then poor else 0
      last := s.time.clock }
    (s.wr (Reg.TB1_DELAY t) ((s.servo t).delay * 1000 / 65536).toNat).timeUpdate

/-- DELAY_RESP (R340 order 6, R341): the child computes delay and offset. -/
def execDelayResp (x : ExchSet) (s : State) : Host.Outcome State Fault Refusal :=
  ok (s.onExch x 4 fun s =>
    let t := x.tree % 2
    match s.time.exchC.get (fun _ => none) t with
    | some e =>
      match e.t1 with
      | some t1 =>
        if e.port = x.port ∧ e.seq = x.seq then
          let t4 := s.widen t x.stamp
          let s := s.modTime fun y => { y with exchC := y.exchC.set (fun _ => none) t none }
          if s.rc.state = .idle ∨ s.isMaster t then s else s.servoTake t e t1 t4
        else s
      | none => s
    | none => s)

/-- EXCH_LOST (R340): a part is missing at its bound: 1 µs for FOLLOW_UP, 4 µs for the whole. -/
def execExchLost (port tree : Nat) (parent : Bool) (s : State) : Host.Outcome State Fault Refusal :=
  let t := tree % 2
  let k := port * 2 + t
  if parent then
    match s.time.exchP.get (fun _ => none) k with
    | some e =>
      if e.began + 4000 ≤ s.time.clock then
        ok (s.loseParent port t)
      else ok s
    | none => ok s
  else
    match s.time.exchC.get (fun _ => none) t with
    | some e =>
      if e.port = port ∧ e.began + (if e.t1.isNone then 1000 else 4000) ≤ s.time.clock then
        ok (s.loseChild t)
      else ok s
    | none => ok s

/-- SERVO_HOLDOVER (R342): no exchange completes for 8 intervals. -/
def execServoHoldover (t : Nat) (s : State) : Host.Outcome State Fault Refusal :=
  let v := s.servo (t % 2)
  if (v.state = 1 ∨ v.state = 2) ∧ v.last + 8000 * 2 ^ s.fld Reg.TB1_CFG 8 4 ≤ s.time.clock then
    ok (s.modServo (t % 2) fun x => { x with state := 3, good := 0, poor := 0 }).timeUpdate
  else ok s

/-- TB1_TARGET_RETURN (R343): A has been LOCKED for 1 s. -/
def execTb1TargetReturn (s : State) : Host.Outcome State Fault Refusal :=
  if s.fld Reg.TB1_CFG 0 2 = 0 ∧ s.time.target = 1 ∧ s.servoState 0 = 2 ∧
      s.time.aLocked.any (fun a => decide (a + 10 ^ 9 ≤ s.time.clock)) then ok (s.setTarget 0).timeUpdate
  else ok s

/-! ## Timers (R345-R347) -/

/-- Timer `k` is due. -/
def State.timerDue (s : State) (k : Nat) : Bool :=
  s.flag (Reg.TMR_CFG k) 31 && (s.time.late.contains k || decide (s.timerTime k ≤ s.timerBase k))

/-- Set TMR_TIME, and what the register reads. -/
def State.setTimer (s : State) (k v : Nat) : State :=
  (s.wr64 (Reg.TMR_TIME_LO k) v).modTime fun x => { x with tmrTime := x.tmrTime.set (fun _ => 0) k (v % 2 ^ 64) }

/-- Timer `k` fires: its record when late, its next time, its counts (R345, R347). -/
def State.fireTimer (s : State) (k : Nat) : State :=
  let p := s.time.tmrPeriod.get (fun _ => 0) k
  let late := s.time.late.contains k
  let skip := s.time.skip.contains k
  let s := if late then (s.record cInfo bTime 0x0A07 k).raise 10 5 else s
  let s := s.modTime fun x => { x with late := x.late.filter (· ≠ k), skip := x.skip.filter (· ≠ k) }
  let s := s.count (Reg.TMR_STAT k) 16 16 1
  let s := if p = 0 then s.setFlag (Reg.TMR_CFG k) 31 false
    else if skip then
      let n := (s.timerBase k - s.timerTime k) / p + 1
      (s.setTimer k (s.timerTime k + n * p)).count (Reg.TMR_STAT k) 0 16 (n - 1)
    else s.setTimer k (s.timerTime k + p)
  s.raise 10 (8 + k)

/-- A timer fires with ACTION `a` when it is due and no lower timer is (R347); else nothing happens (log 4). -/
def State.onTimer (s : State) (k a : Nat) (f : State → State) : State :=
  if k < 8 ∧ s.timerDue k ∧ s.fld (Reg.TMR_CFG k) 28 2 = a ∧ (List.range k).all (fun j => !s.timerDue j) then
    f (s.fireTimer k)
  else s

/-- TIMER_PULSE (R345). -/
def execTimerPulse (k : Nat) (s : State) : Host.Outcome State Fault Refusal :=
  let c := s.rd (Reg.TMR_CFG k)
  ok (s.onTimer k 0 fun s =>
    let s := (List.range 8).foldl (fun s j =>
      if c.testBit (16 + j) && s.flag (Reg.ACQ_TRIGIO j) 0 then s.pulse j else s) s
    if c.testBit 15 then s.pulse 8 else s)

/-- TIMER_ARM (R345). -/
def execTimerArm (k : Nat) (s : State) : Host.Outcome State Fault Refusal :=
  ok (s.onTimer k 1 fun s => s.writeAcq .self Reg.ACQ_CTRL (putBits (s.rd Reg.ACQ_CTRL) 31 1 1))

/-- TIMER_COMMAND (R345, R346): TMR_CMD is written to CMD. -/
def execTimerCommand (k : Nat) (s : State) : Host.Outcome State Fault Refusal :=
  let w := s.rd (Reg.TMR_CMD k)
  ok (s.onTimer k 2 fun s =>
    let s := s.writeCmd .self w
    let st := s.fld Reg.CMD_STATUS 28 4
    if 3 ≤ st ∧ st ≤ 7 then (s.record cRejected bTime 0x0A08 (w % 256 * 2 ^ 24 + k)).raise 10 5 else s)

/-! ## Register writes (R337, R350) -/

/-- A write of a TIME register. -/
def State.writeTime (s : State) (init : Initiator) (off v : Nat) : State :=
  let rel := off - 0xA0_0000
  let tmr := (rel - 0x200) / 0x20
  let master := s.rd Reg.TB1_MASTER_ID
  let cfg := s.rd Reg.TB0_CFG
  let armed := s.flag (Reg.TMR_CFG tmr) 31
  let (done, s) := s.csrWrite init off v (fun _ => off = Reg.TB1_MASTER_ID && !s.preRun) false 0x0A09
  if !done then s
  else if off = Reg.TB0_CTRL then
    let s := s.wr off 0
    let s := if v.testBit 30 then s.setFlag Reg.TB0_STAT 30 true else s
    if v.testBit 31 then (s.stepTb0 (s.rd64 Reg.TB0_SET_LO)).modTime fun x => { x with setAt := some x.clock } else s
  else if off = Reg.TB0_ADJ then
    (s.wr off 0).modTime fun x => { x with slew := x.slew + fieldInt true 32 v * 10 ^ 9 }
  else if off = Reg.TB0_CFG then
    if bits cfg 0 2 = s.fld off 0 2 then s else s.modTime fun x => { x with lastEdge := x.clock, lostNoted := false }
  else if off = Reg.TB1_CFG then s.timeUpdate
  else if off = Reg.TB1_MASTER_ID then
    if s.rd off = master then s else s.servosOff
  else if 0x200 ≤ rel ∧ rel < 0x300 then
    if rel % 0x20 = 0 then
      if !armed && s.flag off 31 && decide (s.timerTime tmr ≤ s.timerBase tmr) then
        s.modTime fun x => { x with late := x.late ++ [tmr] }
      else if !s.flag off 31 then
        s.modTime fun x => { x with late := x.late.filter (· ≠ tmr), skip := x.skip.filter (· ≠ tmr) }
      else s
    else if rel % 0x20 = 8 then
      s.modTime fun x => { x with tmrTime := x.tmrTime.set (fun _ => 0) tmr (s.rd64 (Reg.TMR_TIME_LO tmr)) }
    else if rel % 0x20 = 0x10 then
      s.modTime fun x => { x with tmrPeriod := x.tmrPeriod.set (fun _ => 0) tmr (s.rd64 (Reg.TMR_PERIOD_LO tmr)) }
    else s
  else s

/-- An exchange on a port that retrains or is lost is abandoned (R348). -/
def State.timePortDown (s : State) (p : Nat) : State :=
  s.modTime fun x => { x with
    exchP := x.exchP.filter (fun e => e.1 / 2 ≠ p)
    exchC := x.exchC.filter (fun e => match e.2 with | some c => c.port ≠ p | none => true) }

/-- TB1_STAT as it reads (R350). -/
def State.tb1Stat (s : State) : Nat :=
  (if s.time.tb1Locked then 2 ^ 31 else 2 ^ 28) + s.time.target * 2 ^ 30 + (if s.time.slewing then 2 ^ 29 else 0) +
    s.servoState 1 * 2 ^ 26 + s.servoState 0 * 2 ^ 24

/-- TB1_OFFSET[t] as it reads (R350). -/
def State.tb1OffsetReg (s : State) (t : Nat) : Nat :=
  if s.servoState t = 0 then 0 else satField 32 ((s.estimate t - s.tb1Fine).tdiv (10 ^ 9))

end Sys2Proof.Machine
end

