-- ==== Sys2Proof/Machine/Lanes.lean ====
section
/-!
DEFINITION. The serial lanes (chapter 07): received columns, training, degradation and loss of ports, lane status, PRBS,
registers.
-/

namespace Sys2Proof.Machine

/-- Port `p`, apart from its registers. -/
def State.prt (s : State) (p : Nat) : Port := s.ports.get (fun _ => {}) p

/-- Change port `p`. -/
def State.modPort (s : State) (p : Nat) (f : Port → Port) : State :=
  { s with ports := s.ports.set (fun _ => {}) p (f (s.prt p)) }

/-- PORT_STAT.UP. -/
def State.isUp (s : State) (p : Nat) : Bool := s.flag (Reg.PORT_STAT p) 31

/-- PORT_STAT.TRAINING. -/
def State.training (s : State) (p : Nat) : Bool := s.flag (Reg.PORT_STAT p) 30

/-- PORT_CTRL.TEST (R190). -/
def State.inTest (s : State) (p : Nat) : Bool := s.flag (Reg.PORT_CTRL p) 0

/-- PORT_STAT.MAPPED_OUT. -/
def State.mappedOut (s : State) (p : Nat) : Nat := s.fld (Reg.PORT_STAT p) 0 8

/-- The lanes that are enabled and not mapped out. -/
def State.usable (s : State) (p : Nat) : Nat := s.fld (Reg.PORT_CFG p) 0 8 &&& (255 - s.mappedOut p)

/-- The line rate of a port (R171); a FORERUNNER port runs at 6.25 GBd (R191). -/
def State.portRate (s : State) (p : Nat) : Nat := if s.role p = 2 then 4 else s.fld (Reg.PORT_CFG p) 16 3

/-- One deskew interval in ns (R178): 4,097 column times. -/
def State.deskewNs (s : State) (p : Nat) : Nat := 4097 * symbolFs (s.portRate p) / 1000000

/-- The usable lanes that have symbol lock: what TSEQ1 offers (R179). -/
def State.locked (s : State) (p : Nat) : Nat :=
  (List.range 8).foldl (fun a n => if (s.usable p).testBit n && s.flag (Reg.LANE_STAT p n) 29 then a + 2 ^ n else a) 0

/-- The logical lane numbers: the k-th active physical lane in ascending order is lane k (R177). -/
def State.setLogical (s : State) (p active : Nat) : State :=
  (List.range 8).foldl (fun s n =>
    s.setFld (Reg.LANE_STAT p n) 0 8 (if active.testBit n then popcount (active % 2 ^ n) else 255)) s

/-- The port is neither UP nor TRAINING. -/
def State.portOff (s : State) (p : Nat) : State :=
  (((s.setFld (Reg.PORT_STAT p) 30 2 0).setFld (Reg.PORT_STAT p) 8 20 0).setLogical p 0).timePortDown p

/-- A TSEQ1 (1) or TSEQ2 (2) with lane mask `mask` on every enabled lane that is not mapped out (R179, R180); a device in
FATAL sends K28.5 alone (R512). -/
def State.sendTseq (s : State) (p typ mask : Nat) : State :=
  if s.rc.state = .fatal then s
  else
    let body (n : Nat) := tseqBytes typ n mask (s.role p) (s.portRate p) s.devId p
    s.emit (((List.range 8).filter fun n => (s.usable p).testBit n).map fun n =>
      .tseq p n (body n ++ [tseqSum typ n mask (s.role p) (s.portRate p) s.devId p]))

/-- TSEQ1 goes out on the usable lanes, or INIT on a FORERUNNER port (R180 order 1, R225). -/
def State.sendTraining (s : State) (p : Nat) : State :=
  if s.role p = 2 then s.emit [.frSeq p 1 s.devId p] else s.sendTseq p 1 (s.locked p)

/-- Order 1 of R180. A first training, and any training with PEER_DOWN = 1, starts the link afresh (R203, R224). A port
in TEST does not train (R190); SHALE and DISABLED ports have no training of the port. Running disparity starts anew
(R175). -/
def State.startTraining (s : State) (p : Nat) (first : Bool) : State :=
  if s.inTest p ∨ (s.role p ≠ 0 ∧ s.role p ≠ 2) then s
  else
    let first := first || (s.link p).peerDown
    let was := s.fld (Reg.PORT_STAT p) 8 8
    let s := if first then s.modLink p fun l => { l with
        nextSeq := 0, expSeq := 0, ackedSeq := 0, limitSeq := 63, nakSent := false, nakSeen := none, limitTold := 63
        replay := [], resend := 0, rx := [], peerDown := false, frInit := 0 }
      else s.count (Reg.PORT_EVENTS p) 24 8 1
    let s := (s.portOff p).setFlag (Reg.PORT_STAT p) 30 true
    let s := s.modPort p fun x => { first := first, since := s.now, was := if was = 0 then x.was else was,
                                    fault := x.fault, fails := x.fails, failNoted := !first && x.failNoted }
    let s := s.modLine p fun x => { x with txRd := [], rxRd := [], since := 0, ahead := 0, pos := 0, lag := [], missed := [] }
    (s.modLink p fun l => { l with frInit := 0 }).sendTraining p

/-- The port is lost (R183). -/
def State.losePort (s : State) (p : Nat) : State :=
  let s := (s.portOff p).setFlag (Reg.PORT_STAT p) 29 true
  let s := s.modPort p fun _ => {}
  ((s.record cLink bLanes 0x0402 (p * 2 ^ 29 + s.mappedOut p * 2 ^ 21)).raise 5 2).askHalt

/-- Lane `n` of port `p` has failed (R181-R183, R191), with the cause of LANE_DEGRADED. The retraining of an UP port begins 0.1 µs
after the failure, the bound of order 1 of R180: lanes that fail before that and leave fewer than 2 lose the port without one
(log 90). -/
def State.laneFailed (s : State) (p n cause : Nat) : State :=
  if (s.link p).peerDown ∨ ¬ (s.usable p).testBit n then s
  else if s.role p = 2 then
    if s.isUp p then (((s.count (Reg.PORT_EVENTS p) 16 8 1).setFlag (Reg.PORT_STAT p) n true).losePort p) else s
  else if s.role p ≠ 0 ∨ ¬ (s.isUp p ∨ s.training p) then s
  else
    let agreed := s.fld (Reg.PORT_STAT p) 8 8 &&& s.usable p
    let active := (s.fld (Reg.PORT_STAT p) 16 8).testBit n
    let s := (s.count (Reg.PORT_EVENTS p) 16 8 1).setFlag (Reg.PORT_STAT p) n true
    if s.isUp p then
      if ¬ agreed.testBit n then s
      else if popcount agreed ≤ 2 then s.losePort p
      else if ¬ active then s
      else s.modPort p fun x => { x with
        fault := if x.due.isSome then x.fault else some (n, cause)
        fails := s.now :: x.fails
        due := some (x.due.getD (s.now + 100)) }
    else
      let s := s.modPort p fun x => { x with
        fault := if x.first then none else (match x.fault with | some f => some f | none => some (n, cause))
        fails := s.now :: x.fails
        ready := x.ready &&& (255 - 2 ^ n), agreed := x.agreed &&& (255 - 2 ^ n), counts := x.counts.erase n }
      let x := s.prt p
      if !x.first && decide (popcount (x.was &&& s.usable p) < 2) &&
          x.fails.all (fun t => decide (s.now ≤ t + s.deskewNs p)) then s.losePort p else s

/-- The retraining that a lane failure made due begins (R180 order 1). -/
def State.dueTraining (s : State) : State :=
  (List.range 8).foldl (fun (s : State) p =>
    if (s.prt p).due.any (· ≤ s.now) then
      (if s.isUp p then s.startTraining p false else s.modPort p fun x => { x with due := none })
    else s) s

/-- The sequences that a port in training repeats: TSEQ1 or TSEQ2 on every usable lane (R180 orders 1 and 4), or INIT over the eight
lanes of a FORERUNNER port (R191, R225). -/
def State.trainingSeqs (s : State) (p : Nat) : List Nat × List (List Sym) :=
  if s.role p = 2 then
    (List.range 8, (kFr :: (frSeqBytes 1 s.devId p ++ [frSeqSum 1 s.devId p]).map dSym).map fun y => [y])
  else
    let x := s.prt p
    let typ := if x.second then 2 else 1
    let mask := if x.second then x.ready &&& x.offered &&& s.usable p else s.locked p
    let lanes := (List.range 8).filter fun n => (s.usable p).testBit n
    (lanes, lanes.map fun n => kIdle :: (tseqBytes typ n mask (s.role p) (s.portRate p) s.devId p ++
      [tseqSum typ n mask (s.role p) (s.portRate p) s.devId p]).map dSym)

/-- 10 ns pass on the lines of port `p`: the training sequences repeat; else K28.5 where nothing else is sent, marker columns where
due (R176, R178, R192, R512). -/
def State.passLine (s : State) (p : Nat) : State :=
  if s.training p ∧ s.rc.state ≠ .fatal then
    let (lanes, seqs) := s.trainingSeqs p
    s.modLine p fun x => x.trains lanes seqs (s.portRate p) 10
  else s.modLine p fun x => x.pass (if s.isUp p then s.activeLanes p else []) (s.otherLanes p) (s.portRate p) 10

/-- 10 ns pass on the lines of the ports: those of a SYSTEM or FORERUNNER port in RUN or HOLD that is not under test send. -/
def State.passLines (s : State) : State :=
  if !s.boot.begun then s
  else (List.range 8).foldl (fun (s : State) p =>
    if (s.role p = 0 ∨ s.role p = 2) ∧ ¬ s.inTest p ∧ (s.dom (65 + p)).level < 2 ∧ s.flag Reg.LANES_PLL 31 then s.passLine p else s) s

/-! ## Received columns (R175-R178, R181) -/

/-- Lane `n` of port `p` receives invalid symbols and symbols of the wrong disparity: they are counted (R175), and more than
32 within one deskew interval fail the lane (R181). An interval begins with the first violation after the previous one is
over (DESIGN CHOICE, log 90). -/
def State.codeErrors (s : State) (p n invalid disparity : Nat) : State :=
  let k := invalid + disparity
  if k = 0 then s
  else
    let s := (s.count (Reg.LANE_CV p n) 16 16 invalid).count (Reg.LANE_CV p n) 0 16 disparity
    let (had, began) := (s.line p).viol.get (fun _ => (0, 0)) n
    let (total, began) := if had = 0 ∨ began + s.deskewNs p ≤ s.now then (k, s.now) else (had + k, began)
    let s := s.modLine p fun x => { x with viol := x.viol.set (fun _ => (0, 0)) n (total, began) }
    if 32 < total then s.laneFailed p n 2 else s

/-- A lane's marker lies more than 64 symbol times behind the earliest, or it has missed two in succession: it has failed (R178,
R181). -/
def State.skewed (s : State) (p n : Nat) : State := (s.count (Reg.PORT_EVENTS p) 0 16 1).laneFailed p n 3

/-- The lanes of port `p` are aligned on a marker column, where the symbols that they deliver hold one: the lag of each, in the order
of `lanes`; a lane outside the tolerance, or without the marker that the others show, fails as R178 says. -/
def State.alignOn (s : State) (p : Nat) (lanes : List Nat) (syms : List (List (Option Sym))) : List Nat × State :=
  let marks := syms.map fun l => l.findIdx? (· = some kMarker)
  let kept (n : Nat) : Nat := (s.line p).lag.get (fun _ => 0) n
  match (marks.filterMap id).min? with
  | none => (lanes.map kept, s)
  | some first =>
    let lags := (lanes.zip marks).map fun e => match e.2 with | some m => m - first | none => kept e.1
    let s := (lanes.zip (marks.zip lags)).foldl (fun (s : State) e =>
      match e.2.1 with
      | some _ =>
        let s := s.modLine p fun x => { x with lag := x.lag.set (fun _ => 0) e.1 e.2.2, missed := x.missed.set (fun _ => 0) e.1 0 }
        if 64 < e.2.2 then s.skewed p e.1 else s
      | none =>
        let k := (s.line p).missed.get (fun _ => 0) e.1 + 1
        let s := s.modLine p fun x => { x with missed := x.missed.set (fun _ => 0) e.1 k }
        if 2 ≤ k then s.skewed p e.1 else s) s
    (lags, s)

/-- What the active lanes of port `p` make of what they deliver (R175-R178): decoded, aligned, the marker columns taken out and `skip`
columns passed over; whether a violation is among the rest; and the counts. -/
def State.rxColumns (s : State) (p : Nat) (f : RxFrame) : List (List Sym) × Bool × State :=
  let lanes := s.activeLanes p
  let got := (lanes.zip f.lanes).map fun e => (e.1, rxLane ((s.line p).rxRd.get (fun _ => false) e.1) e.2)
  let s := s.modLine p fun x => { x with rxRd := got.foldl (fun m e => m.set (fun _ => false) e.1 e.2.2.1) x.rxRd }
  let s := got.foldl (fun (s : State) e => s.codeErrors p e.1 e.2.2.2.1 e.2.2.2.2) s
  let syms := got.map fun e => e.2.1
  let (lags, s) := s.alignOn p lanes syms
  let cols := ((alignLanes lags syms).filter fun c => !c.contains (some kMarker)).drop f.skip
  (cols.map fun c => c.map fun y => y.getD kPad, cols.any (·.contains none) || decide (f.lanes.length ≠ lanes.length), s)

/-! ## Rows of training (R180, R184) -/

/-- The CTLE and the DFE have adapted: values that the spec leaves open (R186, log 7). -/
def State.adapt (s : State) (p n : Nat) : State :=
  if s.flag (Reg.LANE_RXEQ p n) 31 then s
  else
    let (v, s) := s.free
    let off := Reg.LANE_RXEQ p n
    ((s.setFlag off 30 true).setFld off 26 4 (v.toNat % 16)).setFld off 0 22 (v.toNat / 16 % 2 ^ 22)

/-- A valid TSEQ1 of a lane that may become ready (R180 order 4). -/
def State.countTseq (s : State) (t : Tseq) : State :=
  let p := t.port
  let own := decide (t.rate = s.fld (Reg.PORT_CFG p) 16 3 ∧ t.role = s.role p ∧ t.num = t.lane)
  if !own then
    s.modPort p fun x => { x with
      counts := x.counts.erase t.lane
      mismatch := if t.rate ≠ s.fld (Reg.PORT_CFG p) 16 3 then 1 else if t.role ≠ s.role p then 2 else 3 }
  else
    let k := (s.prt p).counts.get (fun _ => 0) t.lane + 1
    let s := s.modPort p fun x => { x with
      counts := x.counts.set (fun _ => 0) t.lane (min k 256)
      offered := t.mask % 256, peer := t.peerPort % 8 * 2 ^ 13 + t.device % 2 ^ 13 }
    if k = 256 then
      let s := (s.modPort p fun x => { x with ready := x.ready ||| 2 ^ t.lane, second := true }).adapt p t.lane
      s.sendTseq p 2 ((s.prt p).ready &&& (s.prt p).offered)
    else s

/-- A TSEQ carries its right checksum (R179). -/
def tseqOk (t : Tseq) (typ : Nat) : Bool :=
  decide (t.sum = tseqSum typ t.num t.mask t.role t.rate t.device t.peerPort)

/-- Lanes that the peer offered and offers no longer have failed at its end: they are mapped out at this end too (R181). A
peer that offers none as yet begins anew (log 90). -/
def State.peerMask (s : State) (p mask : Nat) : State :=
  let gone := (s.prt p).offered &&& (255 - mask % 256) &&& s.usable p
  if mask = 0 ∨ gone = 0 ∨ (s.link p).peerDown then s
  else
    (s.setFld (Reg.PORT_STAT p) 0 8 (s.mappedOut p ||| gone)).modPort p fun x => { x with
      follows := true, ready := x.ready &&& (255 - gone), agreed := x.agreed &&& (255 - gone)
      counts := x.counts.filter (fun e => !gone.testBit e.1) }

/-- TSEQ1 (R179, R180): it starts a retraining of an UP port, or counts toward readiness. -/
def execTseq1 (t : Tseq) (s : State) : Host.Outcome State Fault Refusal :=
  if 8 ≤ t.port ∨ 8 ≤ t.lane ∨ ¬ tseqOk t 1 ∨ s.role t.port ≠ 0 ∨ s.inTest t.port then ok s
  else if s.isUp t.port then
    let s := s.peerMask t.port t.mask
    let follows := (s.prt t.port).follows
    ok ((s.startTraining t.port false).modPort t.port fun x => { x with follows := follows })
  else if s.training t.port ∧ (s.usable t.port).testBit t.lane then
    let s := s.peerMask t.port t.mask
    if (s.usable t.port).testBit t.lane then ok (s.countTseq t) else ok s
  else ok s

/-- TSEQ2 (R180 orders 4 and 5): the agreed set is the intersection of the two masks. -/
def execTseq2 (t : Tseq) (s : State) : Host.Outcome State Fault Refusal :=
  if 8 ≤ t.port ∨ 8 ≤ t.lane ∨ ¬ tseqOk t 2 ∨ s.role t.port ≠ 0 ∨ ¬ s.training t.port ∨ s.inTest t.port then ok s
  else ok (s.modPort t.port fun x => { x with
    agreed := x.ready &&& x.offered &&& t.mask &&& s.usable t.port
    peer := t.peerPort % 8 * 2 ^ 13 + t.device % 2 ^ 13 })

/-- The width of a set of `k` lanes (R180 order 5). -/
def widthOf (k : Nat) : Nat := if k = 8 then 8 else if 4 ≤ k then 4 else if 2 ≤ k then 2 else 0

/-- The `k` lowest lanes of a set. -/
def lowest (k set : Nat) : Nat :=
  (List.range 8).foldl (fun a n => if set.testBit n && decide (popcount a < k) then a + 2 ^ n else a) 0

/-- The port is UP with a set of lanes (R180 order 7): traffic resumes from the oldest unacknowledged frame (R203). -/
def State.comeUp (s : State) (p agreed peer : Nat) : State :=
  let w := widthOf (popcount agreed)
  let active := lowest w agreed
  let x := s.prt p
  let off := Reg.PORT_STAT p
  let s := (((((s.setFld off 30 2 2).setFld off 24 4 w).setFld off 16 8 active).setFld off 8 8 agreed).setLogical p active)
  let s := (s.wr (Reg.PORT_PEER p) (2 ^ 31 + peer)).raise 5 0
  let s := s.modPort p fun _ => { first := false, was := agreed, offered := x.offered }
  let s := s.modLink p fun l => { l with resend := l.replay.length, lastAck := s.now, sentAck := s.now }
  if x.first then s
  else match x.fault with
    | some (n, cause) =>
      (s.record cLink bLanes 0x0401 (p * 2 ^ 29 + n * 2 ^ 26 + cause * 2 ^ 24 + w * 2 ^ 20)).raise 5 1
    | none => if x.follows then s else s.record cInfo bLanes 0x0404 (p * 2 ^ 29 + w * 2 ^ 25)

/-- PORT_UP (R180 orders 6 and 7): deskew completes on the agreed set. -/
def execPortUp (p : Nat) (s : State) : Host.Outcome State Fault Refusal :=
  if 8 ≤ p ∨ s.role p ≠ 0 ∨ ¬ s.training p ∨ popcount (s.prt p).agreed < 2 ∨ s.inTest p then ok s
  else ok (s.comeUp p (s.prt p).agreed (s.prt p).peer)

/-- LANE_TRAIN_FAIL (R180, R183): 1 ms after order 1 the port is not UP. A first training repeats; a retraining loses the
port. -/
def execLaneTrainFail (p : Nat) (s : State) : Host.Outcome State Fault Refusal :=
  let x := s.prt p
  if 8 ≤ p ∨ s.role p ≠ 0 ∨ ¬ s.training p ∨ s.now < x.since + 1000000 then ok s
  else if ¬ x.first then ok (s.losePort p)
  else
    let cause := if 2 ≤ popcount x.agreed then 4 else x.mismatch
    let s := if x.failNoted then s
      else (s.record cConfig bLanes 0x0403 (p * 2 ^ 29 + x.ready * 2 ^ 21 + cause * 2 ^ 18)).raise 5 3
    ok ((s.modPort p fun _ => { first := true, since := s.now, failNoted := true }).sendTraining p)

/-! ## Lane status (R181, R187) -/

/-- LOS (R187). -/
def State.setLos (s : State) (p n : Nat) (on : Bool) : State :=
  let off := Reg.LANE_STAT p n
  let rise := on && !s.flag off 31
  let s := s.setFlag off 31 on
  if rise then (s.setFlag off 28 true).laneFailed p n 0 else s

/-- LOL (R187). -/
def State.setLol (s : State) (p n : Nat) (on : Bool) : State :=
  let off := Reg.LANE_STAT p n
  let rise := on && !s.flag off 30
  let s := s.setFlag off 30 on
  if rise then (s.setFlag off 27 true).laneFailed p n 1 else s

/-- Symbol lock, with the receiver polarity found at the lock (R180 order 2). A port in training offers the lane from then
on; a lane of a SHALE or FORERUNNER port adapts on what it receives (R173, R191). -/
def State.setSymbolLock (s : State) (p n : Nat) (on inverted : Bool) : State :=
  let off := Reg.LANE_STAT p n
  if on then
    let s := (s.setFlag off 29 true).setFlag off 26 inverted
    if s.role p = 1 then
      ((s.adapt p n).modSh fun x => { x with epr := x.epr.set (fun _ => none) (8 * (p - 6) + n) none })
    else if s.role p = 2 then s.adapt p n
    else if s.role p = 0 ∧ s.training p ∧ (s.usable p).testBit n then s.sendTraining p
    else s
  else if s.flag off 29 then (s.setFlag off 29 false).laneFailed p n 1
  else s

/-- LOS (R187). -/
def execLos (p n : Nat) (on : Bool) (s : State) : Host.Outcome State Fault Refusal :=
  ok (if 8 ≤ p ∨ 8 ≤ n then s else s.setLos p n on)

/-- LOL (R187). -/
def execLol (p n : Nat) (on : Bool) (s : State) : Host.Outcome State Fault Refusal :=
  ok (if 8 ≤ p ∨ 8 ≤ n then s else s.setLol p n on)

/-- LANE_FAILURE (R181): what a lane shows, whether or not it fails the lane: among it the coding errors outside frames. Skew
above 64 symbol times or two markers missed fail the lane. -/
def execLaneFailure (p n : Nat) (f : LaneFault) (s : State) : Host.Outcome State Fault Refusal :=
  if 8 ≤ p ∨ 8 ≤ n then ok s
  else match f with
    | .los => ok (s.setLos p n true)
    | .lol => ok (s.setLol p n true)
    | .symbolLock => ok (s.setSymbolLock p n false false)
    | .violations invalid disparity => ok (s.codeErrors p n invalid disparity)
    | .marker skew missed =>
      if 64 < skew ∨ 2 ≤ missed then ok (s.skewed p n) else ok s

/-- LANE_PLL_LOCK (R194). -/
def execLanePllLock (s : State) : Host.Outcome State Fault Refusal := ok (s.setFlag Reg.LANES_PLL 31 true)

/-- LANE_PLL_UNLOCK (R194): every port is down, and the device enters FATAL. -/
def execLanePllUnlock (s : State) : Host.Outcome State Fault Refusal :=
  if ¬ s.flag Reg.LANES_PLL 31 then ok s
  else
    let s := ((s.setFlag Reg.LANES_PLL 31 false).setFlag Reg.LANES_PLL 30 true)
    let s := (List.range 8).foldl (fun s p => (s.portOff p).modPort p fun _ => {}) s
    ok ((s.fatal bLanes 0x0406 0).raise 5 4)

/-! ## Ports in the SHALE role (R173, R285) -/

/-- A lane of a SHALE port works: its lanes follow the domain of Shale (R192), and the lane PLL clocks them. -/
def State.edgeOn (s : State) (p n : Nat) : Bool :=
  decide (s.role p = 1) && !s.inTest p && (s.usable p).testBit n && s.flag Reg.LANES_PLL 31 &&
    decide ((s.dom 106).level < 2)

/-- Symbol `s` of a transmit word: a K flag on a byte that is no K-code sends K28.5 (R285). -/
def eptSym (data k j : Nat) : Sym :=
  let b := bits data (8 * j) 8
  if ¬ k.testBit j then dSym b else if kBytes.contains b then ⟨true, b⟩ else kIdle

/-- The eight symbols of a transmit word; K28.5 where Shale gives none (R285). -/
def eptWord (valid : Bool) (data k : Nat) : List Sym :=
  (List.range 8).map fun j => if valid then eptSym data k j else kIdle

/-- Words that edge lane `l` sends at its interface clock: what Shale drives, which the spec leaves to user logic (a free
value, log 7), or K28.5 while its transmit data are not released (R297, R299). -/
def State.edgeSend (s : State) (l : Nat) : Nat → State
  | 0 => s
  | n + 1 =>
    let s :=
      if (s.shHold 8).outputs then s.modLine (8 + l) fun x => x.idle [0] [] 8
      else
        let (d, s) := s.free
        let (c, s) := s.free
        let word := eptWord (c.toNat.testBit 8) d.toNat (c.toNat % 256)
        s.modLine (8 + l) fun x => word.foldl (fun x y => { x.column [0] [] [y] with ahead := 0 }) x
    s.edgeSend l n

/-- 10 ns pass on the edge lanes; edge lane l is lane l modulo 8 of P6 or P7 (R278). -/
def State.passEdges (s : State) : State :=
  (List.range 16).foldl (fun (s : State) l =>
    if s.edgeOn (6 + l / 8) (l % 8) then
      let word := 8 * symbolFs (s.portRate (6 + l / 8))
      let t := (s.line (8 + l)).frac + 10000000
      (s.modLine (8 + l) fun x => { x with frac := t % word }).edgeSend l (t / word)
    else s) s

/-- K28.1, K28.5, K28.7: the symbols that contain a comma. -/
def isComma (x : EprSym) : Bool := x.k && !x.cv && (x.byte == 0x3C || x.byte == 0xBC || x.byte == 0xFC)

/-- A symbol reaches Shale: at symbol lock the first comma is placed in symbol 0; eight symbols are a receive word (R285). -/
def State.edgeSymbol (s : State) (l : Nat) (y : EprSym) : State :=
  let keep (s : State) (v : Option (List EprSym)) : State :=
    s.modSh fun x => { x with epr := x.epr.set (fun _ => none) l v }
  match s.shale.epr.get (fun _ => none) l with
  | none => if isComma y then keep s (some [y]) else s
  | some w =>
    let w := w ++ [y]
    if w.length < 8 then keep s (some w)
    else
      let num (f : EprSym → Nat) (step : Nat) : Nat :=
        (List.range 8).foldl (fun v j => v + f (w.getD j ⟨0, false, false⟩) * 2 ^ (step * j)) 0
      (keep s (some [])).emit [.epr l (BitVec.ofNat 64 (num (·.byte) 8)) (num (fun e => bitAt e.k 0) 1)
        (num (fun e => bitAt e.cv 0) 1)]

/-- A symbol on the line of edge lane `l` is decoded (R175); the byte of one that is no symbol is a free value (log 7). -/
def State.edgeReceive (s : State) (l : Nat) (v : BitVec 10) : State :=
  let p := 6 + l / 8; let n := l % 8
  let (r, after) := decode8b10b ((s.line (8 + l)).rxRd.get (fun _ => false) 0) v
  let s := s.modLine (8 + l) fun x => { x with rxRd := x.rxRd.set (fun _ => false) 0 after }
  match r with
  | .good y => s.edgeSymbol l ⟨y.byte, y.k, false⟩
  | e =>
    let (b, s) := s.free
    let s := if e = .disparity then s.codeErrors p n 0 1 else s.codeErrors p n 1 0
    s.edgeSymbol l ⟨b.toNat % 256, b.toNat.testBit 8, true⟩

/-- Symbols arrive on the enabled lanes of a SHALE port, of each lane a list; a lane without symbol lock holds EPR_LOCK at 0
(R285). -/
def State.edgeRows (s : State) (p : Nat) (l : List (List (BitVec 10))) : State :=
  let lanes := (List.range 8).filter fun n => (s.usable p).testBit n
  (lanes.zip l).foldl (fun (s : State) e => e.2.foldl (fun (s : State) v =>
    if s.edgeOn p e.1 && s.flag (Reg.LANE_STAT p e.1) 29 then s.edgeReceive (8 * (p - 6) + e.1) v else s) s) s

/-- EPR_LOCK[l]: the receiver of the lane has symbol lock; it reads 0 where the port is in another role (R285). -/
def State.eprLock (s : State) (l : Nat) : Bool :=
  s.edgeOn (6 + l / 8) (l % 8) && s.flag (Reg.LANE_STAT (6 + l / 8) (l % 8)) 29

/-- Shale sees the changes of EPR_LOCK; with it at 0, EPR_DATA reads 0 (R285). -/
def State.showEpr (s : State) : State :=
  (List.range 16).foldl (fun (s : State) l =>
    let on := s.eprLock l
    if on = s.shale.eprLock.contains l then s
    else
      let s := s.modSh fun x => { x with eprLock := if on then l :: x.eprLock else x.eprLock.filter (· ≠ l) }
      s.emit (.eprLock l on :: if on then [] else [.epr l 0 0 0])) s

/-- SYMBOL_LOCK (R180). -/
def execSymbolLock (p n : Nat) (on inverted : Bool) (s : State) : Host.Outcome State Fault Refusal :=
  ok (if 8 ≤ p ∨ 8 ≤ n then s else (s.setSymbolLock p n on inverted).showEpr)

/-! ## PRBS (R188-R190) -/

/-- LANE_TEST acts on the lane: the port is in TEST, or the lane is mapped out (R190). -/
def State.testable (s : State) (p n : Nat) : Bool := s.inTest p || (s.mappedOut p).testBit n

/-- The generator and checker of lane `n` of port `p`. -/
def State.test (s : State) (p n : Nat) : LaneTest := s.tests.get (fun _ => {}) (p * 8 + n)

/-- Change them. -/
def State.modTest (s : State) (p n : Nat) (f : LaneTest → LaneTest) : State :=
  { s with tests := s.tests.set (fun _ => {}) (p * 8 + n) (f (s.test p n)) }

/-- The exponents of a pattern's polynomial, the degree last (R189). -/
def prbsTaps (pattern : Nat) : Nat × Nat := [(6, 7), (14, 15), (18, 23), (28, 31)].getD pattern (28, 31)

/-- The bit that follows a run of a sequence, newest first. -/
def prbsNext (pattern : Nat) (l : List Bool) : Bool :=
  let (a, d) := prbsTaps pattern
  l.getD (a - 1) false != l.getD (d - 1) false

/-- The next `k` bits of a generator, in order, and the run it then holds. -/
def prbsBits (pattern : Nat) (l : List Bool) : Nat → List Bool × List Bool
  | 0 => ([], l)
  | k + 1 =>
    let b := prbsNext pattern l
    let (bs, l) := prbsBits pattern ((b :: l).take (prbsTaps pattern).2) k
    (b :: bs, l)

/-- `k` bits of K28.5 repeated. -/
def idleBits (k : Nat) : List Bool :=
  (List.range k).map fun i => (encode8b10b (decide (i / 10 % 2 = 1)) kIdle).1.getLsbD (9 - i % 10)

/-- What the lane transmits while it receives `line` (R188, R189): in the far-end loop what it receives, with GEN_EN the
pattern, else K28.5. Where in its sequence a generator starts is a free value (log 7); a bit that ERR_INJECT asked for is
inverted. -/
def State.testTx (s : State) (p n : Nat) (line : List Bool) : List Bool × State :=
  let off := Reg.LANE_TEST p n
  let pat := s.fld off 20 2
  let (tx, s) :=
    if s.fld off 24 3 = 3 then (line, s)
    else if s.flag off 17 then
      let d := (prbsTaps pat).2
      let (start, s) :=
        if (s.test p n).gen.length = d then ((s.test p n).gen, s)
        else (let (v, s) := s.free; ((List.range d).map fun i => (v.toNat % (2 ^ d - 1) + 1).testBit i, s))
      let (bs, l) := prbsBits pat start line.length
      (bs.map (· != s.flag off 29), s.modTest p n fun x => { x with gen := l })
    else (idleBits line.length, s)
  match tx with
  | [] => ([], s)
  | b :: l => ((b != (s.test p n).inject) :: l, s.modTest p n fun x => { x with inject := false })

/-- A received bit at the checker, with CHK_LOCK and the bits and errors counted under lock (R189). It first seeds itself; a bit
in error before lock, or 64 errors among 128 bits under lock, make it seed itself again. -/
def checkBit (pattern : Nat) (a : LaneTest × Bool × Nat × Nat) (b : Bool) : LaneTest × Bool × Nat × Nat :=
  let (t, lock, bits, errs) := a
  let d := (prbsTaps pattern).2
  if t.ref.length < d then ({ t with ref := b :: t.ref }, lock, bits, errs)
  else
    let want := prbsNext pattern t.ref
    let t := { t with ref := (want :: t.ref).take d }
    let wrong := b != want
    if lock then
      let w := (wrong :: t.errs).take 128
      let errs := if wrong then errs + 1 else errs
      if 64 ≤ (w.filter (·)).length then ({ t with ref := [], good := 0, errs := [] }, false, bits + 1, errs)
      else ({ t with errs := w }, true, bits + 1, errs)
    else if wrong then ({ t with ref := [], good := 0 }, false, bits, errs)
    else if 63 ≤ t.good then ({ t with good := 0, errs := [] }, true, bits, errs)
    else ({ t with good := t.good + 1 }, false, bits, errs)

/-- The checker takes received bits. -/
def State.checkBits (s : State) (p n : Nat) (l : List Bool) : State :=
  let off := Reg.LANE_TEST p n
  let (t, lock, bits, errs) := (l.map (· != s.flag off 29)).foldl (checkBit (s.fld off 20 2)) (s.test p n, s.flag off 30, 0, 0)
  let s := (s.modTest p n fun _ => t).setFlag off 30 lock
  (s.wr64 (Reg.LANE_BITS_LO p n) (satAdd (2 ^ 48 - 1) (s.rd64 (Reg.LANE_BITS_LO p n)) bits)).wr64
    (Reg.LANE_ERRS_LO p n) (satAdd (2 ^ 48 - 1) (s.rd64 (Reg.LANE_ERRS_LO p n)) errs)

/-- CHK_LOCK (R188-R190): a lane under test receives bits on its line, and transmits as many. In the near-end loops its
receiver takes what it transmits. -/
def execChkLock (p n : Nat) (line : List Bool) (s : State) : Host.Outcome State Fault Refusal :=
  let off := Reg.LANE_TEST p n
  if 8 ≤ p ∨ 8 ≤ n ∨ ¬ s.testable p n then ok s
  else
    let (tx, s) := s.testTx p n line
    let s := s.emit [.laneBits p n tx]
    let rx := if s.fld off 24 3 = 1 ∨ s.fld off 24 3 = 2 then tx else line
    ok (if s.flag off 16 then s.checkBits p n rx else s)

/-! ## Registers (R174, R185, R190, R193) -/

/-- A field of PORT_CFG or PORT_CTRL that may not be written now (R174, R190). -/
def State.portFixed (s : State) (p rel : Nat) (v : Nat) (f : FieldSpec) : Bool :=
  let quiet := s.preRun && !s.isUp p && !s.training p
  if rel = 0 then (f.lsb = 12 || f.lsb = 16) && !quiet
  else if f.lsb = 0 then !quiet
  else if f.lsb = 30 then v.testBit 30 && (s.role p = 0 || s.role p = 2) &&
    !(s.preRun || decide (s.rc.state = .halted) || decide (s.rc.state = .fatal))
  else false

/-- TRAIN (R180, R184). -/
def State.trainPort (s : State) (p : Nat) : State :=
  let retrain := s.isUp p || (s.training p && !(s.prt p).first)
  let s := (s.setFld (Reg.PORT_STAT p) 0 8 0).setFlag (Reg.PORT_STAT p) 29 false
  (s.modPort p fun x => { x with fault := none, fails := [] }).startTraining p (!retrain)

/-- DOWN (R174). -/
def State.takeDown (s : State) (p : Nat) : State := (s.portOff p).modPort p fun _ => {}

/-- All lane state of a port is lost (R192, R438): its registers but PORT_CFG, whose ROLE says that a DISABLED port is OFF and how the
first training goes (DEDUCED, log 26), and its checkers. -/
def State.lanesLost (s : State) (p : Nat) : State :=
  let s := s.takeDown p
  let lo := Reg.PORT_CTRL p
  let hi := Reg.PORT_CFG p + 0x1000
  { s with
    csr := s.csr.without lo hi
    latchHi := s.latchHi.without lo hi
    tests := s.tests.without (p * 8) (p * 8 + 8)
    lines := ((List.range 25).filter fun k => k = p || (decide (8 ≤ k ∧ k < 24) && decide (6 + (k - 8) / 8 = p))).foldl
      (fun m k => m.set (fun _ => {}) k { out := (s.line k).out }) s.lines }

/-- The lanes of a port in RETAIN (R192): transmitters in electrical idle, CDRs stopped. -/
def State.lanesRetain (s : State) (p : Nat) : State :=
  (List.range 8).foldl (fun (s : State) n => s.setFlag (Reg.LANE_STAT p n) 29 false) (s.portOff p)

/-- A write of a LANES register. A port that becomes DISABLED is OFF (R192). -/
def State.writeLanes (s : State) (init : Initiator) (off v : Nat) : State :=
  let rel := off % 0x1000
  let p := bits off 12 4
  if p < 8 ∧ (rel = 0 ∨ rel = 4) then
    let was := s.role p
    let (done, s) := s.csrWrite init off v (s.portFixed p rel v) false 0x0405
    if !done then s
    else if rel = 0 then (if s.role p = 3 ∧ was ≠ 3 then s.lanesLost p else s)
    else
      let s := s.setFld off 30 2 0
      let s := if v.testBit 30 then s.takeDown p else s
      if v.testBit 31 then s.trainPort p else s
  else if p < 8 ∧ 0x100 ≤ rel ∧ rel < 0x300 ∧ rel % 0x40 = 0xC then
    let n := (rel - 0x100) / 0x40
    let (done, s) := s.csrWrite init off v (fun _ => !s.testable p n) false 0x0405
    if !done then s
    else
      let s := (s.setFlag off 31 false).setFlag off 18 false
      let s := if v.testBit 31 then (s.emit [.bitError p n]).modTest p n fun x => { x with inject := true } else s
      if v.testBit 18 then
        (((s.wr64 (Reg.LANE_BITS_LO p n) 0).wr64 (Reg.LANE_ERRS_LO p n) 0).setFlag off 30 false).modTest p n fun x =>
          { x with ref := [], good := 0, errs := [] }
      else s
  else State.irqEdges s (s.csrWrite init off v (fun _ => false) false 0x0405).2 [5]

end Sys2Proof.Machine
end

