-- ==== Sys2Proof/Machine/Net.lean ====
section
/-!
DEFINITION. The system network (chapter 08) apart from the trees: frames and link-level retry, the receive path, maps
and their swap, forerunner interworking, registers. Ports 0-7 stand for P0-P7.
-/

namespace Sys2Proof.Machine

/-! ## Chassis triggers (R222, R311, R317) -/

/-- TRIG_INPUT_EVENT (R311, R317): the pin (8: STAR_TRIG_IN) has held a new level for 10 ns. It is an external event, and raises
a system trigger at once, but in REPLAYING (R222, R479); which lines that trigger carries the spec does not say: a free value
(log 112). -/
def execTrigInputEvent (pin : Nat) (rising : Bool) (s : State) : Host.Outcome State Fault Refusal :=
  let edge := if pin < 8 then s.fld (Reg.ACQ_TRIGIO pin) 3 2 else s.fld Reg.ACQ_STAR_CFG 0 2
  let selected := edge = 2 ∨ (edge = 0 ∧ rising) ∨ (edge = 1 ∧ ¬ rising)
  if 8 < pin ∨ (pin < 8 ∧ s.flag (Reg.ACQ_TRIGIO pin) 0) ∨ ¬ selected then ok s
  else
    let s := s.acqEvent (if pin < 8 then 32 + pin else 40)
    if s.rc.state = .replaying ∨ s.rc.state = .fatal then ok s
    else
      let (lines, s) := s.free
      ok (s.raiseTrigger (lines.toNat % 256) s.latestBegun)

/-! ## Sequence numbers and acknowledgement (R201-R203) -/

/-- `b` lies 0 to `k - 1` above `a`, modulo 256. -/
def within (a b k : Nat) : Bool := decide ((b + 256 - a % 256) % 256 < k)

/-- LIMIT_SEQ (R202): ACK_SEQ plus the number of free receive-buffer entries. -/
def Link.limit (l : Link) : Nat := (l.expSeq + 255 + (64 - l.rx.length)) % 256

/-- Send an ACK (R202, R225) on a port that sends sets (R180, R224, R512). -/
def State.sendAck (s : State) (p : Nat) : State :=
  if ¬ s.portSends p then s
  else
    let l := s.link p
    let a := (l.expSeq + 255) % 256
    let s := s.emit [if s.role p = 2 then .frSeq p 4 a 0 else .set p 0 1 s.net.gen (.ack a l.limit)]
    s.modLink p fun x => { x with limitTold := l.limit }

/-- Discard a frame that is no duplicate (R202): NAK with the expected SEQ, once until that frame is accepted. -/
def State.discardFrame (s : State) (p : Nat) : State :=
  let s := s.count (Reg.FRAME_ERR p) 0 32 1
  let l := s.link p
  if l.nakSent ∨ ¬ s.portSends p then s
  else
    let s := s.emit [if s.role p = 2 then .frSeq p 5 l.expSeq 0 else .set p 0 1 s.net.gen (.nak l.expSeq)]
    (s.count (Reg.LINK_NAKS p) 0 32 1).modLink p fun x => { x with nakSent := true }

/-- The link of a port takes part in frames: UP, and its peer not down (R224). -/
def State.linkOpen (s : State) (p role : Nat) : Bool :=
  decide (p < 8) && decide (s.role p = role) && s.isUp p && !(s.link p).peerDown

/-- The columns of a frame that reaches a port of the given role are decoded and read (R175-R178, R199, R226); a code
violation or disparity error makes the frame a bad one. -/
def State.rxFrame (s : State) (f : RxFrame) (fr : Bool) : RxParsed × State :=
  let (cols, bad, s) := s.rxColumns f.port f
  (if bad then { good := false } else parseFrame fr cols, s)

/-- FRAME (R202): a frame arrives on a SYSTEM port. On a port in the SHALE role it is symbols for Shale, a row of the enabled
lanes after the other (R173, R285). -/
def execFrame (f : RxFrame) (s : State) : Host.Outcome State Fault Refusal :=
  let p := f.port
  if s.role p = 1 then ok (s.edgeRows p f.lanes)
  else if ¬ s.linkOpen p 0 then ok s
  else
    let (x, s) := (s.touch (65 + p)).rxFrame f false
    let l := s.link p
    if ¬ x.good then ok (s.discardFrame p)
    else if x.seq = l.expSeq then
      let words := ((List.range x.words.length).zip x.words).map fun (e : Nat × W64 × W64) =>
        ({ port := p, slot := x.slot + e.1, cycle := x.cycle, gen := x.gen, full := x.full
           mask := e.2.2, word := e.2.1, own := false } : SlotWord)
      let fr : Frame := { seq := x.seq, full := x.full, gen := x.gen, cycle := x.cycle, words := words }
      ok ((s.modLink p fun y => { y with rx := y.rx ++ [fr], expSeq := (x.seq + 1) % 256, nakSent := false }).sendAck p)
    else if within (x.seq + 1) l.expSeq 64 then ok (s.sendAck p)
    else ok (s.discardFrame p)

/-! ## The receive path (R205, R206, R209, R228) -/

/-- An error that the check of a network memory finds (R231): 0 replay, 1 receive, 2 map, 3 held. `true` where the
error is fatal. -/
def State.netEcc (s : State) (p : Nat) : Option (Nat × Bool) → Bool × State
  | none => (false, s)
  | some (mem, false) => (false, s.record cCorrected bSysnet 0x0509 (p * 2 ^ 29 + mem % 4 * 2 ^ 27))
  | some (mem, true) => (true, s.fatal bSysnet 0x050A (p * 2 ^ 29 + mem % 4 * 2 ^ 27))

/-- The frame whose words have all left the receive path leaves the receive buffer, and an ACK goes out when LIMIT_SEQ
has risen by 8 or more (R202). -/
def State.takeRxWord (s : State) (p : Nat) : State :=
  let l := s.link p
  match l.rx with
  | [] => s
  | f :: rest =>
    match f.words with
    | _ :: w :: ws => s.modLink p fun x => { x with rx := { f with words := w :: ws } :: rest }
    | _ =>
      let s := s.modLink p fun x => { x with rx := rest }
      let l := s.link p
      if 8 ≤ (l.limit + 256 - l.limitTold % 256) % 256 then s.sendAck p else s

/-- The word the receive path of a SYSTEM port handles next. -/
def State.nextRx (s : State) (p : Nat) : Option SlotWord :=
  match (s.link p).rx with
  | f :: _ => f.words.head?.map fun w => { w with cycle := widenNear 24 w.cycle s.rc.ecn }
  | [] => none

/-- RECEIVE_WORD (R205): the receive path of port `p` handles one word; `err` is what the checks of the memories it
reads find. A device in FATAL has stopped its fabric (R133). -/
def execReceiveWord (p : Nat) (err : Option (Nat × Bool)) (s : State) : Host.Outcome State Fault Refusal :=
  if 8 ≤ p ∨ s.rc.state = .fatal then ok s
  else if s.role p = 2 then
    let l := s.link p
    match l.frRecv[l.frDone]? with
    | none => ok s
    | some w =>
      if s.rc.ecn + 2 < w.cycle then ok s
      else
        match s.netEcc p err with
        | (true, s) => ok s
        | (false, s) =>
          match s.passWord w with
          | (some s, _) => ok (s.modLink p fun x => { x with frDone := x.frDone + 1 })
          | (none, s) => ok s
  else
    match s.nextRx p with
    | none => ok s
    | some w =>
      match s.netEcc p err with
      | (true, s) => ok s
      | (false, s) =>
        if ¬ s.accepts w.gen w.cycle then ok ((s.count (Reg.STALE_DROP p) 0 32 1).takeRxWord p)
        else
          match s.passWord w with
          | (some s, _) => ok (s.takeRxWord p)
          | (none, s) => ok s

/-! ## Transmission (R200, R201, R203, R226) -/

/-- Frames of the replay buffer that may lie unacknowledged: 64, or 32 toward a PY-7208 (R201, R226). -/
def State.replaySize (s : State) (p : Nat) : Nat := if s.role p = 2 then 32 else 64

/-- The words of the next new frame and the queue they leave (R200): the oldest ready word first, then each ready word
that continues the run of slot numbers, of the same TYPE, CYCLE and GEN, up to the limit. -/
def gather : Nat → SlotWord → List SlotWord → List SlotWord × List SlotWord
  | 0, _, q => ([], q)
  | k + 1, w, q =>
    match q.find? (fun x => x.full = w.full && x.cycle = w.cycle && x.gen = w.gen && x.slot = w.slot + 1) with
    | none => ([], q)
    | some x =>
      let (l, q) := gather k x (q.erase x)
      (x :: l, q)

/-- Form a new frame from the framer queue; it takes the next SEQ and enters the replay buffer (R200, R201). -/
def State.formFrame (s : State) (p : Nat) : State :=
  let l := s.link p
  match l.framer with
  | [] => s
  | w :: q =>
    if s.replaySize p ≤ l.replay.length then s
    else
      let (more, q) := gather ((if w.full then 32 else 16) - 1) w q
      let f : Frame := { seq := l.nextSeq, full := w.full, gen := w.gen, cycle := w.cycle, words := w :: more }
      s.modLink p fun x => { x with
        framer := q, replay := x.replay ++ [f], nextSeq := (x.nextSeq + 1) % 256, resend := x.resend + 1 }

/-- A new frame may go out: its SEQ is at or below the peer's latest LIMIT_SEQ (R201); a PY-7208 gives no credit. -/
def State.hasCredit (s : State) (p : Nat) (f : Frame) : Bool :=
  f.sent || decide (s.role p = 2) || within f.seq (s.link p).limitSeq 128

/-- Transmit the next frame due; `err` is what the check of its replay-buffer entry finds (R200, R231). -/
def State.sendFrame (s : State) (p : Nat) (err : Option Bool) : State :=
  let l := s.link p
  let k := l.replay.length - l.resend
  match l.replay[k]? with
  | none => s
  | some f =>
    if ¬ s.hasCredit p f then s
    else match err with
      | some true =>
        (s.emit [.frame p { f with poisoned := true } f.sent]).fatal bSysnet 0x050A (p * 2 ^ 29)
      | e =>
        let s := if e.isSome then s.record cCorrected bSysnet 0x0509 (p * 2 ^ 29) else s
        let s := s.emit [.frame p f f.sent]
        s.modLink p fun x => { x with
          replay := x.replay.set k { f with sent := true }, resend := x.resend - 1
          lastAck := if x.replay.any (·.sent) then x.lastAck else s.now }

/-- FRAME_TRANSMIT (R200): the transmitter of port `p` is free. Resent frames go before new ones (R215). -/
def execFrameTransmit (p : Nat) (err : Option Bool) (s : State) : Host.Outcome State Fault Refusal :=
  if ¬ (s.linkOpen p 0 ∨ s.linkOpen p 2) ∨ s.rc.state = .fatal then ok s
  else
    let s := s.touch (65 + p)
    ok ((if (s.link p).resend = 0 then s.formFrame p else s).sendFrame p err)

/-- ACK (R201, R202): it frees the frames it covers; LIMIT_SEQ is the latest. -/
def State.takeAck (s : State) (p seq limit : Nat) : State :=
  let l := s.link p
  let k := match l.replay with
    | [] => 0
    | f :: _ => if within f.seq seq l.replay.length then (seq % 256 + 256 - f.seq) % 256 + 1 else 0
  s.modLink p fun x => { x with
    replay := x.replay.drop k
    resend := min x.resend (x.replay.length - k)
    ackedSeq := seq % 256
    limitSeq := limit % 256
    lastAck := if k = 0 then x.lastAck else s.now
    nakSeen := if k = 0 then x.nakSeen else none }

/-- RETRY_LIMIT resends of one frame brought no ACK (R203, R226): the port retrains, or a FORERUNNER port is lost. -/
def State.retryExhausted (s : State) (p : Nat) (f : Frame) : State :=
  let s := (s.record cLink bSysnet 0x0501 (p * 2 ^ 29 + f.seq * 2 ^ 21)).raise 6 1
  let s := s.modLink p fun x => { x with replay := x.replay.map fun g => { g with retries := 0 }, lastAck := s.now }
  if s.role p = 2 then s.losePort p else s.startTraining p false

/-- Send again every unacknowledged frame from index `k` on, one retry of that frame (R203); one that has never been sent is
still to be sent for the first time. -/
def State.resendFrom (s : State) (p k : Nat) : State :=
  let l := s.link p
  match l.replay[k]? with
  | none => s
  | some f =>
    if ¬ f.sent then s
    else if s.fld (Reg.LINK_CFG p) 0 4 ≤ f.retries then s.retryExhausted p f
    else
      (s.count (Reg.LINK_RETRIES p) 0 32 1).modLink p fun x => { x with
        replay := x.replay.set k { f with retries := f.retries + 1 }
        resend := max x.resend (x.replay.length - k), lastAck := s.now }

/-- A link set of a port that is open: a SYSTEM port's under R213, a FORERUNNER port's under R225, where `crc` holds the sum
of the sequence of type `kind` with argument `a`. -/
def State.onLinkSet (s : State) (h : SetHdr) (m : Msg) (kind a : Nat) (f : State → State) : State :=
  if s.role h.port = 2 then
    (if h.bad ∨ h.crc ≠ frSeqSum kind a 0 ∨ ¬ s.linkOpen h.port 2 ∨ s.rc.state = .fatal then s else f s)
  else s.onSet h m fun s => if s.linkOpen h.port 0 then f s else s

/-- ACK (R201, R202). -/
def execAck (h : SetHdr) (seq limit : Nat) (s : State) : Host.Outcome State Fault Refusal :=
  ok (s.onLinkSet h (.ack seq limit) 4 seq fun s => s.takeAck h.port seq limit)

/-- NAK (R203): acted on once per expected SEQ (R214). -/
def execNak (h : SetHdr) (seq : Nat) (s : State) : Host.Outcome State Fault Refusal :=
  ok (s.onLinkSet h (.nak seq) 5 seq fun s =>
    let l := s.link h.port
    let k := match l.replay with
      | [] => 0
      | f :: _ => (seq % 256 + 256 - f.seq) % 256
    if l.nakSeen = some (seq % 256) ∨ l.replay.length ≤ k then s
    else (s.modLink h.port fun x => { x with nakSeen := some (seq % 256) }).resendFrom h.port k)

/-- REPLAY_TIMEOUT (R203): no ACK has advanced for LINK_CFG.REPLAY_TIMEOUT while frames are unacknowledged. -/
def execReplayTimeout (p : Nat) (s : State) : Host.Outcome State Fault Refusal :=
  let l := s.link p
  if ¬ (s.linkOpen p 0 ∨ s.linkOpen p 2) ∨ ¬ l.replay.any (·.sent) ∨ s.rc.state = .fatal ∨
      s.now < l.lastAck + 100 * s.fld (Reg.LINK_CFG p) 8 8 then ok s
  else ok (s.resendFrom p 0)

/-- ACK_TIMER (R202): an ACK every 1 µs while the port is UP. -/
def execAckTimer (p : Nat) (s : State) : Host.Outcome State Fault Refusal :=
  if ¬ (s.linkOpen p 0 ∨ s.linkOpen p 2) ∨ s.now < (s.link p).sentAck + 1000 then ok s
  else ok ((s.modLink p fun x => { x with sentAck := s.now }).sendAck p)

/-! ## Repeats, silence, DEVICE_DOWN (R215, R220, R224) -/

/-- The watermarks and upward reports of R215, sent again, a halt report before every other set. -/
def State.repeatSets (s : State) : State :=
  let (halts, rest) := s.net.repeats.partition fun r => r.2.typ = 0x18
  let s := halts.foldl (fun (s : State) r => s.sendUp r.1 r.2) s
  let s := [0, 1].foldl (fun (s : State) t =>
    let m := s.net.sentUp.get (fun _ => 0) t
    let s := if m = 0 then s else s.sendUp t (.committed (m - 1))
    if s.net.lastSealUp = 0 then s else s.sendDown t (.globalSeal (s.net.lastSealUp - 1))) s
  rest.foldl (fun (s : State) r => s.sendUp r.1 r.2) s

/-- REPEAT_TIMER (R215): every 1 µs, except in FATAL (R512). -/
def execRepeatTimer (s : State) : Host.Outcome State Fault Refusal :=
  if s.rc.state = .fatal ∨ s.now < s.net.repeatAt + 1000 then ok s
  else ok ({ s with net := { s.net with repeatAt := s.now } } : State).repeatSets

/-- Port `p` carries a link of tree `t`. -/
def State.treeLink (s : State) (t p : Nat) : Bool :=
  (!s.isRoot t && decide (s.parent t = p)) || (s.children t).contains p

/-- NET_TREE_SILENT (R220): 4 µs without a valid set of tree `t` on port `p`. -/
def execNetTreeSilent (p t : Nat) (s : State) : Host.Outcome State Fault Refusal :=
  let heard := if t = 0 then (s.link p).heardA else (s.link p).heardB
  let bit := if t = 0 then 16 + p else 24 + p
  if 8 ≤ p ∨ 2 ≤ t ∨ s.rc.state = .idle ∨ s.rc.state = .fatal ∨ ¬ s.treeLink t p ∨ s.now < heard + 4000 ∨
      s.flag Reg.TREE_STAT bit then ok s
  else ok (((s.setFlag Reg.TREE_STAT bit true).record cLink bSysnet 0x0503 (p * 2 ^ 29 + t * 2 ^ 28)).raise 6 2)

/-- DEVICE_DOWN (R224): PEER_DOWN, and in LOADED, RUNNING, PAUSED and REPLAYING order 3 of R133. -/
def execDeviceDown (h : SetHdr) (ecn dev reason : Nat) (s : State) : Host.Outcome State Fault Refusal :=
  ok (s.onSet h (.deviceDown ecn dev reason) fun s =>
    let s := s.modLink h.port fun l => { l with peerDown := true }
    let s := (s.record cLink bSysnet 0x0502 (h.port * 2 ^ 29 + reason % 256 * 2 ^ 21 + dev % 8192)).raise 6 0
    match s.rc.state with
    | .loaded | .running | .paused | .replaying => s.actSystemHalt s.net.gen s.rc.sealNext s.devId
    | _ => s)

/-! ## Maps (R196, R197, R204, R210, R211) -/

/-- Images of 32-bit entries, by entry index. -/
def State.readMap (s : State) (base n : Nat) : Except Nat (Map W32) × State :=
  match s.ringLoaderRead (s.fld base 0 26 * 4096) (4 * n) with
  | (.error a, s) => (.error a, s)
  | (.ok m, s) => (.ok ((wordsOf 4 m).map fun e => (e.1, BitVec.ofNat 32 e.2)), s)

/-- The assembly words that a send map names, in order of their first entry: key and index of the entry (R197). -/
def State.assemblyWords (s : State) (m : Map W32) : List (Nat × Nat) :=
  m.foldl (fun l e =>
    let v := e.2.toNat
    let p := bits v 22 3
    let role := s.role p
    let valid := v.testBit 31 && v.testBit 30 &&
      (decide (role = 0) || (decide (role = 2) && decide (bits v 6 16 ≤ 4095)))
    let k := p * 65536 + bits v 6 16
    if valid && !l.any (fun x => x.1 = k) then l ++ [(k, e.1)] else l) []

/-- The content of the shadow bank after a load that stopped: undefined, a free content (log 7). -/
def State.undefShadow (s : State) : State :=
  let n := s.freeCount
  let all (base size : Nat) : Map W32 :=
    ((List.range size).map fun i => (i, (Config.freeContent n (base + i)).setWidth 32)).filter fun e => e.2 ≠ 0
  { s with
    freeCount := n + 1
    net := { s.net with shadow := { send := all 0 262144, recv := all 262144 65536, relay := all 327680 16384 } } }

/-- A map load stops with NET_MAP_LOAD_ERROR: `table`, whether the limit of R197 was passed, the address. -/
def State.mapLoadError (s : State) (table : Nat) (limit : Bool) (addr : Nat) : State :=
  let s := { s.undefShadow with net := { s.undefShadow.net with busy := false, shadowReady := false } }
  let s := (s.modRc fun r => { r with mapErr := true }).setFlag Reg.MAP_CTRL 25 true
  (s.record cConfig bSysnet 0x0504 (table * 2 ^ 27 + (if limit then 2 ^ 26 else 0) + addr / 64 % 2 ^ 26)).raise 6 3

/-- MAP_LOAD_DONE (R210): the three images are in the shadow bank, or the load stops. The address recorded with the
limit of R197 is that of the entry that passes it (DEDUCED, log 50). -/
def execMapLoadDone (s : State) : Host.Outcome State Fault Refusal :=
  if ¬ s.net.busy then ok s
  else
    match s.readMap Reg.MAP_SEND_BASE (s.nClusters * 4096) with
    | (.error a, s) => ok (s.mapLoadError 0 false a)
    | (.ok send, s) =>
      match s.readMap Reg.MAP_RECV_BASE 65536 with
      | (.error a, s) => ok (s.mapLoadError 1 false a)
      | (.ok recv, s) =>
        match s.readMap Reg.MAP_RELAY_BASE 16384 with
        | (.error a, s) => ok (s.mapLoadError 2 false a)
        | (.ok relay, s) =>
          match (s.assemblyWords send)[16384]? with
          | some e => ok (s.mapLoadError 0 true (s.fld Reg.MAP_SEND_BASE 0 26 * 4096 + e.2 * 4))
          | none => ok (({ s with net := { s.net with
              shadow := { send := send, recv := recv, relay := relay }
              busy := false, shadowReady := true } } : State).raise 6 4)

/-- The swap at E = MAP_SWAP_ECN is armed, or the write arms nothing (R211). -/
def State.armSwap (s : State) : State :=
  let e := s.rd64 Reg.MAP_SWAP_ECN_LO
  if ¬ s.net.shadowReady ∨ s.net.armed.isSome then s.reject bSysnet 0x0505 Reg.MAP_SWAP_ECN_HI
  else if ¬ s.preRun ∧ ¬ s.rc.fresh ∧ e ≤ s.latestBegun then s.record cRejected bSysnet 0x0506 e
  else { s with net := { s.net with armed := some e } }

/-- The fields of a SYSNET register that may not be written now (R195, R210, R211, R230). -/
def State.netFixed (s : State) (off : Nat) (f : FieldSpec) : Bool :=
  if off = Reg.NET_ID then
    decide (s.rc.state ≠ .idle) || (List.range 8).any fun p =>
      (decide (s.role p = 0) || decide (s.role p = 2)) && (s.isUp p || s.training p)
  else if off = Reg.TREE_CFG 0 ∨ off = Reg.TREE_CFG 1 ∨ off = Reg.TREE_ID 0 ∨ off = Reg.TREE_ID 1 then !s.preRun
  else if off = Reg.MAP_SEND_BASE ∨ off = Reg.MAP_RECV_BASE ∨ off = Reg.MAP_RELAY_BASE then s.net.busy
  else if off = Reg.MAP_CTRL ∧ f.lsb = 31 then
    s.net.busy || s.net.armed.isSome || s.net.retiring.isSome || s.rc.variant
  else if off = Reg.MAP_CTRL ∧ f.lsb = 30 then !(s.preRun && s.net.shadowReady)
  else false

/-- A write of a SYSNET register. SWAP_NOW acts before LOAD of the same write (DEDUCED, log 51). -/
def State.writeSysnet (s : State) (init : Initiator) (off v : Nat) : State :=
  let (done, s1) := s.csrWrite init off v (s.netFixed off) false 0x0505
  if !done then s1
  else if off = Reg.MAP_CTRL then
    let s1 := s1.setFld off 30 2 0
    let s1 := if v.testBit 30 then s1.swapBanks else s1
    if v.testBit 31 then ({ s1 with net := { s1.net with busy := true, shadowReady := false } } : State).wakeFabric else s1
  else if off = Reg.MAP_SWAP_ECN_HI then s1.armSwap
  else State.irqEdges s s1 [6]

/-- What MAP_RD_DATA shows (R230). -/
def State.mapEntry (s : State) : Nat :=
  let r := s.rd Reg.MAP_RD_SEL
  let b := if r.testBit 31 then s.net.shadow else s.net.active
  let i := bits r 0 18
  (match bits r 29 2 with
    | 0 => b.send.get (fun _ => 0) i
    | 1 => b.recv.get (fun _ => 0) i
    | _ => b.relay.get (fun _ => 0) i).toNat

/-- What MAP_CTRL shows (R230). -/
def State.mapCtrl (s : State) : Nat :=
  let f (b : Bool) (i : Nat) : Nat := if b then 2 ^ i else 0
  f s.net.busy 29 + f s.net.shadowReady 28 + f s.net.armed.isSome 27 + f s.net.retiring.isSome 26 +
    f (s.flag Reg.MAP_CTRL 25) 25 + s.net.activeBank

/-- What LINK_STAT shows (R230). -/
def State.linkStat (s : State) (p : Nat) : Nat :=
  let l := s.link p
  (if l.peerDown then 2 ^ 31 else 0) + l.replay.length * 2 ^ 16 + l.nextSeq * 2 ^ 8 + l.ackedSeq

/-! ## Forerunner interworking (R225-R228) -/

/-- INIT (R225): 256 valid sequences bring a FORERUNNER port UP, at width 8 only (R191); that the peer has received as many is
not seen here (DEDUCED, log 17). -/
def execInit (p id peer sum : Nat) (s : State) : Host.Outcome State Fault Refusal :=
  if 8 ≤ p ∨ s.role p ≠ 2 ∨ ¬ s.training p ∨ sum ≠ frSeqSum 1 id peer ∨ s.inTest p ∨ s.usable p ≠ 255 then ok s
  else
    let n := (s.link p).frInit + 1
    let s := s.modLink p fun l => { l with frInit := min n 256 }
    if n < 256 then ok s else ok (s.comeUp p 255 (peer % 8 * 2 ^ 13 + id % 2 ^ 13))

/-- The lowest cycle at or above `c` whose value modulo 4 is `e` (R228). -/
def cycleOf (c e : Nat) : Nat := c + (e + 4 - c % 4) % 4

/-- FORERUNNER_FRAME (R226, R228): checked as R202 says, given its cycle, and stored in the ingress buffer. The first
frame of a run counts from the run's first cycle (DEDUCED, log 17). -/
def execForerunnerFrame (f : RxFrame) (s : State) : Host.Outcome State Fault Refusal :=
  let p := f.port
  if ¬ s.linkOpen p 2 then ok s
  else
    let (x, s) := s.rxFrame f true
    let l := s.link p
    if ¬ x.good then ok (s.discardFrame p)
    else if x.seq = l.expSeq then
      let n := cycleOf (max l.frCycle s.rc.runStart) x.cycle
      let room := 16384 - l.frRecv.length
      let words := ((List.range x.words.length).zip x.words).map fun (e : Nat × W64 × W64) =>
        ({ port := p, slot := (x.slot + e.1) % 4096, cycle := n, gen := s.net.gen, full := true
           mask := BitVec.allOnes 64, word := e.2.1, own := false } : SlotWord)
      let kept := words.take room
      let s := s.modLink p fun y => { y with
        frRecv := y.frRecv ++ kept, frCycle := n, expSeq := (x.seq + 1) % 256, nakSent := false }
      let s := (s.count (Reg.FR_WORDS p) 0 32 kept.length).sendAck p
      ok (if kept.length < words.length then s.fatal bSysnet 0x050C (p * 2 ^ 29) else s)
    else if within (x.seq + 1) l.expSeq 64 then ok (s.sendAck p)
    else ok (s.discardFrame p)

/-- NET_FR_HALT (R228): a HALT sequence on a FORERUNNER port halts the system; one with a wrong sum is discarded (R225). -/
def execNetFrHalt (p id sum : Nat) (s : State) : Host.Outcome State Fault Refusal :=
  if ¬ s.linkOpen p 2 ∨ s.rc.state = .fatal ∨ sum ≠ frSeqSum 6 (id % 256) (id / 256) then ok s
  else ok (s.record cLink bSysnet 0x050B (p * 2 ^ 29 + id % 2 ^ 13)).askHalt

end Sys2Proof.Machine
end

