-- ==== Sys2Proof/Machine/Widths.lean ====
section
/-!
DEFINITION. Access widths and alignment in the CSR window (R25), and the ring target that serves a block (R378, R385).
-/

namespace Sys2Proof.Machine

/-- ACCESS_WIDTH (R25, R31). -/
def State.widthReject (s : State) (addr : Nat) : State := s.record cRejected bRunctl 0x0602 addr

/-- An access by the rules of R25, built from 32-bit reads and writes of one word at a time; their second argument is
the offset of the word, their third the number of the part of a 64-bit access. `write`: the data of a write. -/
def State.byWidth (s : State) (a : RegAcc) (write : Option Nat) (rd : State → Nat → Nat → Nat × State)
    (wr : State → Nat → Nat → Nat → State) : State :=
  if (a.width = 16 ∧ a.off % 2 = 1) ∨ (32 ≤ a.width ∧ a.off % 4 ≠ 0) then
    (s.widthReject (a.off % 2 ^ 32)).answer 0
  else match write with
    | some v =>
      if a.width < 32 then (s.widthReject (a.off % 2 ^ 32)).answer 0
      else
        let s := wr s a.off 0 (v % 2 ^ 32)
        let s := if a.width = 64 then wr s (a.off + 4) 1 (v / 2 ^ 32 % 2 ^ 32) else s
        s.answer 0
    | none =>
      let word := a.off / 4 * 4
      let (x, s) := rd s word 0
      if a.width < 32 then s.answer (bits x (8 * (a.off % 4)) a.width)
      else if a.width = 64 then
        let (y, s) := rd s (word + 4) 1
        s.answer (x + 2 ^ 32 * y)
      else s.answer x

end Sys2Proof.Machine
end

