-- ==== Sys2Proof/Machine/Shale.lean ====
section
/-!
DEFINITION. Shale and its configuration (chapter 11): frames and their checks, what they configure, loads and release, the
scrubber, clock loops, the register window. What user logic computes is the user's (log 8): what it answers is an operand,
and what it holds, once it has run, is undefined content.
-/

namespace Sys2Proof.Machine

/-- SH_STATUS.STATE. -/
def State.shState (s : State) : Nat := s.fld Reg.SH_STATUS 29 3

/-- Set SH_STATUS.STATE. -/
def State.setShState (s : State) (v : Nat) : State := s.setFld Reg.SH_STATUS 29 3 v

/-- SH_ZONE_STAT of a zone. -/
def State.zoneStat (s : State) (k : Nat) : Nat := s.fld Reg.SH_ZONE_STAT (4 * k) 4

/-- Set SH_ZONE_STAT of a zone. -/
def State.setZone (s : State) (k v : Nat) : State := s.setFld Reg.SH_ZONE_STAT (4 * k) 4 v

/-- Change how a scope is held. -/
def State.modHold (s : State) (k : Nat) (f : ShHold → ShHold) : State :=
  s.modSh fun x => { x with holds := x.holds.set holdAtReset k (f (x.holds.get holdAtReset k)) }

/-- What the user logic of a scope holds. -/
def State.shUser (s : State) (k : Nat) : ShUser := s.shale.user.get (fun _ => {}) k

/-- Scope `k`, and all of Shale with it, is released in one of the respects of R297. -/
def State.shFree (s : State) (k : Nat) (f : ShHold → Bool) : Bool := !f (s.shHold 8) && !f (s.shHold k)

/-! ## Frames (R288, R295) -/

/-- The linear index of a frame address; none: invalid (R288). -/
def frameIndex (fa : Nat) : Option Nat :=
  let u := bits fa 10 10; let m := bits fa 0 10
  if 2 ^ 30 ≤ fa ∨ bits fa 20 8 ≠ 0 then none
  else match bits fa 28 2 with
    | 0 => if u < 32 ∧ m < 384 then some (u * 384 + m) else none
    | 1 => if u < 256 ∧ m < 19 then some (12288 + u * 19 + m) else none
    | 2 => if u < 4 ∧ m < 3 then some (17152 + u * 3 + m) else none
    | _ => if u < 8 ∧ m = 0 then some (17164 + u) else if u = 8 ∧ m = 0 then some 17172 else none

/-- The frame address of a linear index. -/
def frameAddr (i : Nat) : Nat :=
  if i < 12288 then i / 384 * 2 ^ 10 + i % 384
  else if i < 17152 then 2 ^ 28 + (i - 12288) / 19 * 2 ^ 10 + (i - 12288) % 19
  else if i < 17164 then 2 ^ 29 + (i - 17152) / 3 * 2 ^ 10 + (i - 17152) % 3
  else 3 * 2 ^ 28 + (i - 17164) * 2 ^ 10

/-- The zone a frame belongs to; none: the static region (R288). -/
def frameZone (i : Nat) : Option Nat :=
  if i < 12288 then (if 16 ≤ i / 384 then some ((i / 384 - 16) / 2) else none)
  else if i < 17152 then
    (let m := (i - 12288) / 19; if 128 ≤ m then some ((m - 128) / 16) else none)
  else none

/-- A block-memory content frame (R301). -/
def contentFrame (i : Nat) : Bool := decide (12288 ≤ i) && decide (i < 17152) && decide ((i - 12288) % 19 < 18)

/-- Bits `[lsb + w - 1 : lsb]` of a frame. -/
def fbits (d : BitVec 2048) (lsb w : Nat) : Nat := bits d.toNat lsb w

/-- The select fields of a frame, by bit position ÷ 16 (R288). -/
def selectFields (i : Nat) : List Nat :=
  if i < 12288 then (if 5 ≤ i % 384 % 24 then List.range 128 else [])
  else if 17152 ≤ i ∧ i < 17164 ∧ (i - 17152) % 3 = 2 then List.range 128
  else if i = 17172 then List.range 9
  else []

/-- A loop frame holds only listed values (R288). -/
def loopOk (d : BitVec 2048) (u : Nat) : Bool :=
  decide (d.toNat < 2 ^ 41) && decide (fbits d 0 4 ≤ 3) && fbits d 19 1 == 0 &&
    decide (fbits d 0 4 = 3 → fbits d 16 3 < u) &&
    decide (8 ≤ fbits d 20 8) && decide (fbits d 20 8 ≤ 128) && decide (1 ≤ fbits d 28 4) && decide (fbits d 28 4 ≤ 8) &&
    decide (1 ≤ fbits d 32 8) && decide (fbits d 32 8 ≤ 160)

/-- No reserved bit is 1 and no reserved code or value is present (R295 order 4). -/
def frameOk (i : Nat) (d : BitVec 2048) : Bool :=
  if i < 12288 then
    if i % 384 % 24 = 4 then (List.range 128).all fun c => fbits d (16 * c + 8) 8 == 0 else true
  else if i < 17152 then
    if (i - 12288) % 19 = 18 then
      decide (d.toNat < 2 ^ 14) && decide (fbits d 0 4 ≤ 6) && decide (fbits d 4 4 ≤ 6) &&
        decide (fbits d 8 2 ≠ 3) && decide (fbits d 10 2 ≠ 3) && decide (fbits d 0 4 = 6 ↔ fbits d 4 4 = 6)
    else true
  else if i < 17164 then
    match (i - 17152) % 3 with
    | 0 => decide (d.toNat < 3)
    | 1 => (List.range 32).all fun n =>
        fbits d (64 * n + 14) 50 == 0 && decide (fbits d (64 * n) 2 ≠ 3) &&
          decide (fbits d (64 * n + 9) 4 < 8 ∨ fbits d (64 * n + 9) 4 = 15)
    | _ => true
  else if i < 17172 then loopOk d (i - 17164)
  else decide (d.toNat < 2 ^ 136) && (List.range 8).all fun b => fbits d (16 * b + 8) 8 == 0

/-- A field holds at most one 1. -/
def oneHot (n : Nat) : Bool := n &&& (n - 1) == 0

/-- The first select field with more than one 1 (R295 order 5). -/
def contention (i : Nat) (d : BitVec 2048) : Option Nat :=
  (selectFields i).find? fun k => !oneHot (fbits d (16 * k) 16)

/-- A frame record (R289): FA, data, and whether its CRC-32 is right. -/
structure FrameRec where
  fa : Nat
  data : BitVec 2048
  good : Bool
  deriving DecidableEq, Repr

/-- Read a frame record from its 264 bytes. -/
def frameRec (l : List Byte) : FrameRec :=
  { fa := natOfBytes (l.take 4), data := BitVec.ofNat 2048 (natOfBytes ((l.drop 4).take 256))
    good := decide (l.length = 264) && decide (natOfBytes ((l.drop 260).take 4) = crc32 (l.take 260)) }

/-- The first check of R295 that a record fails: code and detail. -/
def checkFrame (zone : Option Nat) (r : FrameRec) : Option (Nat × Nat) :=
  if !r.good then some (0x0802, r.fa % 2 ^ 30)
  else match frameIndex r.fa with
    | none => some (0x0803, r.fa % 2 ^ 30)
    | some i =>
      if zone.isSome ∧ frameZone i ≠ zone then some (0x0804, r.fa % 2 ^ 30)
      else if !frameOk i r.data then some (0x0803, r.fa % 2 ^ 30)
      else match contention i r.data with
        | some k => some (0x0805, r.fa % 2 ^ 30 + k * 2 ^ 20)
        | none => none

/-- A frame of undefined content number `n` (log 7). -/
def frameContent (n i : Nat) : BitVec 2048 :=
  BitVec.ofNat 2048 ((List.range 16).foldl (fun v j => v + (Config.freeContent n (i * 16 + j)).toNat * 2 ^ (128 * j)) 0)

/-- Configuration frame `i`; of a zone whose load failed, undefined where that load wrote nothing (R296). -/
def State.cfgFrame (s : State) (i : Nat) : BitVec 2048 :=
  match (frameZone i).bind fun k => s.shale.lost.get (fun _ => none) k with
  | some n => s.shale.frames.get (frameContent n) i
  | none => s.shale.frames.get (fun _ => 0) i

/-- What is stored with a frame (R301). -/
def guardOf (d : BitVec 2048) : FrameGuard :=
  { check := Config.frameCheck d, crc := crc32 (bytesOfNat d.toNat 256) }

/-- The frames where frame `i` reads `d`. -/
def Shale.laid (y : Shale) (i : Nat) (d : BitVec 2048) : Map (BitVec 2048) :=
  if ((frameZone i).bind fun k => y.lost.get (fun _ => none) k).isSome then y.frames.insert i d
  else y.frames.set (fun _ => 0) i d

/-- Write frame `i`, its check bits and its CRC-32. -/
def State.putFrame (s : State) (i : Nat) (d : BitVec 2048) : State :=
  s.modSh fun y => { y with
    frames := y.laid i d
    guards := y.guards.insert i (guardOf d)
    bad := y.bad.filter (· ≠ i) }

/-- Clear the frames that `mine` picks (R297, R300). -/
def State.clearFrames (s : State) (mine : Nat → Bool) : State :=
  s.modSh fun y => { y with
    frames := y.frames.filter fun e => !mine e.1
    guards := y.guards.filter fun e => !mine e.1
    bad := y.bad.filter fun i => !mine i }

/-- Loop `j` has EN = 1. -/
def State.loopOn (s : State) (j : Nat) : Bool := decide (fbits (s.cfgFrame (17164 + j)) 40 1 = 1)

/-- SH_LOOP_STAT.CONFIGURED: bit j where loop j is enabled. -/
def State.loopsOn (s : State) : Nat := (List.range 8).foldl (fun n j => if s.loopOn j then n + 2 ^ j else n) 0

/-- The fields that follow the configuration: CONFIGURED, and LOCKED only of enabled loops. -/
def State.showLoops (s : State) : State :=
  let on := s.loopsOn
  (s.setFld Reg.SH_LOOP_STAT 16 8 on).setFld Reg.SH_LOOP_STAT 0 8 (s.fld Reg.SH_LOOP_STAT 0 8 &&& on)

/-! ## What the frames configure (R279-R284, R288) -/

/-- The source that select field `k` of frame `i` connects: the one bit that is 1; while an upset leaves more than one, the
lowest (R279, R303). None: the wire is undriven. -/
def State.wireSource (s : State) (i k : Nat) : Option Nat := lowestBit (fbits (s.cfgFrame i) (16 * k) 16) 16

/-- The value of that wire, from the values of its candidate sources; undriven, it reads 0 (R279). -/
def State.wire (s : State) (i k : Nat) (source : Nat → Bool) : Bool := (s.wireSource i k).any source

/-- The frame and select field of routing multiplexer `j` of cell `c` (R288). -/
def cellSelect (c j : Nat) : Nat × Nat := (c / 2048 * 384 + c % 2048 / 128 * 24 + 5 + j, c % 128)

/-- Cell control of cell `c` (R288). -/
def State.cellControl (s : State) (c : Nat) : Nat :=
  fbits (s.cfgFrame (c / 2048 * 384 + c % 2048 / 128 * 24 + 4)) (16 * (c % 128)) 16

/-- The scope of tile `t`: its zone, or the static region (8). -/
def tileScope (t : Nat) : Nat := if 16 ≤ t ∧ t < 32 then (t - 16) / 2 else 8

/-- User flip-flop `f` of cell `c` (R278): at its set or reset value while held and until it is clocked (R297; that the
cell-control value is bit 2 or 3 is DEDUCED, log 18); then what the user logic made it. -/
def State.flipFlop (s : State) (c f : Nat) : Bool :=
  let k := tileScope (c / 2048)
  let u := s.shUser k
  if s.shFree k (·.resets) ∧ u.clocked then (Config.freeContent u.seed (2 * c + f)).getLsbD 0
  else (s.cellControl c).testBit (2 + f)

/-- Boundary signal `i` of zone `k` as the static region reads it (R278, R300). -/
def State.boundarySignal (s : State) (k i : Nat) : Bool :=
  if (s.shHold k).outputs then (s.shHold k).park.getLsbD i
  else (Config.freeContent (s.shUser k).seed (2 ^ 18 + i)).getLsbD 0

/-- The width of width code 0 to 6 (R281). -/
def memWidth (code : Nat) : Nat := [1, 2, 4, 9, 18, 36, 72].getD code 0

/-- The depth of width code 0 to 6 (R281). -/
def memDepth (code : Nat) : Nat := [32768, 16384, 8192, 4096, 2048, 1024, 512].getD code 0

/-- The width code of port A (0) or B (1) of block memory `m`. -/
def State.memCode (s : State) (m port : Nat) : Nat := fbits (s.cfgFrame (12288 + 19 * m + 18)) (4 * port) 4

/-- Content bit `b` of block memory `m`: as configured until user logic may have written it (R297). -/
def State.memBit (s : State) (m b : Nat) : Bool :=
  let k := tileScope (m / 8)
  let u := s.shUser k
  if s.shFree k (·.writes) ∧ u.clocked then (Config.freeContent u.seed (2 ^ 19 + 36864 * m + b)).getLsbD 0
  else (s.cfgFrame (12288 + 19 * m + b / 2048)).getLsbD (b % 2048)

/-- Word `a` of port A (0) or B (1) of block memory `m` (R281): content bits a × w to a × w + w − 1. With code 6 port A only
writes and has no word to read. -/
def State.memWord (s : State) (m port a : Nat) : Option Nat :=
  let code := s.memCode m port
  let w := memWidth code
  if memDepth code ≤ a ∨ (code = 6 ∧ port = 0) then none
  else some ((List.range w).foldl (fun v i => v + bitAt (s.memBit m (a * w + i)) i) 0)

/-- The pin fields of target pin `i` (R288). -/
def State.pinField (s : State) (i lsb w : Nat) : Nat :=
  fbits (s.cfgFrame (17152 + 3 * (i / 32) + 1)) (64 * (i % 32) + lsb) w

/-- The owner of target pin `i`: 0-7 a zone, 15 static (R283, R288). -/
def State.pinOwner (s : State) (i : Nat) : Nat := s.pinField i 9 4

/-- Target pin `i` is released: neither all of Shale nor its owner holds it (R297, R300), and its bank's supply is right
(R284, R488). -/
def State.pinReleased (s : State) (i : Nat) : Bool :=
  s.shFree (if s.pinOwner i < 8 then s.pinOwner i else 8) (·.outputs) && s.flag Reg.SH_IO_STAT (8 * (i / 32) + 7)

/-- The state of a target pin. -/
structure PinState where
  test : Bool := false         -- the boundary register drives it, or HIGHZ (R461)
  highZ : Bool                 -- it drives nothing
  pull : Nat                   -- 0 none, 1 down, 2 up, 3 keeper
  input : Bool := false        -- its level reaches Shale; where it does not, Shale reads 0
  output : Bool := false
  openDrain : Bool := false
  drive : Nat := 0             -- mA
  twoBits : Bool := false      -- two bits per clock
  adapt : Bool := false        -- VREF_ADAPT
  deriving DecidableEq, Repr

/-- Target pin `i` (R283, R297, R461). -/
def State.pin (s : State) (i : Nat) : PinState :=
  if s.dbg.ir = 0x03 then { test := true, highZ := true, pull := 0 }
  else if s.dbg.ir = 0x00 ∨ s.dbg.ir = 0x04 then { test := true, highZ := false, pull := 0 }
  else if ¬ s.pinReleased i then { highZ := true, pull := if s.flag Reg.SH_STATUS 27 then 2 else 1 }
  else
    { highZ := decide (s.pinField i 0 2 = 0), pull := s.pinField i 3 2
      input := decide (s.pinField i 0 2 ≠ 1), output := decide (s.pinField i 0 2 ≠ 0)
      openDrain := decide (s.pinField i 2 1 = 1), drive := 2 * (s.pinField i 5 3 + 1)
      twoBits := decide (s.pinField i 8 1 = 1), adapt := decide (s.pinField i 13 1 = 1) }

/-- The source of an output signal of target pin `i`: 0 data, 1 enable, 2 output clock, 3 input clock (R288). -/
def State.pinSource (s : State) (i sig : Nat) : Option Nat :=
  s.wireSource (17152 + 3 * (i / 32) + 2) (4 * (i % 32) + sig)

/-- What Shale reads of target pin `i` at a level (R488). -/
def State.pinInput (s : State) (i : Nat) (level : Bool) : Bool := (s.pin i).input && level

/-! ## The end of a load (R290, R291, R296) -/

/-- The load in progress, or, where `again` says so, the release without loading (R306), which has a place of its own. -/
def Shale.slot (y : Shale) (again : Bool) : Option ShLoad := if again then y.exit else y.load

@[inherit_doc Shale.slot]
def Shale.put (y : Shale) (again : Bool) (x : Option ShLoad) : Shale := if again then { y with exit := x } else { y with load := x }

/-- The frames of a zone whose content becomes undefined, but for those that the load `x` has written (R296). -/
def Shale.keepDone (y : Shale) (x : ShLoad) : Map (BitVec 2048) :=
  x.done.foldl (fun m i => m.insert i (y.frames.get (fun _ => 0) i)) y.frames

/-- The load ends on a failure. A scope that is held stays held and reads FAILED (R296). -/
def State.shFail (s : State) (x : ShLoad) : State :=
  let s := s.modSh fun y => y.put x.again none
  let s := if x.again then s else (s.setFlag Reg.SH_LOAD_STAT 31 false).setFlag Reg.SH_LOAD_STAT 29 true
  let s := if x.phase < 2 then s
    else match x.zone with
      | some k =>
        (s.setZone k 3).modSh fun y => { y with
          frames := y.keepDone x, lost := y.lost.set (fun _ => none) k (some s.freeCount) }
      | none => (List.range 8).foldl (fun (s : State) k => s.setZone k 3) (s.setShState 5)
  { s with freeCount := s.freeCount + 1 }.raise 8 1

/-- The load ends with a CONFIG record. -/
def State.shError (s : State) (x : ShLoad) (code detail : Nat) : State :=
  (s.record cConfig bShale code detail).shFail x

/-! ## Headers and the flash preamble (R289, R290, R292) -/

/-- The first header check that fails, by its number in the detail; reserved bits and bytes have none (log 18). -/
def State.headerCheck (s : State) (l : List Byte) : Option Nat :=
  let f (off n : Nat) : Nat := natOfBytes ((l.drop off).take n)
  let part := if s.fuses.is9416 then 0x9416 else 0x9408
  if f 0 4 ≠ 0x4C414853 then some 0
  else if f 4 2 ≠ 1 then some 1
  else if f 6 2 ≠ part ∧ f 6 2 ≠ 0x9400 then some 2
  else if 1 < f 8 1 ∨ 7 < f 9 1 ∨ (f 8 1 = 0 ∧ f 9 1 ≠ 0) then some 3
  else if f 0xC 4 = 0 ∨ 17173 < f 0xC 4 ∨ f 0x10 4 ≠ 64 + 264 * f 0xC 4 then some 4
  else if f 0x3C 4 ≠ crc32 (l.take 0x3C) then some 5
  else none

/-- Hold all of Shale and clear its configuration (R297). CFG_DONE is held low from here until the frames are written
(R294, R296; DEDUCED, log 18); no bank is released. -/
def State.holdFull (s : State) : State :=
  let s := (s.modHold 8 fun _ => { resets := true, writes := true, outputs := true }).modSh fun y => { y with
    frames := [], guards := [], lost := [], user := [], bad := [], scrubOn := false, cfgReleased := false, exit := none }
  let s := (List.range 4).foldl (fun (s : State) k => s.setFlag Reg.SH_IO_STAT (8 * k + 7) false)
    (s.setFlag Reg.SH_STATUS 28 false)
  ((List.range 8).foldl (fun (s : State) k => (s.setZone k 1).modHold k fun _ => holdAtReset k) (s.setShState 1)).showLoops

/-- Hold zone `k` and clear its frames (R300). -/
def State.holdZone (s : State) (k : Nat) (park : BitVec 256) : State :=
  let s := s.modHold k fun _ => { resets := true, writes := true, outputs := true, park := park }
  let s := s.modSh fun y => { y with
    lost := y.lost.set (fun _ => none) k none
    user := y.user.set (fun _ => {}) k {} }
  (s.clearFrames fun i => decide (frameZone i = some k)).setZone k 1

/-- A header arrives (R290): it is checked, and its scope is held. -/
def State.shHeader (s : State) (x : ShLoad) (l : List Byte) : State :=
  match s.headerCheck l with
  | some k => s.shError { x with phase := 1 } 0x0801 k
  | none =>
    let f (off n : Nat) : Nat := natOfBytes ((l.drop off).take n)
    let full := decide (f 8 1 = 0)
    let st := s.rc.state
    if full ∧ (st = .running ∨ st = .replaying ∨ st = .fatal) then
      (s.modSh fun y => { y with load := none }).setFlag Reg.SH_LOAD_STAT 31 false |>.record cRejected bShale 0x0807 1
    else
      let hseq := f 0x14 2
      let use := (f 0xA 2).testBit 1
      let seq := if use then s.fld Reg.STARTUP_SEQ 0 16 else if seqValid hseq then hseq else 0x1234
      let s := if !use && !seqValid hseq then s.record cInfo bShale 0x0808 hseq else s
      let zone := if full then none else some (f 9 1)
      let s := match zone with
        | none => (s.holdFull).modSh fun y => { y with lastSeq := seq }
        | some k => s.holdZone k (BitVec.ofNat 256 (f 0x18 32))
      let s := s.setFld Reg.SH_LOAD_STAT 16 4 (zone.getD 15)
      s.modSh fun y => { y with load := some { x with
        phase := 2, zone := zone, count := f 0xC 4, next := 0, sync := (f 0xA 2).testBit 0, seq := seq } }

/-- The flash is read under the preamble settings (R292): in mode 2 the command byte is followed by its complement. -/
def State.readFlash (s : State) (addr n : Nat) : State :=
  let x := s.shale.preamble
  let mode := s.fld Reg.SH_FLASH_STAT 24 3
  s.emit [.flashRead mode (s.fld Reg.SH_FLASH_STAT 16 8) (if mode = 2 then [x.cmd, 255 - x.cmd] else [x.cmd]) addr x.dummy n]

/-- The flash preamble arrives (R292): its settings are taken and the header is asked for, or the load ends. -/
def State.shPreamble (s : State) (x : ShLoad) (l : List Byte) : State :=
  let f (off n : Nat) : Nat := natOfBytes ((l.drop off).take n)
  if f 0 4 ≠ 0x50464853 ∨ f 13 3 ≠ crc32 (l.take 13) % 2 ^ 24 ∨ 2 < f 4 1 ∨ l.length < 16 then
    (s.setFlag Reg.SH_FLASH_STAT 31 false).shError x 0x0801 6
  else
    let mhz := min (f 5 1) (if f 4 1 = 2 then 200 else 133)
    let s := s.wr Reg.SH_FLASH_STAT (2 ^ 31 + f 4 1 * 2 ^ 24 + mhz * 2 ^ 16)
    let pre : Preamble := { cmd := f 6 1, dummy := f 7 1, first := f 8 4, chain := f 12 1 }
    let addr := if x.boot then pre.first else x.addr
    (s.modSh fun y => { y with
      load := some { x with phase := 1, addr := addr }
      preamble := pre, chainSent := 0, chainOpen := false }).readFlash addr 64

/-- Bytes of a FLASH load arrive: the preamble, then the header. -/
def State.shFlash (s : State) (l : List Byte) : State :=
  match s.shale.load with
  | none => s
  | some x =>
    if x.phase = 0 then
      let s := s.shPreamble x (l.take 16)
      match s.shale.load with
      | some x => if 80 ≤ l.length then s.shHeader x ((l.drop 16).take 64) else s
      | none => s
    else if x.phase = 1 then s.shHeader x (l.take 64)
    else s

/-! ## The start of a load (R291, R305) -/

/-- LOAD: a load starts from SH_LOAD_CTRL.SRC (R291); a DDR load reads its header at once, a FLASH load asks for the preamble
in single-wire SPI at 25 MHz (R292). -/
def State.shStart (s : State) : State :=
  if s.flag Reg.SH_LOAD_STAT 31 then s.record cRejected bShale 0x0807 0
  else
    let src := s.fld Reg.SH_LOAD_CTRL 29 2
    let a := s.rd64 Reg.SH_LOAD_ADDR_LO
    let x : ShLoad := { src := src, phase := if src = 0 then 0 else 1, addr := if src = 0 then a % 2 ^ 32 else a }
    let s := ((s.setFlag Reg.SH_LOAD_STAT 31 true).setFld Reg.SH_LOAD_STAT 0 16 0).modSh fun y => { y with
      load := some x, chainBuf := [], chainAt := s.now, chainOwn := if src = 2 then false else y.chainOwn }
    if src = 0 then s.emit [.flashRead 0 25 [0x03] 0x1000 0 16]
    else if src ≠ 1 then s
    else match s.ringLoaderRead a 64 with
      | (.error _, s) => s.shError x 0x0806 1
      | (.ok m, s) => s.shHeader x (bytesOfMap m 64)

/-! ## Release (R294, R298, R299, R306) -/

/-- The four steps in the order of SEQ, the first in [15:12]. -/
def seqSteps (q : Nat) : List Nat := [bits q 12 4, bits q 8 4, bits q 4 4, bits q 0 4]

/-- The release of a load may begin: CFG_DONE reads high where SYNC_DONE asks for it (R294). -/
def State.shRelease (s : State) (x : ShLoad) : State :=
  let s := if x.zone.isNone then s.setShState 3 else s
  s.modSh fun y => y.put x.again (some { x with phase := 4, steps := seqSteps x.seq, since := s.now })

/-- The last frame is written (R294): CFG_DONE is let go, and the release waits for it or begins. -/
def State.shFramesDone (s : State) (x : ShLoad) : State :=
  let s := if x.zone.isNone then s.modSh fun y => { y with cfgReleased := true } else s
  if x.sync ∧ ¬ s.flag Reg.SH_STATUS 28 then
    (if x.zone.isNone then s.setShState 2 else s).modSh fun y => { y with load := some { x with phase := 3 } }
  else s.shRelease x

/-- The bank's supply is compared with its VOLT code (R284): `m` is the supply as measured, 3 absent or out of range. -/
def State.releaseBank (s : State) (k m : Nat) : State :=
  let good := decide (m % 4 = fbits (s.cfgFrame (17152 + 3 * k)) 0 2) && decide (m % 4 ≠ 3)
  let s := (s.setFld Reg.SH_IO_STAT (8 * k + 5) 2 (m % 4)).setFlag Reg.SH_IO_STAT (8 * k + 7) good
  if good then s else s.record cConfig bShale 0x080B k

/-- The pin's threshold CODE starts at 32 as OUTPUTS releases it (R447); without VREF_ADAPT it reads 0. -/
def State.releasePin (s : State) (i : Nat) : State :=
  let off := Reg.VREF_STAT i
  let s := (s.setFlag off 30 false).setFlag off 29 false
  s.setFld off 0 6 (if s.pinField i 13 1 = 1 then 32 else 0)

/-- The user logic of a scope has the undefined content of a fresh number (log 7). -/
def State.newContent (s : State) (k : Nat) (clocked : Bool) : State :=
  { s with freeCount := s.freeCount + 1 }.modSh fun y => { y with
    user := y.user.set (fun _ => {}) k { seed := s.freeCount, clocked := clocked } }

/-- OUTPUTS of a full load, or of a zone (R299, R300); the pins of a bank whose supply is wrong stay as they are (R284).
`again`: on the exit from RETAIN a bank that is not released stays so, since only a full load releases it (R488). -/
def State.outputsStep (s : State) (zone : Option Nat) (again : Bool) (supplies : List Nat) : State :=
  let k := zone.getD 8
  let s := if zone.isSome then s
    else ((List.range 4).filter fun b => !again || s.flag Reg.SH_IO_STAT (8 * b + 7)).foldl
      (fun (s : State) b => s.releaseBank b (supplies.getD b 3)) s
  let before := s
  let s := s.modHold k fun h => { h with outputs := false }
  let s := ((List.range 128).filter fun i => s.pinReleased i && !before.pinReleased i).foldl State.releasePin s
  if again then s else s.newContent k false

/-- The release is over (R299, R300). -/
def State.shReleased (s : State) (x : ShLoad) : State :=
  let s := s.modSh fun y => y.put x.again none
  let s := match x.zone with
    | some k => s.setZone k 2
    | none =>
      let s := if x.again then s else (List.range 8).foldl (fun (s : State) k => s.setZone k 2) s
      let s := if s.shale.scrubOn then s else s.modSh fun y => { y with scrubOn := true, scrubPos := 0, passAt := s.now }
      s.setShState 4
  let s := if x.again then s else (s.setFlag Reg.SH_LOAD_STAT 31 false).setFlag Reg.SH_LOAD_STAT 30 true
  s.raise 8 0

/-- Perform the steps of a release until LOCK must wait or the release is over; `supplies` are the bank supplies measured at
OUTPUTS. -/
def State.releaseSteps (again : Bool) : Nat → State → List Nat → State
  | 0, s, _ => s
  | n + 1, s, supplies =>
    match s.shale.slot again with
    | none => s
    | some x =>
      let k := x.zone.getD 8
      let next (s : State) : State :=
        s.modSh fun y => y.put again (some { x with steps := x.steps.drop 1, since := s.now })
      match x.steps with
      | [] => s.shReleased x
      | 1 :: _ =>
        let missing := s.loopsOn &&& (255 - s.fld Reg.SH_LOOP_STAT 0 8)
        if missing = 0 then State.releaseSteps again n (next s) supplies
        else if s.now < x.since + 1000000 then s
        else s.shError x 0x0809 missing
      | 2 :: _ => State.releaseSteps again n (next (s.outputsStep x.zone x.again supplies)) supplies
      | 3 :: _ => State.releaseSteps again n (next (s.modHold k fun h => { h with writes := false })) supplies
      | _ :: _ => State.releaseSteps again n (next (s.modHold k fun h => { h with resets := false })) supplies

/-! ## Frames arrive (R295, R296, R302, R510) -/

/-- One frame record is checked and written; `x` is the load. -/
def State.takeFrame (s : State) (x : ShLoad) (r : FrameRec) : State :=
  match checkFrame x.zone r with
  | some (code, detail) => s.shError x code detail
  | none =>
    let i := (frameIndex r.fa).getD 0
    let x := { x with done := if x.done.contains i then x.done else i :: x.done }
    let s := s.putFrame i r.data
    let s := if 17164 ≤ i then s.showLoops else s
    let s := s.setFld Reg.SH_LOAD_STAT 0 16 (x.next + 1)
    let (bad, s) : Option Nat × State := if s.flag Reg.SH_SCRUB_CFG 30 then
        s.ddrFill .engine (s.fld Reg.SH_GOLD_BASE 0 26 * 4096 + i * 256) 256 (mapOfBytes (bytesOfNat r.data.toNat 256))
      else (none, s)
    if bad.isSome then s.shError x 0x0806 x.src
    else
      let x := { x with next := x.next + 1 }
      if x.next = x.count then s.shFramesDone x else s.modSh fun y => { y with load := some x }

/-- FRAME_RECORD (R295): the next record of a load. A DDR load reads it from DDR; a FLASH load gets `data`, and `again`
where it reads the record once more after a wrong CRC. Bytes of a FLASH load before its header is in are those of the
preamble and the header. -/
def execFrameRecord (data again : List Byte) (s : State) : Host.Outcome State Fault Refusal :=
  match s.shale.load with
  | none => ok s
  | some x =>
    if x.src = 0 ∧ x.phase < 2 then ok (s.shFlash data)
    else if x.phase ≠ 2 then ok s
    else match x.src with
      | 0 =>
        let addr := x.addr + 64 + 264 * x.next
        let s := s.readFlash addr 264
        let r := frameRec data
        if r.good then ok (s.takeFrame x r) else ok ((s.readFlash addr 264).takeFrame x (frameRec again))
      | 1 =>
        match s.ringLoaderRead (x.addr + 64 + 264 * x.next) 264 with
        | (.error _, s) => ok (s.shError x 0x0806 1)
        | (.ok m, s) => ok (s.takeFrame x (frameRec (bytesOfMap m 264)))
      | _ => ok s

/-- CFG_DONE (R294): the level that the pin reads; high only once this device no longer holds it low. -/
def execCfgDone (high : Bool) (s : State) : Host.Outcome State Fault Refusal :=
  if ¬ high then ok (s.setFlag Reg.SH_STATUS 28 false)
  else if ¬ s.shale.cfgReleased then ok s
  else
    let s := s.setFlag Reg.SH_STATUS 28 true
    match s.shale.load with
    | some x => ok (if x.phase = 3 then s.shRelease x else s)
    | none => ok s

/-- RELEASE_SEQUENCE (R299): the release steps run in SEQ order; `supplies` are the bank supplies measured at OUTPUTS
(0 1.2 V, 1 1.5 V, 2 1.8 V, 3 absent or out of range). -/
def execReleaseSequence (supplies : List Nat) (s : State) : Host.Outcome State Fault Refusal :=
  let run (again : Bool) (s : State) : State :=
    if (s.shale.slot again).any (fun x => decide (x.phase = 4)) then State.releaseSteps again 5 s supplies else s
  ok (run false (run true s))

/-- SH_SOURCE_ERROR (R291, R293): the source of the load fails, or a CHAIN stream has stopped for 1 ms. -/
def execShSourceError (s : State) : Host.Outcome State Fault Refusal :=
  match s.shale.load with
  | some x =>
    if 2 < x.phase ∨ (x.src = 2 ∧ s.now < s.shale.chainAt + 1000000) then ok s else ok (s.shError x 0x0806 x.src)
  | none => ok s

/-! ## The configuration chain (R293) -/

/-- Bytes of the bitstream that this device loads from CFG_DIN. -/
def State.chainTake (s : State) (b : Byte) : State :=
  let buf := s.shale.chainBuf ++ [b]
  let s := s.modSh fun y => { y with chainBuf := buf }
  match s.shale.load with
  | some x =>
    if x.src ≠ 2 then s
    else if x.phase = 1 ∧ buf.length = 64 then (s.modSh fun y => { y with chainBuf := [] }).shHeader x buf
    else if x.phase = 2 ∧ buf.length = 264 then (s.modSh fun y => { y with chainBuf := [] }).takeFrame x (frameRec buf)
    else s
  | none => s

/-- The device with CHAIN_FIRST reads its flash on behind its own bitstream, and sends what it reads on CFG_DOUT: the
CHAIN_COUNT − 1 bitstreams after the first, once it has read a valid preamble (R293). -/
def State.chainFeed (s : State) (c : ChainSym) : State :=
  let x := s.shale
  if ¬ s.flag Reg.SH_FLASH_STAT 31 then s
  else match c with
    | .first =>
      if x.chainOpen ∨ x.preamble.chain ≤ x.chainSent + 1 then s
      else (s.emit [.chain c]).modSh fun y => { y with chainOpen := true, chainSent := x.chainSent + 1 }
    | .last => if x.chainOpen then (s.emit [.chain c]).modSh fun y => { y with chainOpen := false } else s
    | .byte _ => if x.chainOpen then s.emit [.chain c] else s

/-- CHAIN_BYTE (R293): a symbol on CFG_DIN, or, on the device with CHAIN_FIRST in FLASH mode (R456), of the flash behind its own
bitstream.
The first bitstream, from K27.7 to K29.7, is the device's own; the rest passes on CFG_DOUT, whatever becomes of the load
(that each bitstream stands between the two symbols is DEDUCED, log 18). -/
def execChainByte (c : ChainSym) (s : State) : Host.Outcome State Fault Refusal :=
  if s.fuses.straps.chainFirst ∧ s.fuses.straps.bootMode = 0 then ok (s.chainFeed c)
  else if s.shale.chainOwn then ok (s.emit [.chain c])
  else
    let s := s.modSh fun y => { y with chainAt := s.now }
    match c with
    | .first => ok (s.modSh fun y => { y with chainBuf := [] })
    | .last => ok (s.modSh fun y => { y with chainOwn := true })
    | .byte b => ok (s.chainTake b)

/-! ## Scrubber (R301-R304) -/

/-- The place of a frame among the 12,565 frames of a pass. -/
def scrubRank (i : Nat) : Nat :=
  if i < 12288 then i else if i < 17152 then 12288 + (i - 12288) / 19 else 12544 + (i - 17152)

/-- The scrubber reads frame `i` now: not block-memory content, nor a frame of a zone that is loading (R301, R305). -/
def State.scrubs (s : State) (i : Nat) : Bool :=
  !contentFrame i && (match frameZone i with | some k => decide (s.zoneStat k ≠ 1) | none => true)

/-- The first frame from `i` on that the scrubber reads, 17,173 where the pass is over. -/
def State.nextScrub (s : State) (i : Nat) : Nat :=
  (((List.range 17173).drop i).find? s.scrubs).getD 17173

/-- A frame is found with an error other than a single bit (R302, R510). -/
def State.scrubOther (s : State) (i : Nat) (found : BitVec 2048) : State :=
  let left (s : State) : State :=
    let s := s.modSh fun y => { y with frames := y.laid i found }   -- its check bits stay as loaded
    if s.shale.bad.contains i then s
    else
      let s := s.modSh fun y => { y with bad := i :: y.bad }
      ((s.record cConfig bShale 0x080E (frameAddr i)).count Reg.SH_SCRUB_CNT 8 8 1).raise 8 3
  if ¬ s.flag Reg.SH_SCRUB_CFG 30 then left s
  else match s.ringLoaderRead (s.fld Reg.SH_GOLD_BASE 0 26 * 4096 + i * 256) 256 with
    | (.error _, s) => left s
    | (.ok m, s) =>
      let s := s.putFrame i (BitVec.ofNat 2048 (natOfBytes (bytesOfMap m 256)))
      ((s.record cCorrected bShale 0x080D (frameAddr i)).count Reg.SH_SCRUB_CNT 16 8 1).raise 8 2

/-- SCRUB_FRAME (R301, R302, R304): the next frame of the pass is read; `err` is the error found (`some none` a single
bit; `some (some d)` another, the frame reading `d`), `self` a vote or parity error of the scrubber itself (false its
state, true its settings). -/
def execScrubFrame (err : Option (Option (BitVec 2048))) (self : Option Bool) (s : State) :
    Host.Outcome State Fault Refusal :=
  let pass := s.fld Reg.SH_SCRUB_CFG 0 10 * 1000000
  let i := s.nextScrub s.shale.scrubPos
  let rank := if i = 17173 then 12565 else scrubRank i
  if ¬ s.flag Reg.SH_SCRUB_CFG 31 ∨ ¬ s.shale.scrubOn ∨ s.now * 12565 < s.shale.passAt * 12565 + rank * pass then ok s
  else
    let wrap := decide (i = 17173)
    let s := if wrap then
        let s := (s.setFld Reg.SH_SCRUB_STAT 16 16 (s.fld Reg.SH_SCRUB_STAT 16 16 + 1)).setFld Reg.SH_SCRUB_STAT 0 16
          (min 0xFFFF ((s.now - s.shale.passAt) / 100000))
        s.modSh fun y => { y with passAt := s.now }
      else s
    let i := if wrap then s.nextScrub 0 else i
    let s := s.modSh fun y => { y with scrubPos := i + 1 }
    let s := match self with
      | some settings => (s.record cCorrected bShale 0x080F (if settings then 1 else 0)).count Reg.SH_SCRUB_CNT 0 8 1
      | none => s
    match err with
    | some none => ok (((s.record cCorrected bShale 0x080C (frameAddr i)).count Reg.SH_SCRUB_CNT 24 8 1).raise 8 2)
    | some (some d) =>
      let crc := (s.shale.guards.get (fun _ => guardOf 0) i).crc
      ok (if crc32 (bytesOfNat d.toNat 256) = crc then s else s.scrubOther i d)
    | none => ok (if s.shale.bad.contains i then s.scrubOther i (s.cfgFrame i) else s)

/-! ## Clock loops and supplies (R282, R488) -/

/-- The frequency of loop `j`'s output in Hz over its denominator (R282). `pinHz` is the frequency at the target pin where its
reference chain ends at one; the recovered clock of an edge lane is the interface clock of R285. None: a lower loop that it
takes is off. -/
def State.loopHz (pinHz : Nat) : Nat → State → Nat → Option (Nat × Nat)
  | 0, _, _ => none
  | n + 1, s, j =>
    let d := s.cfgFrame (17164 + j)
    let ref : Option (Nat × Nat) := match fbits d 0 4 with
      | 0 => some (100000000, 1)
      | 1 => some (pinHz, 1)
      | 2 => some (10 ^ 15, 8 * symbolFs (s.portRate (6 + fbits d 12 4 / 8)))
      | _ => if s.loopOn (fbits d 16 3) then State.loopHz pinHz n s (fbits d 16 3) else none
    ref.map fun r => (r.1 * fbits d 20 8, r.2 * (fbits d 28 4 * fbits d 32 8))

/-- The loop lies within the limits of R282. -/
def State.loopLegal (s : State) (pinHz j : Nat) : Bool :=
  match State.loopHz pinHz 8 s j with
  | none => false
  | some (num, den) =>
    let o := fbits (s.cfgFrame (17164 + j)) 32 8
    decide (5000000 * den ≤ num) && decide (num ≤ 800000000 * den) &&
      decide (800000000 * den ≤ num * o) && decide (num * o ≤ 1600000000 * den)

/-- LOOP_LOCK (R282): an enabled loop within its limits locks; in RETAIN the loops stand still (R306). -/
def execLoopLock (j pinHz : Nat) (s : State) : Host.Outcome State Fault Refusal :=
  if 8 ≤ j ∨ ¬ s.loopOn j ∨ ¬ s.loopLegal pinHz j ∨ 2 ≤ (s.dom 106).level then ok s else ok (s.setFlag Reg.SH_LOOP_STAT j true)

/-- SH_LOOP_LOST (R282): a locked loop loses lock. -/
def execShLoopLost (j : Nat) (s : State) : Host.Outcome State Fault Refusal :=
  if 8 ≤ j ∨ ¬ s.flag Reg.SH_LOOP_STAT j then ok s
  else
    let s := (s.setFlag Reg.SH_LOOP_STAT j false).setFlag Reg.SH_LOOP_STAT (8 + j) true
    ok ((s.record cInfo bShale 0x080A j).raise 8 4)

/-- VDDIO_EXCURSION (R488): the supply of a released bank leaves its range; the bank stays so until the next full load. -/
def execVddioExcursion (bank : Nat) (s : State) : Host.Outcome State Fault Refusal :=
  if 4 ≤ bank ∨ ¬ s.flag Reg.SH_IO_STAT (8 * bank + 7) then ok s
  else ok (((s.setFlag Reg.SH_IO_STAT (8 * bank + 7) false).setFld Reg.SH_IO_STAT (8 * bank + 5) 2 3).record cConfig bShale
    0x080B bank)

/-! ## Time passes (R285, R293) -/

/-- 10 ns pass in Shale: what user logic that is released holds changes, and CFG_DOUT carries its idle, at 50 ns a symbol. -/
def State.shaleTick (s : State) : State :=
  let s := s.passEdges.modLine chainLine fun x => x.passFs [0] [] 50000000 10
  if (s.dom 106).level < 2 then
    (List.range 9).foldl (fun (s : State) k =>
      if s.shFree k (·.resets) && (decide (k = 8) || decide (s.zoneStat k = 2)) then s.newContent k true else s) s
  else s

/-! ## The register window (R287) -/

/-- The window offset of an access lies in the register window. -/
def inWindow (off : Nat) : Bool := decide (0x81_0000 ≤ off) && decide (off < 0x82_0000)

/-- Shale can be reached: it is CONFIGURED and the interface frame selects a window clock, whose loop runs. -/
def State.windowOpen (s : State) : Bool :=
  decide (s.shState = 4) && !(s.shHold 8).outputs && (lowestBit (fbits (s.cfgFrame 17172) 128 8) 8).isSome

/-- SH_WIN_NO_RESPONSE (R287): the access reads 0 or is ignored. -/
def State.windowSilent (s : State) (off : Nat) : State :=
  (s.record cRejected bShale 0x0811 (off % 2 ^ 16)).raise 8 5

/-- Where Shale can be reached, an access appears to it, as RW_RE or RW_WE with RW_WDATA, whatever it answers. -/
def State.showWindow (s : State) (off : Nat) (write : Option Nat) : State :=
  if s.windowOpen then s.emit [.shWindow (off % 2 ^ 16) write] else s

/-- An access of the register window: `ack` is what Shale answers, none where it gives no RW_ACK within 1 µs. -/
def State.windowAccess (s : State) (a : RegAcc) (write : Option Nat) (ack : Option Nat) : State :=
  s.byWidth a write
    (fun s off k => match s.windowOpen, ack with
      | true, some v => (bits v (32 * k) 32, s.showWindow off none)
      | _, _ => (0, (s.showWindow off none).windowSilent off))
    (fun s off _ v => match s.windowOpen, ack with
      | true, some _ => s.showWindow off (some v)
      | _, _ => (s.showWindow off (some v)).windowSilent off)

/-! ## Registers (R307) -/

/-- A write of a SHALECFG register. -/
def State.writeShale (s : State) (init : Initiator) (off v : Nat) : State :=
  let locked := s.flag Reg.SH_LOAD_STAT 31 && (decide (off = Reg.SH_LOAD_ADDR_LO) || decide (off = Reg.SH_LOAD_ADDR_HI) ||
    decide (off = Reg.SH_SCRUB_CFG) || decide (off = Reg.SH_GOLD_BASE) || decide (off = Reg.STARTUP_SEQ))
  let (done, s1) := s.csrWrite init off v (fun _ => locked) false 0x0810
  if !done then s1
  else if off = Reg.SH_LOAD_CTRL then
    let s1 := s1.setFlag off 31 false
    if v.testBit 31 then s1.shStart else s1
  else if off = Reg.SH_SCRUB_CFG ∧ v.testBit 31 ∧ ¬ s.flag off 31 then
    s1.modSh fun y => { y with
      passAt := s1.now - scrubRank s.shale.scrubPos * (s1.fld off 0 10 * 1000000) / 12565 }
  else State.irqEdges s s1 [8]

end Sys2Proof.Machine
end

