-- ==== Sys2Proof/Machine/DesignMemory.lean ====
section
/-!
DEFINITION. Loads of IMEM, initial state and DMB (R65, R154), the background pass (R63), the stall watchdog (R41),
XQ responses (R157, R160), the tail and the trim of the redo journal (R166), and writes of the FABRIC and DMEMQ
registers (R67, R169).
-/

namespace Sys2Proof.Machine

/-! ## XQ responses, the watchdog and the background pass -/

/-- The tag of cluster `c` whose latest request is number `serial` and awaits its response. -/
def State.xqTagOf (s : State) (c serial : Nat) : Option (Nat × XqTag) :=
  (s.cl c).tags.findSome? (fun e => match e.2 with
    | some t => if t.serial = serial ∧ !t.arrived then some (e.1, t) else none
    | none => none)

/-- XQ_RESPONSE (R157, R160): the response of request `serial` arrives. It belongs to the tag only while the tag is
outstanding and refers to that request (R85, R105); else it is discarded, also where the transfer has failed: a request that a later
one has superseded writes no record and casts no abort then, for nothing of its cycle depends on it (R160 does not speak of it:
DESIGN CHOICE, log 111). `failed`: the transfer failed twice. -/
def execXqResponse (c serial : Nat) (failed : Bool) (s : State) : Host.Outcome State Fault Refusal :=
  match s.xqTagOf c serial with
  | none => ok s
  | some (tag, t) =>
    if s.rc.state = .fatal then ok s
    else if failed then
      ok ((s.recordAt cCorrected bDmemq 0x0305 (c <<< 26 + tag) s.rc.ecn).replayFault s.rc.ecn 0x0305)
    else
      let lat := min 65535 ((s.now - t.issuedAt) / 10)
      let s := s.modCl c fun cl => { cl with tags := cl.tags.set (fun _ => none) tag (some { t with arrived := true }) }
      ok (if s.fld (Reg.XQ_STAT c) 16 16 < lat then s.setFld (Reg.XQ_STAT c) 16 16 lat else s)

/-- FAB_STALL_WATCHDOG (R41). -/
def execFabStallWatchdog (c : Nat) (s : State) : Host.Outcome State Fault Refusal :=
  let limit := s.fld Reg.FAB_WD 0 16
  match (s.cl c).stall with
  | none => ok s
  | some st =>
    if st.wdDone ∨ limit = 0 ∨ s.now ≤ st.began + limit * 1000 then ok s
    else
      let s := s.modCl c fun cl => { cl with stall := some { st with wdDone := true } }
      ok ((s.record cInfo bFabric 0x0184 (c <<< 26 + (st.cause.k + 1) <<< 23 + st.index)).raise 0 2)

/-- The state banks in use (R63): the current bank, the next bank while a cycle runs, the banks of the unsealed
cycles' start states, and the bank reserved for a snapshot. -/
def State.bankInUse (s : State) (k : Nat) : Bool :=
  decide (k = s.rc.curBank) || (s.rc.begun && decide (k = (s.rc.curBank + 1) % s.nBanks)) ||
    s.rc.unsealed.any (fun r => r.bank = k) || s.rc.snap.any (fun j => j.bankHeld && decide (j.bank = k))

/-- Where the background pass reads next, from location `p` on: locations 0-524287 are the IMEM words in the order of
R64; 524288 + bank * 1024 + word * 256 + BP are the state words (R63). None where every location is in use. -/
def State.passLocation (s : State) (p : Nat) : Option Nat :=
  let free := (List.range s.nBanks).filter (fun k => !s.bankInUse k)
  let first := s.cycleLen * 256
  let state (q : Nat) : Option Nat :=
    free.findSome? (fun k =>
      if q < (k + 1) * 1024 then some (524288 + max q (k * 1024)) else none)
  if p < 524288 ∧ first < 524288 then some (max p first)
  else match state (p - 524288) with
    | some x => some x
    | none => if first < 524288 then some first else state 0

/-- BACKGROUND_PASS_READ (R61-R63): one location is read; a single-bit error in it is corrected in place, a double-bit
error is FATAL. The word index of a state word counts the four words of each bank, bank by bank (DEDUCED, log 19). -/
def execBackgroundPassRead (c : Nat) (err : Option Bool) (s : State) : Host.Outcome State Fault Refusal :=
  if ¬ (c < s.nClusters) ∨ !s.flag Reg.FAB_SCRUB 0 ∨ (s.cl c).opened ∨ 2 ≤ (s.dom c).level then ok s
  else
    match s.passLocation (s.scrubPos.get (fun _ => 0) c) with
    | none => ok s
    | some x =>
      let s := { s with scrubPos := s.scrubPos.set (fun _ => 0) c (x + 1) }
      let e (double : Bool) : EccErr :=
        if x < 524288 then ⟨.imem, c, x % 256, x / 256, double⟩
        else ⟨.state, c, x % 256, (x - 524288) / 256, double⟩
      match err with
      | none => ok s
      | some double => ok (s.idleUpset (e double))

/-! ## Loads (R65, R154) -/

/-- The fields of a FABRIC register that may not be written now (R65, R67, R468). -/
def State.fabFixed (s : State) (off : Nat) (f : FieldSpec) : Bool :=
  let c := (off - 0x20_0000) / 0x4000
  let rel := (off - 0x20_0000) % 0x4000
  if off = Reg.FAB_CFG then !s.preRun || s.rc.variant
  else if rel = 0x08 ∨ (0x10 ≤ rel ∧ rel ≤ 0x1C) then !s.preRun
  else if rel = 0x20 ∧ f.lsb = 31 then
    !(decide (s.rc.state = .idle) || decide (s.rc.state = .loading)) || s.rc.loadBusy.contains c
  else false

/-- The offset lies in the window of a cluster that the grade lacks (R2): it reads 0 and ignores writes. -/
def State.absentWindow (s : State) (off : Nat) : Bool :=
  decide (0x20_0000 + s.nClusters * 0x4000 ≤ off ∧ off < 0x30_0000) ||
    decide (0x40_0000 + s.nClusters * 0x1000 ≤ off ∧ off < 0x44_0000)

/-- A write of a FABRIC register. -/
def State.writeFabric (s : State) (init : Initiator) (off v : Nat) : State :=
  if s.absentWindow off then s
  else
    let c := (off - 0x20_0000) / 0x4000
    let (done, s1) := s.csrWrite init off v (s.fabFixed off) false 0x0185
    if !done then s1
    else if off = Reg.IMEM_CTRL c then
      let s1 := s1.setFlag off 31 false
      if v.testBit 31 then
        let busy := (s1.setFlag off 30 true).wakeFabric.wakeCluster c
        busy.modRc fun r => { r with
          loadBusy := c :: r.loadBusy
          loadInit := if v.testBit 0 && !r.variant then c :: r.loadInit else r.loadInit }
      else s1
    else State.irqEdges s s1 [0]

/-- IMEM_LOAD_DONE (R65): the images are taken in, or an error response stops the load. -/
def execImemLoadDone (c : Nat) (s : State) : Host.Outcome State Fault Refusal :=
  if !s.rc.loadBusy.contains c then ok s
  else
    let withInit := s.rc.loadInit.contains c
    let s := s.modRc fun r => { r with
      loadBusy := r.loadBusy.filter (· ≠ c)
      loadInit := r.loadInit.filter (· ≠ c) }
    ok ((s.setFlag (Reg.IMEM_CTRL c) 30 false).imemLoad c withInit)

/-- The fields of a DMEMQ register that may not be written now (R154, R166, R169, R468). -/
def State.dmFixed (s : State) (off : Nat) (f : FieldSpec) : Bool :=
  let c := (off - 0x40_0000) / 0x1000
  let rel := off % 0x1000
  let trim := s.rc.trim.isSome
  if 0x44_0000 ≤ off then
    if off = Reg.JRNL_BASE then decide (s.rc.state ≠ .idle)
    else if off = Reg.JRNL_CFG then !s.preRun || (decide (f.lsb = 30) && trim)
    else if off = Reg.JRNL_TRIM_LO ∨ off = Reg.JRNL_TRIM_HI then trim
    else false
  else if rel = 0x004 then
    decide (f.lsb = 31) && (!(decide (s.rc.state = .idle) || decide (s.rc.state = .loading)) || s.rc.variant ||
      s.rc.dmBusy.contains c)
  else if rel = 0x000 ∨ rel = 0x008 ∨ 0x100 ≤ rel then !s.preRun
  else false

/-- A write of a DMEMQ register. -/
def State.writeDmemq (s : State) (init : Initiator) (off v : Nat) : State :=
  if s.absentWindow off then s
  else
    let c := (off - 0x40_0000) / 0x1000
    let (done, s1) := s.csrWrite init off v (s.dmFixed off) false 0x0307
    if !done then s1
    else if off = Reg.JRNL_CFG then
      let s1 := s1.setFlag off 30 false
      if v.testBit 30 then s1.wr64 Reg.JRNL_TAIL_LO (s1.rd64 Reg.JRNL_HEAD_LO) else s1
    else if off = Reg.JRNL_TRIM_HI then
      let t := s1.rd64 Reg.JRNL_TRIM_LO
      (s1.setFlag Reg.JRNL_STAT 31 true).modRc fun r => { r with trim := some t }
    else if off < 0x44_0000 ∧ off % 0x1000 = 0x004 then
      let s1 := s1.setFlag off 31 false
      if v.testBit 31 then
        let busy := s1.setFlag off 30 true
        busy.modRc fun r => { r with
          dmBusy := c :: r.dmBusy
          lastZero := r.lastZero.set (fun _ => false) c (v.testBit 0) }
      else s1
    else State.irqEdges s s1 [4]

/-- DM_LOAD_DONE (R154): the DMB is filled, or an error response stops the load. -/
def execDmLoadDone (c : Nat) (s : State) : Host.Outcome State Fault Refusal :=
  if !s.rc.dmBusy.contains c then ok s
  else
    let s := (s.modRc fun r => { r with dmBusy := r.dmBusy.filter (· ≠ c) }).setFlag (Reg.DM_CTRL c) 30 false
    ok (s.dmbLoad c (s.rc.lastZero.get (fun _ => false) c))

/-! ## The journal (R166) -/

/-- Take entries from the tail into the base images while their ECN is below `t` (R166), at most `k` of them; TAIL_ECN
advances to the cycle after the entry taken (DEDUCED, log 25); some code
where the trim stops on a wrong CRC (0x030A) or a refused access (0x0306), with the detail of its record. -/
def State.trimEntries : Nat → State → Nat → Option (Nat × Nat) × State
  | 0, s, _ => (none, s)
  | k + 1, s, t =>
    let p := s.rd64 Reg.JRNL_TAIL_LO
    if s.rd64 Reg.JRNL_HEAD_LO ≤ p then (none, s)
    else
      let (bad, v, s) := s.ddrRead .fabric (s.journalAddr p) 32
      if bad then (some (0x0306, 0), s)
      else if v / 2 ^ 224 ≠ crc32 (bytesOfNat (v % 2 ^ 224) 28) then (some (0x030A, p / 32), s)
      else
        let n := v % 2 ^ 64
        if t ≤ n then (none, s)
        else
          let c := v / 2 ^ 96 % 64; let r := v / 2 ^ 104 % 16
          let addr := s.fld (Reg.XQ_REGION_IMG c r) 0 26 * 4096 + v / 2 ^ 64 % 2 ^ 32 * 8
          let (bad, s) := s.ddrWriteBe .fabric addr (v / 2 ^ 112 % 256) (BitVec.ofNat 64 (v / 2 ^ 128))
          if bad then (some (0x0306, c <<< 26 + r <<< 22), s)
          else State.trimEntries k ((s.wr64 Reg.JRNL_TAIL_LO (p + 32)).wr64 Reg.JRNL_TAIL_ECN_LO (n + 1)) t

/-- TRIM_DONE (R166): the trim runs to ECN t or to HEAD, and TRIM_BUSY clears. A trim in progress waits while
every cluster is in RETAIN or OFF (R168). A wrong CRC-32 or a refused access stops it and halts the system (R170, R510). -/
def execTrimDone (s : State) : Host.Outcome State Fault Refusal :=
  match s.rc.trim with
  | none => ok s
  | some t =>
    if s.clusterIds.all (fun c => 2 ≤ (s.dom c).level) then ok s
    else
    let s := (s.modRc fun r => { r with trim := none }).setFlag Reg.JRNL_STAT 31 false
    match s.trimEntries ((s.rd64 Reg.JRNL_HEAD_LO - s.rd64 Reg.JRNL_TAIL_LO) / 32 + 1) t with
    | (none, s) => ok (s.raise 4 4)
    | (some (code, d), s) => ok (s.fatal bDmemq code d)

end Sys2Proof.Machine
end

