-- ==== Sys2Proof/Machine/Power.lean ====
section
/-!
DEFINITION. Power states, latency tolerance and the adaptive loops (chapter 18): what each domain is doing and may
enter, its entry and its exit, the regulator link, the power cap and the thermal loop, pin thresholds and DDR retraining.
-/

namespace Sys2Proof.Machine

/-- Change power. -/
def State.modPow (s : State) (f : Power → Power) : State := { s with power := f s.power }

/-! ## What a domain is doing (R436) -/

/-- The groups of R436. -/
def domGroup (d : Nat) : Nat :=
  if d ≤ 64 then 0 else if d ≤ 73 then 1 else if d ≤ 81 then 2 else if d ≤ 97 then 3 else if d ≤ 106 then 4
  else if d ≤ 108 then 5 else if d = 109 then 6 else 7

/-- A cluster is in a cycle (R66: below HOLD only between cycles). -/
def State.inCycle (s : State) (c : Nat) : Bool := s.rc.begun && s.enabled c

/-- Shale is CONFIGURED and its PARK is 0, or a load or release runs (R306). -/
def State.shaleBusy (s : State) : Bool :=
  s.shale.load.isSome || s.shale.exit.isSome || (decide (s.shState = 4) && !s.flag Reg.SH_LOAD_CTRL 0)

/-- A Lynx bridge is enabled in a direction, or holds egress words (R275). -/
def State.lynxBusy (s : State) (b : Nat) : Bool :=
  s.flag (Reg.LX_IN_CFG b) 31 || s.flag (Reg.LX_EG_CFG b) 31 || !(s.egWaiting b).isEmpty || (s.egCurrent b).isSome

/-- Acquisition has work (R331). -/
def State.acqBusy (s : State) : Bool :=
  (decide (1 ≤ s.cap) && decide (s.cap ≤ 3)) || (List.range 4).any (fun m => s.flag (Reg.MEAS_CFG m) 31) ||
    s.flag Reg.DSP_CTRL 30 || decide (s.heldRecs ≠ 0)

/-- DMA channel `k` has descriptors to take (R236). -/
def State.dmaBusy (s : State) (k : Nat) : Bool :=
  let size := 2 ^ s.fld (Reg.DMA_CFG k) 0 4
  s.flag (Reg.DMA_CFG k) 31 && decide (s.fld (Reg.DMA_HEAD k) 0 12 % size ≠ s.fld (Reg.DMA_TAIL k) 0 12 % size)

/-- Domain `d` has work (R437). SYSNET is in RUN until every SYSTEM and FORERUNNER port is in RETAIN or OFF (R229). -/
def State.hasWork (s : State) (d : Nat) : Bool :=
  if d < 64 then s.inCycle d || s.rc.loadBusy.contains d || s.rc.dmBusy.contains d
  else if d = 64 then !s.rc.unsealed.isEmpty || s.rc.snap.isSome || !s.rc.pendingStore.isEmpty
  else if d ≤ 72 then
    let l := s.link (d - 65)
    s.training (d - 65) || !l.framer.isEmpty || !l.replay.isEmpty || !l.rx.isEmpty
  else if d = 73 then (List.range 8).any (fun p =>
    (decide (s.role p = 0) || decide (s.role p = 2)) &&
      (s.isUp p || s.training p || decide ((s.dom (65 + p)).level < 2)))
  else if d ≤ 81 then decide ((s.core (d - 74)).state = 1) || decide ((s.core (d - 74)).state = 4)
  else if d ≤ 97 then (s.spad.handover.get (fun _ => none) (d - 82)).isSome
  else if d ≤ 105 then s.lynxBusy (d - 98)
  else match d with
    | 106 => s.shaleBusy
    | 107 => s.acqBusy
    | 108 => (decide (1 ≤ s.spState) && decide (s.spState ≤ 3)) || !s.spoor.queue.isEmpty
    | 109 => (s.host.up && !(s.host.d3hot && decide (s.rc.state = .idle))) || (List.range 8).any s.dmaBusy
    | 110 => (List.range 16).any (fun r => decide (s.regionState r = 1) || decide (s.regionState r = 2))
    | _ => false

/-! ## What a domain may enter (R436-R438) -/

/-- The chapter's condition for RETAIN (R66, R144, R192, R229, R375, R394, R275, R306, R331, R433, R254, R414). -/
def State.retainOk (s : State) (d : Nat) : Bool :=
  if s.hasWork d then false
  else if d < 64 then true
  else if d = 64 then !s.live
  else if d ≤ 72 then decide (s.rc.state = .idle)
  else if d ≤ 73 then true
  else if d ≤ 81 then decide ((s.core (d - 74)).state = 2) || decide ((s.core (d - 74)).state = 3)
  else if d ≤ 97 then decide (s.fld (Reg.SPAD_OWNER (d - 82)) 0 4 = 15)
  else true

/-- The chapter's condition for OFF. A disabled cluster that is OFF may stay so in every state (R66). -/
def State.offOk (s : State) (d : Nat) : Bool :=
  let idle := decide (s.rc.state = .idle)
  if s.hasWork d then false
  else if d < 64 then
    idle || decide (s.rc.state = .loaded) || (!s.enabled d && decide ((s.dom d).level = 3))
  else if d = 64 then idle || decide (s.rc.state = .loaded)
  else if d ≤ 72 then idle
  else if d ≤ 73 then s.retainOk d
  else if d ≤ 81 then decide (d ≠ 74) && decide ((s.core (d - 74)).state = 0)
  else if d ≤ 97 then s.retainOk d
  else if d ≤ 105 then idle
  else match d with
    | 106 => true
    | 107 | 108 => idle
    | 109 => idle && s.host.d3hot
    | _ => false

/-- Every byte of a range lies in a PLAIN or CONF region. -/
def State.plainRange (s : State) (addr n : Nat) : Bool :=
  (s.judgeParts .engine addr n).all (fun p => (s.regionOf p.1).any (fun r => decide (s.regionMode r ≠ 2)))

/-- The exit latency of OFF in µs (R438). -/
def State.offLatency (s : State) (d : Nat) : Nat :=
  if 64 < d then 2000
  else if s.cycleLen ≤ 1024 ∧ s.clusterIds.all (fun c => s.plainRange (s.baseOf (Reg.IMEM_BASE_LO c)) (s.cycleLen * 3072))
  then 2000 else 4000

/-- The deepest state that R437 permits now, idle times apart: POW_DOM_STAT.CAP. In FATAL none below HOLD (R440). -/
def State.domCap (s : State) (d : Nat) : Nat :=
  let ltr := s.fld (Reg.POW_LTR (domGroup d)) 0 20
  if !s.domPresent d then 3
  else if s.rc.state = .fatal then 1
  else if s.offLatency d ≤ ltr ∧ s.offOk d then 3
  else if 25 ≤ ltr ∧ s.retainOk d then 2
  else 1

/-- The state of a domain: 0 RUN, 1 HOLD, 2 RETAIN, 3 OFF. A domain without work is in RUN until time moves on from its last work,
its wake or its reset (R437, R440). -/
def State.domState (s : State) (d : Nat) : Nat :=
  let own (d : Nat) : Nat :=
    if 2 ≤ (s.dom d).level then (s.dom d).level else if s.hasWork d ∨ s.now ≤ (s.dom d).idle then 0 else 1
  if !s.domPresent d then 3
  else if 65 ≤ d ∧ d ≤ 72 ∧ s.role (d - 65) = 3 then 3
  else if 65 ≤ d ∧ d ≤ 72 ∧ s.role (d - 65) = 1 then own 106
  else own d

/-- What POW_DOM_STAT[d] shows, but for WAKES. -/
def State.domStat (s : State) (d : Nat) : Nat :=
  s.domState d * 2 ^ 30 + s.domCap d * 2 ^ 28 + (if (s.dom d).goal.isSome then 2 ^ 27 else 0)

/-! ## Entry and exit (R437-R440) -/

/-- The registers of `[lo, hi)` take their reset values. -/
def State.resetRange (s : State) (lo hi : Nat) : State :=
  { s with csr := s.csr.without lo hi, latchHi := s.latchHi.without lo hi }

/-- The registers of the blocks `lo` to `hi` take their reset values. -/
def State.resetBlocks (s : State) (lo hi : Nat) : State := s.resetRange (lo * 0x10_0000) ((hi + 1) * 0x10_0000)

/-- The rings of the message ports that lie in scratchpads are cleared (R254). -/
def State.clearSpadRings (s : State) : State :=
  let clear (s : State) (base cfg : Nat) : State :=
    let a := s.rd64 base % 2 ^ 40
    let off := a - 0x40_1000_0000
    if 0x40_1000_0000 ≤ a ∧ off < 2 ^ 22 then
      s.modSpad fun x => { x with mem := x.mem.without off (off + 8 * 2 ^ s.fld cfg 0 5) }
    else s
  (List.range 16).foldl (fun (s : State) h =>
    clear (clear s (Reg.MP_IN_BASE_LO h) (Reg.MP_IN_CFG h)) (Reg.MP_OUT_BASE_LO h) (Reg.MP_OUT_CFG h)) s

/-- The ports in the SHALE role. -/
def State.shalePorts (s : State) : List Nat := (List.range 8).filter (fun p => s.role p = 1)

/-- OFF for a Lynx bridge (R275, R438): its buffers are cleared, its positions read 0, its registers hold their reset values. -/
def State.lynxOff (s : State) (b : Nat) : State :=
  ((s.lxZero b).resetRange (0x70_0000 + b * 0x400) (0x70_0400 + b * 0x400)).modLx fun l => { l with
    waiting := l.waiting.set (fun _ => []) b []
    current := l.current.set (fun _ => none) b none
    egPos := l.egPos.set (fun _ => 0) b 0
    last0 := l.last0.set (fun _ => 0) b 0
    last1 := l.last1.set (fun _ => 0) b 0 }

/-- OFF for SYSNET (R229, R438): maps, buffers, GEN, the tree state and the registers are lost; whether a peer is down, too. -/
def State.sysnetOff (s : State) : State := ({ s with held := [], links := [], net := {} } : State).resetBlocks 6 6

/-- OFF for Shale (R306, R438): the configuration and the registers are lost; every zone is EMPTY, STATE reads UNCONFIGURED. -/
def State.shaleOff (s : State) : State := (s.holdFull.modSh fun y => { y with cfgReleased := false, load := none }).resetBlocks 8 8

/-- What the entry into RETAIN (2) or OFF (3) does to domain `d`. In OFF a cluster keeps its registers, for the reload of R66 reads
them (DEDUCED, log 26), and so does the commit engine, of which only the latch log is lost: R144 says what RETAIN keeps, and no
more of OFF than when it is entered, while R438 keeps nothing (DESIGN CHOICE, log 111). -/
def State.enterDom (s : State) (d level : Nat) : State :=
  let off := decide (level = 3)
  if d < 64 then
    if off then s.clusterLose d
    else s.modCl d fun c => { c with scratch := [], near := [], nearNext := [], tags := [] }
  else if d = 64 then (if off then s.modRc fun r => { r with latch := [] } else s)
  else if d ≤ 72 then if off then s.lanesLost (d - 65) else s.lanesRetain (d - 65)
  else if d = 73 then
    if off then s.sysnetOff else s
  else if d ≤ 81 then
    let s := s.spCorePower (d - 74) level
    if off then s.dropCaches (d - 74) else s
  else if d ≤ 97 then (if off then s.spadClear (d - 82) else s)
  else if d ≤ 105 then (if off then s.lynxOff (d - 98) else s)
  else match d with
    | 106 =>
      let s := s.shalePorts.foldl (fun (s : State) p => if off then s.lanesLost p else s.lanesRetain p) s
      let s := s.setFld Reg.SH_LOOP_STAT 0 8 0
      if off then s.shaleOff
      else if s.shState = 4 then s.modHold 8 fun h => { h with outputs := true } else s
    | 107 => if off then { s.resetBlocks 9 9 with acq := {} } else s
    | 108 => if off then { s.resetBlocks 16 16 with spoor := {} } else s
    | 109 =>
      if off then
        let s := s.clearSpadRings.resetBlocks 1 1
        { s with
          rc := { s.rc with ecn := 0, fresh := true, runStart := 0, pauseAt := none, cmd := none, cseq := 0, latch := [] }
          host := { s.host with keep := [] } }
      else s
    | 110 => ((List.range 16).filter fun r => s.flag (Reg.CR_REG_CFG r) 31 && decide (s.regionMode r = 2)).foldl State.flushNodes s
    | _ => s

/-- Domain `d` is brought back to RUN, with what its chapter restores (R438-R440). -/
def State.wakeDom (s : State) (d : Nat) : State :=
  let x := s.dom d
  if (x.level = 0 ∧ x.goal.isNone) ∨ !s.domPresent d then s
  else if d < 64 then s.wakeCluster d
  else if 65 ≤ d ∧ d ≤ 72 then
    let s := s.leaveDom d
    if x.level = 0 ∨ s.training (d - 65) ∨ s.flag (Reg.PORT_STAT (d - 65)) 29 then s else s.startTraining (d - 65) (decide (x.level = 3))
  else if 74 ≤ d ∧ d ≤ 81 then s.wakeCore (d - 74)
  else if d = 106 ∧ x.level = 2 ∧ s.shState = 4 then
    (s.leaveDom d).shRelease { src := 1, seq := s.shale.lastSeq, again := true }
  else s.leaveDom d

/-- The state that `level` names is open to domain `d`: its chapter's condition holds (R436). -/
def State.levelOk (s : State) (d level : Nat) : Bool := if level = 3 then s.offOk d else s.retainOk d

/-- The handshake of every stop is over: the domain enters its goal (R387 order 5), unless the condition has ceased meanwhile, which
takes it back to RUN (R439, R440). -/
def State.tryEnter (s : State) (d : Nat) : State :=
  match (s.dom d).goal with
  | none => s
  | some level =>
    if !s.levelOk d level then s.wakeDom d
    else if (domStops d).all (fun stop => s.ring.fences.contains (stop, d)) then
      (s.enterDom d level).modDom d fun x => { x with level := level, goal := none }
    else s

/-- Domain `d` may not stay where it is (R439, R440): it has work again, its condition no longer holds, its tolerance
no longer permits the state, or a request is parked at one of its stops. FATAL leaves every domain as it was found. -/
def State.mustWake (s : State) (d : Nat) : Bool :=
  let x := s.dom d
  let level := max x.level (x.goal.getD 0)
  (decide (2 ≤ x.level) || x.goal.isSome) &&
    (s.ring.parked.any (fun q => (domTargets d).contains q.target) ||
      (decide (s.rc.state ≠ .fatal) && (s.hasWork d || decide (s.domCap d < level) || !s.levelOk d level)))

/-- Every domain that must wake does; called as time advances, and after a write of a register. -/
def State.settlePower (s : State) : State :=
  (List.range 111).foldl (fun (s : State) d => if s.mustWake d then s.wakeDom d else s) s

/-- A domain with work keeps its idle time at zero (R437); called as time advances. -/
def State.idleTimes (s : State) : State :=
  (List.range 111).foldl (fun (s : State) d => if s.hasWork d then s.touch d else s) s

/-- DOMAIN_IDLE_EXPIRY (R437): the deepest state permitted after the domain's idle time becomes its goal, and the
handshake of R387 begins; a domain without stops enters at once. -/
def execDomainIdleExpiry (d : Nat) (s : State) : Host.Outcome State Fault Refusal :=
  let x := s.dom d
  let idle := s.now - x.idle
  let ret := s.fld Reg.POW_CFG 16 16 * 1000
  let off := ret + s.fld Reg.POW_CFG 0 16 * 1000000
  let goal :=
    if s.domCap d = 3 ∧ off ≤ idle then 3
    else if 2 ≤ s.domCap d ∧ s.retainOk d ∧ ret ≤ idle then 2 else 0
  if !s.domPresent d ∨ s.portFollows d ∨ x.goal.isSome ∨ goal ≤ x.level then ok s
  else ok ((s.modDom d fun y => { y with goal := some goal }).tryEnter d)

/-- DOMAIN_WAKE (R439): a wake event of domain `d`. -/
def execDomainWake (d : Nat) (s : State) : Host.Outcome State Fault Refusal := ok (s.wakeDom d)

/-- FENCE_ACK (R387 orders 4 and 5): a stop that has drained for domain `d` acknowledges; with the last stop's
acknowledgement the domain enters its goal. -/
def execFenceAck (stop d : Nat) (s : State) : Host.Outcome State Fault Refusal :=
  if s.ring.fencing.contains (stop, d) ∧ s.stopDrained stop d then
    let s := s.modRing fun r => { r with
      fencing := r.fencing.filter (· ≠ (stop, d))
      fences := r.fences ++ [(stop, d)] }
    ok (((s.showStop stop).ringEvent 5 stop (fenceTarget d) 0).tryEnter d)
  else ok s

/-! ## The regulator link (R441, R442) -/

/-- The transactions that are made once, and so made again after a failure: VOUT_MODE, VOUT_COMMAND, VOUT_TRANSITION_RATE. A reading
is made again in any case. -/
def pmbusSetup (command : Nat) : Bool := [0x20, 0x21, 0x27].contains command

/-- A transaction fails: POW_PMBUS_ERROR, and the reading is stale until one succeeds; it is tried again every 1 ms (R441). -/
def State.pmbusError (s : State) (command : Nat) : State :=
  ((s.record cConfig bPower 0x0F02 (command % 256)).raise 17 0).modPow fun p => { p with
    pmbusFail := true, stale := true, failedAt := s.now, samples := []
    owed := if pmbusSetup (command % 256) ∧ ¬ p.owed.contains (command % 256) then command % 256 :: p.owed else p.owed }

/-- `m` times 2 to the power of the exponent `e`, 5 bits in two's complement, rounded down. -/
def scaled (m e : Nat) : Nat := if e < 16 then m * 2 ^ e else m / 2 ^ (32 - e)

/-- A voltage in Linear16 under the exponent `e`, in mV (R441). -/
def linear16Mv (e w : Nat) : Nat := scaled (w % 2 ^ 16 * 1000) e

/-- The Linear16 word nearest to `mv` mV under the exponent `e`, which is not above 0 (R441; rounding DESIGN CHOICE, log 28). -/
def mvLinear16 (e mv : Nat) : Nat := (mv * 2 ^ ((32 - e) % 32) + 500) / 1000 % 2 ^ 16

/-- A current in Linear11, in 10 mA units (R441): a mantissa of 11 bits and an exponent of 5, both in two's complement. A negative
current counts as none (DESIGN CHOICE, log 28). -/
def linear11Ca (w : Nat) : Nat := if bits w 10 1 = 1 then 0 else scaled (bits w 0 10 * 100) (bits w 11 5)

/-- PMBUS_CFG.EN becomes 1 (R441): VOUT_MODE is to be read, and VOUT_TRANSITION_RATE to be written after it. -/
def State.pmbusStart (s : State) : State :=
  s.modPow fun p => { p with pmbusFail := false, stale := true, samples := [], polledAt := s.now, owed := [0x20] }

/-- The transactions owed, in their order (R441): VOUT_MODE, which reads `mode`, with VOUT_TRANSITION_RATE = 0.5 mV/µs (here in µV per
µs), and VOUT_COMMAND with the setpoint last decided. `false`: the regulator does not acknowledge VOUT_MODE, and no other is made. -/
def State.pmbusOwed (s : State) (mode : Option Nat) : Bool × State :=
  let owes (c : Nat) : Bool := s.power.owed.contains c
  let rest (s : State) : State :=
    let s := if owes 0x20 || owes 0x27 then s.emit [.pmbus 0x27 500] else s
    let s := match s.power.setMv with
      | some mv => if owes 0x21 then s.emit [.pmbus 0x21 (mvLinear16 s.power.voutExp mv)] else s
      | none => s
    s.modPow fun p => { p with owed := [] }
  if owes 0x20 then match mode with
    | some m => (true, rest (s.modPow fun p => { p with voutExp := m % 32 }))
    | none => (false, s.pmbusError 0x20)
  else (true, rest s)

/-- PMBUS_POLL (R441, R442): what READ_VOUT and READ_IOUT return, in Linear16 and Linear11, or no acknowledgement, after what the
transactions owed read, of which VOUT_MODE is `mode`. Every 10 µs, or 1 ms after a failure. The average is of the readings of the
latest 100 µs and is rounded down (DESIGN CHOICE, log 28). -/
def execPmbusPoll (mode : Option Nat) (reading : Option (Nat × Nat)) (s : State) : Host.Outcome State Fault Refusal :=
  let due := if s.power.pmbusFail then s.power.failedAt + 1000000 else s.power.polledAt + 10000
  if !s.flag Reg.PMBUS_CFG 31 ∨ s.now < due then ok s
  else match s.pmbusOwed mode, reading with
    | (false, s), _ => ok s
    | (true, s), none => ok (s.pmbusError 0x8B)
    | (true, s), some (vout, iout) =>
      let mv := linear16Mv s.power.voutExp vout
      let ca := linear11Ca iout
      let samples := (s.now, mv * ca / 100) :: s.power.samples.filter (fun e => s.now < e.1 + 100000)
      let p := min (2 ^ 20 - 1) ((samples.map (·.2)).sum / samples.length + s.fld Reg.POW_AUX 0 7 * 1000)
      let e := s.power.energyRest + p
      let s := (s.setFld Reg.AVS_STAT 12 10 (min mv 1023)).setFld Reg.POW_ICORE 0 16 (min ca 65535)
      let s := (s.setFld Reg.POW_NOW 0 20 p).wr64 Reg.ENERGY_LO ((s.rd64 Reg.ENERGY_LO + e / 100) % 2 ^ 64)
      ok (s.modPow fun x => { x with
        stale := false, pmbusFail := false, samples := samples, polledAt := s.now, energyRest := e % 100 })

/-- POW_PMBUS_ALERT (R441): PMB_ALERT_N falls and STATUS_WORD is read. -/
def execPowPmbusAlert (status : Option Nat) (s : State) : Host.Outcome State Fault Refusal :=
  if !s.flag Reg.PMBUS_CFG 31 then ok s
  else match status with
    | some w => ok ((s.record cInfo bPower 0x0F03 (w % 65536)).raise 17 1)
    | none => ok (s.pmbusError 0x79)

/-- POW_PMBUS_ERROR (R441): a transaction of this command code is not acknowledged, or holds the bus beyond 1 ms. -/
def execPowPmbusError (command : Nat) (s : State) : Host.Outcome State Fault Refusal :=
  if !s.flag Reg.PMBUS_CFG 31 then ok s else ok (s.pmbusError command)

/-! ## AVS, power cap and throttling (R443-R446) -/

/-- Sensor `n`, in 0.25 °C. -/
def State.sensorTemp (s : State) (n : Nat) : Int := fieldInt true 16 (s.fld (Reg.THERM_SENSOR n) 0 16)

/-- The hottest valid sensor, the lowest-numbered of several, and Tmax. -/
def State.hottest (s : State) : Option (Nat × Int) :=
  (List.range 16).foldl (fun (m : Option (Nat × Int)) n =>
    if !s.flag (Reg.THERM_SENSOR n) 31 then m
    else match m with
      | some (_, t) => if t < s.sensorTemp n then some (n, s.sensorTemp n) else m
      | none => some (n, s.sensorTemp n)) none

/-- Set the throttle levels and the level in force. -/
def State.setThrottle (s : State) (cap therm : Nat) : State :=
  ((s.setFld Reg.THROT_STAT 26 3 cap).setFld Reg.THROT_STAT 23 3 therm).setFld Reg.THROT_STAT 29 3 (max cap therm)

/-- The setpoint in force: the one last written, else what the regulator reads. -/
def State.vcore (s : State) : Nat := s.power.setMv.getD (s.fld Reg.AVS_STAT 12 10)

/-- Write VOUT_COMMAND with a new setpoint (R443). -/
def State.setVcore (s : State) (mv : Nat) : State :=
  if mv = s.vcore then s
  else ((s.emit [.pmbus 0x21 (mvLinear16 s.power.voutExp mv)]).setFld Reg.AVS_STAT 22 10 mv).modPow fun p => { p with setMv := some mv }

/-- The thermal level after the decision of one interval (R445). -/
def State.thermNext (s : State) (level : Nat) : Nat :=
  match s.hottest with
  | none => level
  | some (_, t) =>
    let limit : Int := s.fld Reg.THERM_CFG 16 8 * 4
    if limit ≤ t then min 7 (level + 1) else if t < limit - 12 then level - 1 else level

/-- One decision of R443 on the voltage and the cap level; the voltage holds while PMBus is off or the reading stale
(R441). -/
def State.avsDecision (s : State) (maxPs therm : Nat) : Nat × Nat :=
  let on := s.flag Reg.PMBUS_CFG 31 && !s.power.stale
  let p := s.fld Reg.POW_NOW 0 20
  let cap := s.fld Reg.POW_CAP 0 9 * 1000
  let avs := s.flag Reg.AVS_CFG 31
  let fixedMode := s.flag Reg.AVS_CFG 30
  let vmin := s.fld Reg.AVS_CFG 10 10
  let vmax := s.fld Reg.AVS_CFG 20 10
  let target := s.fld Reg.AVS_TARGET 0 12
  let v := s.vcore
  let k := s.fld Reg.THROT_STAT 26 3
  let (v1, k1) : Nat × Nat :=
    if on ∧ cap < p then
      if avs ∧ vmin < v then (v - 5, k) else (v, min 7 (k + 1))
    else if !on ∨ p * 100 < cap * 98 then
      if 0 < k then (v, k - 1)
      else if avs ∧ !fixedMode ∧ therm = 0 ∧ maxPs ≠ 0 then
        if target * 102 < maxPs * 100 ∧ v < vmax then (v + 5, k)
        else if maxPs * 100 < target * 98 ∧ vmin < v then (v - 5, k)
        else (v, k)
      else (v, k)
    else (v, k)
  let vset := s.fld Reg.AVS_CFG 0 10
  let v2 := if avs ∧ fixedMode ∧ k1 = 0 then (if v1 < vset then v1 + 5 else if vset < v1 then v1 - 5 else v1) else v1
  (if on then v2 else v, k1)

/-- The enabled clusters that have completed a step within the preceding 1 µs (R58). -/
def State.steppedNow (s : State) : List Nat :=
  s.clusterIds.filter fun c => s.enabled c && decide (s.now < s.stepped.get (fun _ => 0) c + 1000) &&
    decide (0 < s.stepped.get (fun _ => 0) c)

/-- FAB_STEP_PS (R58): what periods the clusters had is not given by the spec: free values (log 7), the mean at most the
longest, and equal to it where one cluster stepped. -/
def State.stepPs (s : State) : Nat × State :=
  match s.steppedNow with
  | [] => (0, s)
  | [_] => let (x, s) := s.free; (x.toNat % 2 ^ 16 * 65537, s)
  | _ =>
    let (x, s) := s.free
    let (y, s) := s.free
    let m := x.toNat % 2 ^ 16
    (m * 2 ^ 16 + y.toNat % (m + 1), s)

/-- POWER_DECISION (R443-R445): the decision of one 10 µs interval, in which FAB_STEP_PS.MAX_PS is `maxPs`, 0 if no cluster
stepped (R58). -/
def execPowerDecision (maxPs : Nat) (s : State) : Host.Outcome State Fault Refusal :=
  if s.now < s.power.decidedAt + 10000 then ok s
  else
    let maxPs := if s.steppedNow.isEmpty then 0 else maxPs
    let s := s.modPow fun p => { p with decidedAt := s.now }
    let therm := s.fld Reg.THROT_STAT 23 3
    let cap := s.fld Reg.THROT_STAT 26 3
    let level := s.fld Reg.THROT_STAT 29 3
    let p := s.fld Reg.POW_NOW 0 20
    let (v, cap1) := s.avsDecision maxPs therm
    let therm1 := s.thermNext therm
    let s := (s.setVcore v).setThrottle cap1 therm1
    let s := if cap < cap1 ∧ level < cap1 ∧ !s.flag Reg.POW_INT_STAT 2 then
      (s.record cInfo bPower 0x0F04 p).raise 17 2 else s
    let s : State := match s.hottest with
      | some (n, t) => if therm < therm1 ∧ !s.flag Reg.POW_INT_STAT 4 then
          (s.record cInfo bPower 0x0F06 (n * 65536 + satField 16 t)).raise 17 4 else s
      | none => s
    let tooMuch := s.flag Reg.PMBUS_CFG 31 && !s.power.stale && decide (s.fld Reg.POW_CAP 0 9 * 1000 < p) &&
      (!s.flag Reg.AVS_CFG 31 || decide (s.vcore ≤ s.fld Reg.AVS_CFG 10 10)) && decide (max cap1 therm1 = 7)
    if !tooMuch then ok (s.modPow fun x => { x with overOn := false, unreachNoted := false })
    else
      let s := if s.power.overOn then s else s.modPow fun x => { x with overOn := true, overSince := s.now }
      if s.power.unreachNoted ∨ s.now < s.power.overSince + 10000000 then ok s
      else ok (((s.record cConfig bPower 0x0F05 p).raise 17 3).modPow fun x => { x with unreachNoted := true })

/-- Tmax has reached CRIT_C, or every sensor is marked not valid (R446). -/
def State.critical (s : State) : Bool :=
  decide (s.fld Reg.THERM_FAULT 0 16 = 65535) ||
    s.hottest.any (fun x => decide ((s.fld Reg.THERM_CFG 24 8 * 4 : Int) ≤ x.2))

/-- Tmax has become critical, where it `was` not (R446). Where no sensor is valid the record's sensor is not stated: a free value
(log 7). -/
def State.critStep (s : State) (was : Bool) : State :=
  if !s.critical ∨ was then s
  else
    let s := s.setThrottle (s.fld Reg.THROT_STAT 26 3) 7
    match s.hottest with
    | some (m, t) => s.fatal bPower 0x0F07 (m * 65536 + satField 16 t)
    | none =>
      let (x, s) := s.free
      s.fatal bPower 0x0F07 (bits x.toNat 0 4 * 65536 + s.fld Reg.THERM_CFG 24 8 * 4)

/-- SENSOR_READING (R445, R446): sensor `n` reports `temp`, in 0.25 °C. -/
def execSensorReading (n : Nat) (temp : Int) (s : State) : Host.Outcome State Fault Refusal :=
  if 16 ≤ n then ok s
  else
    let was := s.critical
    let bad := decide (temp < -160) || decide (600 < temp)
    let s := ((s.setFlag (Reg.THERM_SENSOR n) 31 (!bad)).setFld (Reg.THERM_SENSOR n) 0 16 (satField 16 temp)).setFlag
      Reg.THERM_FAULT n bad
    let s := if bad ∧ !s.power.sensorNoted.contains n then
      ((s.record cConfig bPower 0x0F08 n).raise 17 5).modPow fun p => { p with sensorNoted := n :: p.sensorNoted }
      else s
    let s : State := match s.hottest with
      | some (m, t) => (s.setFld Reg.THERM_STAT 28 4 m).setFld Reg.THERM_STAT 0 16 (satField 16 t)
      | none => s
    ok (s.critStep was)

/-- A write of a POWER register (R449). A THERM_CFG that brings CRIT_C down to Tmax makes it critical (R446). -/
def State.writePower (s : State) (init : Initiator) (off v : Nat) : State :=
  let fixed := decide (off = Reg.PMBUS_CFG) && s.flag Reg.AVS_CFG 31
  let (done, s1) := s.csrWrite init off v (fun _ => fixed) false 0x0F01
  if !done then s1
  else if off = Reg.PMBUS_CFG ∧ s1.flag off 31 ∧ !s.flag off 31 then s1.pmbusStart
  else (State.irqEdges s s1 [17]).critStep s.critical

/-! ## Pin thresholds and DDR retraining (R447, R448) -/

/-- Pin `i` adapts its threshold: it is released and has VREF_ADAPT = 1 (R283, R447). -/
def State.adapts (s : State) (i : Nat) : Bool :=
  decide (i < 128) && decide (s.shState = 4) && s.pinReleased i && decide (s.pinField i 13 1 = 1)

/-- VREF_STEP (R447): CODE moves by 1 toward the centre of the codes at which both samplers agree, at most once per
millisecond. -/
def execVrefStep (pin centre : Nat) (s : State) : Host.Outcome State Fault Refusal :=
  let off := Reg.VREF_STAT pin
  let code := s.fld off 0 6
  let last := s.power.vrefMoved.get (fun _ => 0) pin
  if !s.adapts pin ∨ s.flag off 31 ∨ code = centre ∨ 63 < centre ∨ (last ≠ 0 ∧ s.now < last - 1 + 1000000) then ok s
  else
    let c := if code < centre then code + 1 else code - 1
    let s := (s.setFld off 0 6 c).setFlag off 30 true
    let s := if c = 0 ∨ c = 63 then s.setFlag off 29 true else s
    ok (s.modPow fun p => { p with vrefMoved := p.vrefMoved.set (fun _ => 0) pin (s.now + 1) })

/-- DDR_RETRAIN (R448): one burst retrains subchannel `sub`, at its interval or as the temperature (0.25 °C) has moved. -/
def execDdrRetrain (sub : Nat) (temp : Int) (s : State) : Host.Outcome State Fault Refusal :=
  let since := s.now - s.power.ddrAt.get (fun _ => 0) sub
  let moved := s.power.ddrTemp.any (fun e =>
    e.1 = sub && decide (s.fld Reg.DDR_RETRAIN 16 8 * 4 ≤ (temp - e.2).natAbs))
  if !s.flag Reg.DDR_RETRAIN 31 ∨ 8 ≤ sub ∨ (since < s.fld Reg.DDR_RETRAIN 0 10 * 1000000 ∧ !moved) then ok s
  else ok (s.modPow fun p => { p with
    ddrAt := p.ddrAt.set (fun _ => 0) sub s.now
    ddrTemp := p.ddrTemp.insert sub temp
    ddrCount := p.ddrCount + 1 })

end Sys2Proof.Machine
end

