-- ==== Sys2Proof/Machine/HostLink.lean ====
section
/-!
DEFINITION. The host link (R232-R234), the DMA channels (R235-R237), the message ports (R249-R253), and writes of the
RUNCTL registers (R145, R255).
-/

namespace Sys2Proof.Machine

/-! ## Message ports -/

/-- The host-in page's PUSH (R249, R510). -/
def State.pushWord (s : State) (h : Nat) (w : W64) : State :=
  let pos := s.rd64 (Reg.MP_IN_WRITE_POS_LO h)
  if !s.flag (Reg.MP_IN_CFG h) 31 ∨ s.inCredit h = 0 then
    (s.count (Reg.MP_IN_FULL_DROPS h) 0 32 1).record cRejected bRunctl 0x0608 h
  else
    match s.mpPut (Reg.MP_IN_BASE_LO h) (Reg.MP_IN_CFG h) pos w with
    | (true, s) => s.count (Reg.MP_IN_FULL_DROPS h) 0 32 1
    | (false, s) =>
      let gone := h * 2 ^ 64 + pos - 2 ^ s.fld (Reg.MP_IN_CFG h) 0 5
      (s.wr64 (Reg.MP_IN_WRITE_POS_LO h) (pos + 1)).modRc fun r => { r with
        seenAt := if pos < 2 ^ s.fld (Reg.MP_IN_CFG h) 0 5 then r.seenAt else r.seenAt.erase gone }

/-- The status word of an empty host-out channel (R253). -/
def outStatus (h : Nat) : Nat := h * 2 ^ 48

/-- The word at READ_POS. What a ring that answers with an error shows there is not stated: a free value (log 7). -/
def State.outHead (s : State) (h : Nat) : Nat × State :=
  match s.mpWord (Reg.MP_OUT_BASE_LO h) (Reg.MP_OUT_CFG h) (s.rd64 (Reg.MP_OUT_READ_POS_LO h)) with
  | (some w, s) => (w.toNat, s)
  | (none, s) => let (x, s) := s.free; (x.toNat, s)

/-- POP, PEEK (R253): the value returned; POP advances READ_POS. -/
def State.readOut (s : State) (h : Nat) (pop : Bool) : State :=
  if s.outHeld h = 0 then s.answer (outStatus h)
  else
    let (v, s) := s.outHead h
    (if pop then s.wr64 (Reg.MP_OUT_READ_POS_LO h) (s.rd64 (Reg.MP_OUT_READ_POS_LO h) + 1) else s).answer v

/-- LEVEL (R253). -/
def State.outLevel (s : State) (h : Nat) : Nat :=
  if s.outHeld h = 0 then outStatus h else 2 ^ 63 + outStatus h + s.outHeld h % 2 ^ 32

/-- An access of the port and mailbox window at its offset `x`, by BAR4 or by the internal window (R30, R31). `write`: the
data of a write. POP, PEEK, LEVEL and CREDIT ignore writes; PUSH reads 0. The record of a wrong access names the low 32 bits of the
internal window address, through BAR4 too: the spec says only 'the address' (DESIGN CHOICE, log 107). -/
def State.portWindow (s : State) (init : Initiator) (x width : Nat) (write : Option Nat) : State :=
  let h := x / 0x1000 % 16
  let rel := x % 0x1000
  let m := (x - 0x2_0000) / 0x40 % 64
  let read (f : State → State) : State := match write with | none => f s | some _ => s.answer 0
  let none_ := (s.reservedAccess init (0x8000_0000 + x)).answer 0
  if width ≠ 64 ∨ x % 8 ≠ 0 then (s.widthReject (0x8000_0000 + x)).answer 0
  else if x < 0x1_0000 then
    match rel with
    | 0x000 => match write with
      | some v => (s.pushWord h (BitVec.ofNat 64 v)).answer 0
      | none => s.answer 0
    | 0x008 => read fun s => s.answer (s.inCredit h % 2 ^ 32)
    | _ => none_
  else if x < 0x2_0000 then
    match rel with
    | 0x000 => read fun s => s.readOut h true
    | 0x008 => read fun s => s.readOut h false
    | 0x010 => read fun s => s.answer (s.outLevel h)
    | _ => none_
  else if x < 0x2_1000 then
    match x % 0x40, write with
    | 0x00, some v => s.mbWrite init m (BitVec.ofNat 64 v)
    | 0x00, none => s.mbRead init m
    | 0x08, some v => s.mbStatusWrite m v
    | 0x08, none => s.answer (s.mboxStatus m)
    | _, _ => none_
  else none_

/-- PUSH (R249). -/
def execPush (init : Initiator) (ch : Nat) (word : W64) (s : State) : Host.Outcome State Fault Refusal :=
  ok (s.onWindow init fun s => (s.pushWord (ch % 16) word).answer 0)

/-- HOST_OUT_POP (R253). -/
def execHostOutPop (init : Initiator) (ch : Nat) (s : State) : Host.Outcome State Fault Refusal :=
  ok (s.onWindow init fun s => s.readOut (ch % 16) true)

/-- PEEK (R253). -/
def execPeek (init : Initiator) (ch : Nat) (s : State) : Host.Outcome State Fault Refusal :=
  ok (s.onWindow init fun s => s.readOut (ch % 16) false)

/-- LEVEL (R253). -/
def execLevel (init : Initiator) (ch : Nat) (s : State) : Host.Outcome State Fault Refusal :=
  ok (s.onWindow init fun s => s.answer (s.outLevel (ch % 16)))

/-! ## DMA (R235-R237) -/

/-- Where a range of the internal space lies (R23). -/
inductive Space where
  | ddr | csr | spad | setAlias | clearAlias | rom | window | reserved
  deriving DecidableEq, Repr

/-- The space that holds all of `[addr, addr + n)`; reserved where none does. -/
def State.spaceOf (s : State) (addr n : Nat) : Space :=
  let inside (lo size : Nat) : Bool := decide (lo ≤ addr) && decide (addr + n ≤ lo + size)
  if addr + n ≤ s.fuses.ddrBytes ∧ addr + n ≤ 2 ^ 38 then .ddr
  else if inside 0x40_0000_0000 (2 ^ 26) then .csr
  else if inside 0x40_1000_0000 (2 ^ 22) then .spad
  else if inside 0x40_2000_0000 (2 ^ 22) then .setAlias
  else if inside 0x40_3000_0000 (2 ^ 22) then .clearAlias
  else if inside 0x40_4000_0000 (2 ^ 18) then .rom
  else if inside 0x40_8000_0000 (2 ^ 20) then .window
  else .reserved

/-- What cause an error response of a ring target or of a scratchpad bank has is not stated: a free value (log 7). -/
def State.dmaFree (s : State) : Option Nat × List Byte × State := let (x, s) := s.free; (some (bits x.toNat 0 4), [], s)

/-- The outcome of one part of a DMA transfer to a bank: `cause` as R237 numbers it. -/
def State.dmaSpad (s : State) (write : Option (Space × List Byte)) (off n : Nat) : Option Nat × List Byte × State :=
  let k := off / 2 ^ 18 % 16
  let o := off % 2 ^ 18
  if s.isolated (32 + k) then s.dmaFree
  else match s.spadGate .hostDma k with
    | .reaches =>
      match write with
      | none => match s.spadRead .hostDma k o n with
        | (true, _, s) => s.dmaFree
        | (false, m, s) => (none, bytesOfMap m n, s)
      | some (.spad, l) => match s.spadWrite .hostDma k o ((List.range l.length).zip l) with
        | (true, s) => s.dmaFree
        | (false, s) => (none, [], s)
      | some (sp, l) =>
        match s.aliasPut (decide (sp = .setAlias)) .hostDma k o l with
        | (true, s) => s.dmaFree
        | (false, s) => (none, [], s)
    | g => (some 3, [], s.spadRefuse .hostDma k o g)

/-- One packet of a DMA transfer (R380): the bytes it reads (`data` none), or `data` is written; the cause of a failure. -/
def State.dmaPacket (s : State) (sp : Space) (addr n : Nat) (data : Option (List Byte)) : Option Nat × List Byte × State :=
  match sp with
  | .ddr =>
    match data with
    | some l => match s.ddrPut .hostDma .write addr n (mapOfBytes l) with
      | (none, s) => (none, [], s)
      | (some (.isolated, _), s) => s.dmaFree
      | (some _, s) => (some 2, [], s)
    | none => match s.ddrGet .hostDma .read addr n with
      | (.ok m, s) => (none, bytesOfMap m n, s)
      | (.error (.isolated, _), s) => s.dmaFree
      | (.error _, s) => (some 2, [], s)
  | .rom =>
    if s.isolated 27 then s.dmaFree
    else (none, (List.range n).map (fun i => Config.bootRom (addr - 0x40_4000_0000 + i)), s)
  | .spad | .setAlias | .clearAlias => s.dmaSpad (data.map fun l => (sp, l)) (addr % 2 ^ 22) n
  | .csr | .window | .reserved => (some 5, [], s)

/-- Move `n` bytes at `addr`, packet by packet up to the first that fails: read them (`data` none), or write `data`. The cause of
the failure, and the bytes read before it. A range that the DMA does not reach has cause 5 and no record, the ring of the
descriptors included (R237, R510; of the ring DEDUCED, log 107). -/
def State.dmaMove (s : State) (addr n : Nat) (data : Option (List Byte)) : Option Nat × List Byte × State :=
  let sp := s.spaceOf addr n
  if sp = .csr ∨ sp = .window ∨ sp = .reserved ∨ (sp = .rom ∧ data.isSome) then (some 5, [], s)
  else (packetsOf addr n).foldl (fun (acc : Option Nat × List Byte × State) p =>
    if acc.1.isSome then acc
    else
      let r := acc.2.2.dmaPacket sp p.1 p.2 (data.map fun l => (l.drop (p.1 - addr)).take p.2)
      (r.1, acc.2.1 ++ r.2.1, r.2.2)) (none, [], s)

/-- The channel stops at its descriptor (R237). -/
def State.dmaFail (s : State) (k i addr cause : Nat) : State :=
  let s := (s.dmaMove (addr + 0x18) 4 (some (bytesOfNat (2 ^ 30 + cause) 4))).2.2
  ((s.setFlag (Reg.DMA_CFG k) 31 false).record cConfig bRunctl 0x060B (k <<< 29 + cause <<< 24 + i)).raise 2 (24 + k)

/-- Bytes written to host memory go as writes of at most the max payload size (R232), cut at its multiples (DESIGN CHOICE, log 100),
each with an ECRC where its generation is on. -/
def State.hostWrites (s : State) (host : Nat) (l : List Byte) : State :=
  s.emit ((cutAt s.host.maxPayload (l.length / s.host.maxPayload + 2) host l.length).map fun p =>
    .hostWrite p.1 ((l.drop (p.1 - host)).take p.2) s.host.ecrcGen)

/-- Bytes read from host memory are asked for in requests of at most the max read request size, likewise. -/
def State.hostReads (s : State) (host n : Nat) : State :=
  s.emit ((cutAt s.host.maxRead (n / s.host.maxRead + 2) host n).map fun p => .hostRead p.1 p.2 s.host.ecrcGen)

/-- DMA_DESCRIPTOR (R235-R237): channel `k` executes its next descriptor. `data`: what host memory holds, for DIR = 0;
a host-side error comes after the bytes that `data` holds, in either direction. The checks of causes 4 and 5 come before
any byte moves (DEDUCED, log 29). -/
def execDmaDescriptor (k : Nat) (hostErr : Bool) (data : List Byte) (s : State) : Host.Outcome State Fault Refusal :=
  let size := 2 ^ s.fld (Reg.DMA_CFG k) 0 4
  let i := s.fld (Reg.DMA_HEAD k) 0 12 % size
  if 8 ≤ k ∨ !s.dmaBusy k then ok s
  else
    let addr := s.rd64 (Reg.DMA_RING_BASE_LO k) % 2 ^ 40 + i * 32
    match s.dmaMove addr 32 none with
    | (some cause, _, s) => ok (s.dmaFail k i addr cause)
    | (none, bytes, s) =>
      let v := natOfBytes bytes
      let host := bits v 0 64
      let int := bits v 64 64
      let len := bits v 128 32
      let out := (bits v 160 1) = 1
      let hostErr := hostErr || !s.host.up
      if host % 4 ≠ 0 ∨ int % 4 ≠ 0 ∨ 2 ^ 40 ≤ int ∨ len % 4 ≠ 0 ∨ len < 4 ∨ 2 ^ 24 < len then ok (s.dmaFail k i addr 4)
      else
        let sp := s.spaceOf int len
        if sp = .csr ∨ sp = .window ∨ sp = .reserved ∨ (sp = .rom ∧ ¬ out) then ok (s.dmaFail k i addr 5)
        else
          let n := if hostErr then min len data.length else len
          let moved : Option Nat × State :=
            if out then
              let (c, l, s) := s.dmaMove int n none
              (c, s.hostWrites host l)
            else
              let (c, _, s) := (s.hostReads host len).dmaMove int n (some ((List.range n).map (fun j => data.getD j 0)))
              (c, s)
          match moved with
          | (some cause, s) => ok (s.dmaFail k i addr cause)
          | (none, s) =>
            if hostErr then ok (s.dmaFail k i addr 1)
            else
              let s := (s.dmaMove (addr + 0x18) 4 (some (bytesOfNat (2 ^ 31) 4))).2.2
              let s := s.setFld (Reg.DMA_HEAD k) 0 12 ((i + 1) % size)
              ok (if bits v 162 1 = 1 then s.raise 2 (16 + k) else s)

/-! ## The link (R232, R234, R453) -/

/-- The Device ID of the function (R232). Its Vendor ID is one assigned to the maker, which the spec does not name. -/
def State.pcieDeviceId (s : State) : Nat := if s.fuses.is9416 then 0x9416 else 0x9408

/-- The class code of the function (R232): processing accelerator. -/
def pcieClass : Nat := 0x12_0000

/-- PCIE_LINK_DOWN (R234). -/
def execPcieLinkDown (s : State) : Host.Outcome State Fault Refusal :=
  if !s.host.up then ok s
  else ok ((({ s with host := { s.host with up := false, width := 0, rate := 0 } } : State).record cLink bRunctl 0x060C 0).raise 2 5)

/-- `v` where the endpoint supports it (R232), else `w`. -/
def supported (l : List Nat) (v w : Nat) : Nat := if l.contains v then v else w

/-- PCIE_LINK_UP (R232, R453): the link trains, once PERST_N is deasserted and BAR2_CTRL.LOCK is 1, to a width and a rate that both
sides support, and the host sets up the function. A setting that the function does not support leaves the one it holds. -/
def execPcieLinkUp (cfg : LinkCfg) (s : State) : Host.Outcome State Fault Refusal :=
  if s.host.up ∨ s.host.perst ∨ !s.flag Reg.BAR2_CTRL 31 then ok s
  else ok { s with host := { s.host with
    up := true, released := none
    width := supported [8, 4, 2, 1] cfg.width 1
    rate := supported [32000, 16000, 8000, 5000, 2500] cfg.rate 2500
    maxPayload := supported [128, 256, 512] cfg.maxPayload s.host.maxPayload
    maxRead := supported [128, 256, 512, 1024, 2048, 4096] cfg.maxRead s.host.maxRead
    ecrcGen := cfg.ecrcGen, ecrcCheck := cfg.ecrcCheck, aspmL1 := cfg.aspmL1 } }

/-- D3HOT (R232, R254): the host moves the function to D3hot, or back to D0. -/
def execD3hot (on : Bool) (s : State) : Host.Outcome State Fault Refusal :=
  if !s.host.up then ok s else ok { s with host := { s.host with d3hot := on } }

/-! ## RUNCTL registers (R145, R255) -/

/-- The fields of a RUNCTL register that may not be written now, and the code of the rejection. -/
def State.runFixed (s : State) (off : Nat) : Bool × Nat :=
  if off = Reg.CR_CFG then (!s.preRun || s.rc.variant, 0x020A)
  else if off = Reg.SNAP_BASE_LO ∨ off = Reg.SNAP_BASE_HI then (!s.preRun, 0x020A)
  else if off = Reg.SNAP_CFG ∨ off = Reg.SNAP_PERIOD then (!s.preRun && decide (s.rc.state ≠ .paused), 0x020A)
  else
    let rel := (off - 0x10_3000) % 0x40
    let mp := decide (0x10_3000 ≤ off) && decide (off < 0x10_3800)
    (decide (off = Reg.RC_CFG) && !s.preRun || (mp && decide (rel ≤ 0x08) && !s.preRun), 0x060F)

/-- A message-port channel is enabled from 0: its positions read 0 (R249), and what its ring held is forgotten. -/
def State.zeroPositions (s : State) (off : Nat) : State :=
  let w := off - 0x08
  let h := (w - 0x10_3000) / 0x40
  if w < 0x10_3400 then
    let s := [0x10, 0x18, 0x20, 0x28].foldl (fun (s : State) r => s.wr64 (w + r) 0) s
    { s with
      host := { s.host with keep := s.host.keep.set (fun _ => 0) h 0 }
      rc := { s.rc with seenAt := s.rc.seenAt.without (h * 2 ^ 64) ((h + 1) * 2 ^ 64) } }
  else [0x10, 0x18].foldl (fun (s : State) r => s.wr64 (w + r) 0) s

/-- A vector whose message was held pending is unmasked: the message goes out (R233; PRESUMED, log 30). -/
def State.unmask (s : State) (v : Nat) : State :=
  if (s.rd (Reg.MSIX_PBA (v / 32))).testBit (v % 32) ∧ ¬ (s.rd (Reg.MSIX_TABLE v 3)).testBit 0 then
    (s.setFlag (Reg.MSIX_PBA (v / 32)) (v % 32) false).emit [.msix v]
  else s

/-- A write of a RUNCTL register. -/
def State.writeRunctl (s : State) (init : Initiator) (off v : Nat) : State :=
  if off = Reg.CMD then s.writeCmd init v
  else
    let (fixed, code) := s.runFixed off
    let (done, s1) := s.csrWrite init off v (fun _ => fixed) false code
    if !done then s1
    else if 0x10_8000 ≤ off ∧ off < 0x10_8400 then s1.unmask ((off - 0x10_8000) / 16)
    else if 0x10_3000 ≤ off ∧ off < 0x10_3800 ∧ (off - 0x10_3000) % 0x40 = 0x08 ∧ !s.flag off 31 ∧ s1.flag off 31 then
      s1.zeroPositions off
    else if 0x10_3000 ≤ off ∧ off < 0x10_3400 ∧ (off - 0x10_3000) % 0x40 = 0x2C then
      { s1 with host := { s1.host with
          keep := s1.host.keep.set (fun _ => 0) ((off - 0x10_3000) / 0x40) (s1.rd64 (off - 4)) } }
    else State.irqEdges s s1 [1, 2, 3]

end Sys2Proof.Machine
end

