-- ==== Sys2Proof/Machine/Boot.lean ====
section
/-!
DEFINITION. Resets (R451-R455, R487), boot (R457-R460), the TAP (R461), the fault ring (R471), and writes of the DEVICE
and FAULT registers (R475).
-/

namespace Sys2Proof.Machine

/-! ## Resets -/

/-- Every domain enters RUN with reset content, its idle time restarting (R440). -/
def State.restartIdle (s : State) : State := (List.range 111).foldl State.touch s

/-- What the ports have sent stays on record through a reset (log 5); the lines begin anew. -/
def State.linesSent (s : State) : Map Line :=
  (s.lines.map fun e => (e.1, ({ out := e.2.out } : Line))).filter fun e => e.2 ≠ {}

/-- A COLD reset (R452): everything but what lies in DDR, the TAP and the PERST_N pin. Programmed fuses take effect
(R461), and the straps are sampled. -/
def State.coldReset (s : State) (straps : Straps) : State :=
  { pending := s.pending
    fuses := { (s.dbg.fuses.getD s.fuses) with straps := straps }
    ddr := s.ddr
    tx := s.tx
    lines := s.linesSent
    crypt := s.crypt.stored
    dbg := { ir := s.dbg.ir, boundary := s.dbg.boundary }
    host := { perst := s.host.perst, released := if s.host.perst then none else some 0 }
    boot := { low := s.boot.low }
    freeCount := s.freeCount }

/-- A DEV_RESET record that has not entered the ring waits there like any other, as another reset begins. -/
def State.announced (s : State) : State :=
  match s.boot.announce with
  | some r => ({ s with boot := { s.boot with announce := none } } : State).queueRecord r
  | none => s

/-- A SYSTEM reset (R452): TIME, the fault ring, the host link with BAR2_CTRL, DDR, the TAP and the fuses stay; the servos are
OFF, as in IDLE (R342). It lasts until BOOT. `cause` as DEV_RESET numbers it. -/
def State.systemReset (s : State) (cause : Nat) (straps : Straps) : State :=
  let keep (off : Nat) : Bool :=
    decide (off / 0x10_0000 = 0x0A) || decide (off / 0x10_0000 = 0x12) || decide (off = Reg.BAR2_CTRL)
  let t : State :=
    { pending := s.pending
      fuses := { s.fuses with straps := straps }
      csr := s.csr.filter (fun e => keep e.1)
      latchHi := s.latchHi.filter (fun e => keep e.1)
      ddr := s.ddr
      tx := s.tx
      lines := s.linesSent
      faults := s.announced.faults
      time := s.timeOff.time
      crypt := s.crypt.stored
      badger := { tickAt := s.now }
      dbg := { ir := s.dbg.ir, boundary := s.dbg.boundary, fuses := s.dbg.fuses }
      host := { s.host with keep := [] }
      boot := { inReset := true, cause := cause }
      freeCount := s.freeCount }
  t.restartIdle

/-- COLD_RST_N (R451, R223): DEVICE_DOWN goes out first. -/
def execColdRstN (straps : Straps) (s : State) : Host.Outcome State Fault Refusal :=
  ok ((s.sendDeviceDown 0).coldReset straps)

/-- SYS_RST_N (R451). -/
def execSysRstN (straps : Straps) (s : State) : Host.Outcome State Fault Refusal :=
  ok ((s.sendDeviceDown 0).systemReset 1 straps)

/-- SUPPLY_MONITOR (R487): the rails in mV. A low rail holds the device in a COLD reset, without DEVICE_DOWN, until all
have risen. -/
def execSupplyMonitor (vaux vcore vlane : Nat) (straps : Straps) (s : State) : Host.Outcome State Fault Refusal :=
  let low := decide (vaux < 1620) || decide (vcore < 500) || decide (vlane < 780)
  if low = s.boot.low ∧ !low then ok s
  else
    let s := s.coldReset straps
    ok { s with boot := { s.boot with low := low } }

/-- What a HOST and an FLR reset share (R452): the DMA channels' EN, the MSI-X table, and the host reset epoch, which a COLD or SYSTEM
reset in progress leaves at 0 (R371). -/
def State.hostReset (s : State) : State :=
  let s := (List.range 8).foldl (fun (s : State) k => s.setFlag (Reg.DMA_CFG k) 31 false) s
  let s := { s with
    csr := s.csr.without 0x10_8000 0x10_A000
    host := { s.host with
      d3hot := false, maxPayload := 128, maxRead := 512, ecrcGen := false, ecrcCheck := false, aspmL1 := false, aerAbort := false } }
  if s.boot.begun ∧ !s.boot.inReset then s.modBg fun b => { b with hostEpoch := (b.hostEpoch + 1) % 256 } else s

/-- PERST_N (R452, R453): its assertion takes the link down and resets the host link; its deassertion ends the reset. -/
def execPerstN (asserted : Bool) (s : State) : Host.Outcome State Fault Refusal :=
  if asserted = s.host.perst then ok s
  else if asserted then
    let s : State := if s.host.up then (s.record cLink bRunctl 0x060C 0).raise 2 5 else s
    let s := s.hostReset
    ok { s with
      csr := s.csr.without Reg.BAR2_CTRL (Reg.BAR2_CTRL + 1)
      host := { s.host with up := false, width := 0, rate := 0, perst := true, released := none } }
  else
    let s := { s with host := { s.host with perst := false, released := some s.now } }
    ok ((s.record cInfo bRunctl 0x1001 3).raise 19 1)

/-- FLR (R452). -/
def execFlr (s : State) : Host.Outcome State Fault Refusal :=
  if !s.host.up then ok s else ok ((s.hostReset.record cInfo bRunctl 0x1001 4).raise 19 2)

/-- LOCK_TIMEOUT (R453): 80 ms after the deassertion the device sets LOCK with the SIZE_LOG2 it holds. -/
def execLockTimeout (s : State) : Host.Outcome State Fault Refusal :=
  match s.host.released with
  | some t =>
    if s.now < t + 80000000 ∨ s.flag Reg.BAR2_CTRL 31 then ok s else ok (s.setFlag Reg.BAR2_CTRL 31 true)
  | none => ok s

/-! ## Writes of DEVICE and FAULT registers (R29, R454, R463, R467, R475) -/

/-- DBG_AUTH.LEVEL has changed from `was` (R463). -/
def State.authChanged (s : State) (was : Nat) : State :=
  let level := s.fld Reg.DBG_AUTH 0 2
  if level = was then s
  else
    let s := s.record cInfo bRunctl 0x1007 level
    let s := if level < was then
      let s := s.dbg.halted.foldl State.coreResumes s
      let s := { s with dbg := { s.dbg with halted := [] } }
      s.modBg fun b => { b with dbgEpoch := (b.dbgEpoch + 1) % 256 }
      else s
    s.spAuth (decide (level = 2))

/-- A write of DEV_RST (R454). -/
def State.writeDevRst (s : State) (init : Initiator) (v : Nat) : State :=
  if s.boot.inReset then s
  else if bits v 24 8 = 0xA5 ∧ v.testBit 0 ∧ (isWarden init ∨ init = .hostMmio) then
    let s := if bits v 1 23 = 0 then s else s.clamped init Reg.DEV_RST 1 23 v 0
    (s.sendDeviceDown 0).systemReset 2 s.fuses.straps
  else s.reject bRunctl 0x1009 Reg.DEV_RST

/-- The initiator may write INT_ROUTE and FAULT_INT_EN (R475). -/
def wardenOrHost (init : Initiator) : Bool := isWarden init || decide (init = .hostMmio)

/-- A write of a DEVICE register. -/
def State.writeDevice (s : State) (init : Initiator) (off v : Nat) : State :=
  if off = Reg.DEV_RST then s.writeDevRst init v
  else if Reg.INT_ROUTE 0 ≤ off ∧ off < Reg.INT_ROUTE 20 ∧ !wardenOrHost init ∧ s.anyCounts off v then s.notWarden init off
  else
    let img := decide (Reg.IMG_CFG ≤ off) && decide (off ≤ Reg.IMG_PROBE_ID) && decide (s.rc.state ≠ .loading)
    let level := s.fld Reg.DBG_AUTH 0 2
    let (done, s1) := s.csrWrite init off v (fun _ => img) (s.flag Reg.BAR2_CTRL 31) 0x1009
    if !done then s1
    else if off = Reg.DBG_AUTH then s1.authChanged level
    else State.irqEdges s s1 [19]

/-- A write of a FAULT register. -/
def State.writeFault (s : State) (init : Initiator) (off v : Nat) : State :=
  if off = Reg.FAULT_INT_EN ∧ !wardenOrHost init ∧ s.anyCounts off v then s.notWarden init off
  else State.irqEdges s (s.csrWrite init off v (fun _ => false) false 0x1009).2 [18]

/-! ## Boot (R457-R460) -/

/-- The three writes of order 3 of R457, made by the boot ROM on the Warden. -/
def State.bootBar2 (s : State) : State :=
  let put (s : State) (lsb w x : Nat) : State :=
    s.writeDevice (.core 0) Reg.BAR2_CTRL (putBits (s.rd Reg.BAR2_CTRL) lsb w x)
  put (put (put s 0 6 0x22) 24 1 1) 31 1 1

/-- SP0-SP3 are handed over, and MB00 is set up for the host (R460). -/
def State.serveHost (s : State) : State :=
  let s := (List.range 4).foldl (fun (s : State) k => s.writeSpad (.core 0) (Reg.SPAD_OWNER k) 8) s
  s.writeMailbox (.core 0) (Reg.MB_CFG 0) (2 ^ 30)

/-- The boot mode in force: 0 FLASH, 1 HOST, 2 CHAIN; the reserved code boots as HOST (R456). -/
def State.bootMode (s : State) : Nat := if s.fuses.straps.bootMode = 3 then 1 else s.fuses.straps.bootMode % 4

/-- Start a load of Shale from `src`, as the boot ROM does (R457). -/
def State.bootShale (s : State) (src : Nat) : State :=
  (s.writeShale (.core 0) Reg.SH_LOAD_CTRL (2 ^ 31 + src * 2 ^ 29)).modSh fun x => { x with
    load := x.load.map fun l => { l with boot := true } }

/-- The reset ends: DEV_RESET is the first record to enter the ring (R455), and the dispatcher is in ORDERLY with cause START
(R360). -/
def State.resetEnds (s : State) : State :=
  let s := { s with boot := { s.boot with
    begun := true, inReset := false, announce := some (s.recordNow cInfo bRunctl 0x1001 s.boot.cause) } }
  (s.record cInfo bBadger 0x0B04 0).raise 11 1

/-- The ports train (R180), and the Warden starts the boot ROM at 0x40_4000_0000 (R457). -/
def State.romStarts (s : State) : State :=
  let s := if s.fuses.straps.bootMode = 3 then s.record cConfig bBadger 0x1005 3 else s
  let s := (List.range 8).foldl (fun (s : State) p => s.startTraining p true) s
  (s.modCore 0 fun c => { c with pc := 0x40_4000_0000 }).setFld Reg.BOOT_STAT 29 3 1

/-- In HOST and CHAIN modes the boot ROM opens BAR2, starts a CHAIN load in CHAIN mode, and waits for the host (R457,
R460). -/
def State.romServes (s : State) : State :=
  if s.bootMode = 0 then s
  else
    let s := s.bootBar2
    (if s.bootMode = 2 then s.bootShale 2 else s).serveHost

/-- BOOT (R457 orders 2 and 3). The straps are sampled as the reset pins are released, whose rows bring them (R456); after a reset by
DEV_RST they are sampled here (R452, R457). -/
def execBoot (straps : Straps) (s : State) : Host.Outcome State Fault Refusal :=
  if s.boot.begun ∨ s.boot.low then ok s
  else
    let s : State := if s.boot.cause = 2 then { s with fuses := { s.fuses with straps := straps } } else s
    ok s.resetEnds.romStarts.romServes

/-- BOOT_OK, and the jump into the image (R457 order 7). -/
def State.bootFinish (s : State) (key svn entry : Nat) : State :=
  let s := { s with boot := { s.boot with image := none } }
  let s := ((s.setFld Reg.BOOT_STAT 29 3 3).setFld Reg.BOOT_STAT 26 2 key).setFld Reg.BOOT_STAT 20 6 svn
  (s.record cInfo bBadger 0x1002 (s.fuses.straps.bootMode % 4 * 2 ^ 16 + key * 2 ^ 12 + svn)).modCore 0 fun c =>
    { c with pc := 0x40_1000_0100 + entry }

/-- DDR_TRAINING_DONE (R457 order 4). -/
def execDdrTrainingDone (good : Bool) (s : State) : Host.Outcome State Fault Refusal :=
  if !s.boot.begun ∨ s.boot.trained then ok s
  else
    let s := ({ s with boot := { s.boot with trained := true } } : State).setFlag Reg.BOOT_STAT 28 good
    let s := if good then s else s.record cConfig bBadger 0x1004 1
    match s.boot.image with
    | some (key, svn, entry) => ok (s.bootFinish key svn entry)
    | none => ok s

/-- The part number (R5). -/
def State.partNumber (s : State) : Nat := if s.fuses.is9416 then 0x9416 else 0x9408

/-- `n` bytes of the image in SP0-SP3 from offset `off`. -/
def State.imageBytes (s : State) (off n : Nat) : List Byte :=
  (List.range n).map (fun k => s.spad.mem.get (fun _ => 0) (off + k))

/-- The checks of R459 on the image in SP0-SP3: the number of the first that fails, or KEY_INDEX, SVN and ENTRY. -/
def State.verifyImage (s : State) : Except Nat (Nat × Nat × Nat) :=
  let f (off n : Nat) : Nat := natOfBytes (s.imageBytes off n)
  let len := f 0x008 4
  let entry := f 0x00C 4
  let key := f 0x010 1
  let svn := f 0x011 1
  if f 0x000 4 ≠ 0x57465950 ∨ f 0x004 2 ≠ 1 then .error 1
  else if f 0x006 2 ≠ s.partNumber ∧ f 0x006 2 ≠ 0x9400 then .error 2
  else if len % 64 ≠ 0 ∨ len < 64 ∨ 1048320 < len ∨ entry % 2 = 1 ∨ len ≤ entry then .error 3
  else if 4 ≤ key ∨ s.fuses.revoked.testBit key ∨ s.fuses.keyHash.get (fun _ => 0) key = 0 then .error 4
  else if Config.sha384 (s.imageBytes 0x040 96) ≠ s.fuses.keyHash.get (fun _ => 0) key then .error 5
  else if svn < s.fuses.svnMin then .error 6
  else if Config.ecdsaOk (s.imageBytes 0x040 96) (s.imageBytes 0x0A0 96)
      (Config.sha384 (s.imageBytes 0 160 ++ s.imageBytes 256 len)) then .ok (key, svn, entry)
  else .error 7

/-- The image in SP0-SP3 is judged (R459): it runs, once DDR training has ended, or the host is served. -/
def State.judgeImage (s : State) : State :=
  let s := s.setFld Reg.BOOT_STAT 29 3 2
  match s.verifyImage with
  | .ok (key, svn, entry) =>
    let s := if s.bootMode = 0 then s.bootShale 0 else s
    if s.boot.trained then s.bootFinish key svn entry
    else { s with boot := { s.boot with image := some (key, svn, entry) } }
  | .error n =>
    let s := (s.record cConfig bBadger 0x1003 n).setFld Reg.BOOT_STAT 0 3 n
    (s.bootBar2.setFld Reg.BOOT_STAT 29 3 4).serveHost

/-- The boot ROM holds SP0-SP3 again. -/
def State.hasBanks (s : State) : Bool :=
  (List.range 4).all fun k => !s.flag (Reg.SPAD_OWNER k) 31 && decide (s.fld (Reg.SPAD_OWNER k) 0 4 = 0)

/-- The boot ROM takes SP0-SP3 back by handover to core 0 without CLEAR (R460); a bank whose handover to the host is not over waits. -/
def State.takeBanks (s : State) : State :=
  (List.range 4).foldl (fun (s : State) k =>
    if s.flag (Reg.SPAD_OWNER k) 31 ∨ s.fld (Reg.SPAD_OWNER k) 0 4 = 0 then s
    else s.writeSpad (.core 0) (Reg.SPAD_OWNER k) 0) s

/-- The boot ROM reads SP0-SP3: every soft error in them is met (R392). -/
def State.romReads (s : State) : State :=
  (s.spadCheckAll (.core 0) ((s.spad.soft ++ s.spad.bad).filter (· < 2 ^ 17))).2

/-- The boot ROM writes an image into SP0-SP3, whole words of which end their errors (R392). -/
def State.romLoads (s : State) (l : List Byte) : State :=
  let bytes := (List.range (min l.length (2 ^ 20))).zip l
  let fresh (w : Nat) : Bool := decide (l.length / 8 ≤ w)
  s.modSpad fun x => { x with
    mem := x.mem.setAll (fun _ => 0) bytes, soft := x.soft.filter fresh, bad := x.bad.filter fresh }

/-- IMAGE_FETCH_DONE (R457 orders 5 and 6, R460). In FLASH mode `image` is what the flash holds, none where it cannot be
read. While the boot ROM waits for the host, the image is what the host wrote: once a word lies in MB00 the banks are taken back, and
once they are handed over the image is judged. -/
def execImageFetchDone (image : Option (List Byte)) (s : State) : Host.Outcome State Fault Refusal :=
  let stage := s.fld Reg.BOOT_STAT 29 3
  if !s.boot.begun ∨ (stage ≠ 1 ∧ stage ≠ 4) then ok s
  else if stage = 1 ∧ s.bootMode = 0 then
    match image with
    | some l => ok (s.romLoads l).romReads.judgeImage
    | none => ok (s.record cConfig bBadger 0x1004 0).romReads.judgeImage
  else if s.boot.taking then
    if s.hasBanks then ok (({ s with boot := { s.boot with taking := false } } : State).romReads.judgeImage) else ok s.takeBanks
  else if !(s.mbox 0).full then ok s
  else
    let s := s.modMbox 0 fun m => { m with full := false }
    ok (({ s with boot := { s.boot with taking := true } } : State).takeBanks)

/-! ## The TAP (R461, R462) -/

/-- The IDCODE of R7. -/
def State.idcodeValue (s : State) : Nat := if s.fuses.is9416 then 0x19416647 else 0x19408647

/-- Load instruction `ir`. -/
def State.tapIr (s : State) (ir : Nat) : State := { s with dbg := { s.dbg with ir := ir } }

/-- An instruction whose condition fails loads BYPASS (R461). -/
def State.tapRefuse (s : State) (ir : Nat) : State := (s.tapIr 0xFF).record cRejected bRunctl 0x1008 ir

/-- An instruction that places the device in test: only in IDLE and FATAL; ORDERLY is entered with cause TEST. -/
def State.tapTest (s : State) (ir : Nat) (f : State → State) : State :=
  if s.rc.state = .idle ∨ s.rc.state = .fatal then (f (s.tapIr ir)).enterOrderly 1 else s.tapRefuse ir

/-- EXTEST: `pins` is captured, `data` shifted into the boundary register and driven. -/
def execExtest (pins data : Nat) (s : State) : Host.Outcome State Fault Refusal :=
  ok (s.tapTest 0x00 fun s => ({ s with dbg := { s.dbg with boundary := data } } : State).answer pins)

/-- SAMPLE/PRELOAD. -/
def execSamplePreload (pins data : Nat) (s : State) : Host.Outcome State Fault Refusal :=
  let s := s.tapIr 0x01
  ok (({ s with dbg := { s.dbg with boundary := data } } : State).answer pins)

/-- IDCODE (R7). -/
def execIdcode (s : State) : Host.Outcome State Fault Refusal := ok ((s.tapIr 0x02).answer s.idcodeValue)

/-- HIGHZ. -/
def execHighz (s : State) : Host.Outcome State Fault Refusal := ok (s.tapTest 0x03 id)

/-- CLAMP. -/
def execClamp (s : State) : Host.Outcome State Fault Refusal := ok (s.tapTest 0x04 id)

/-- BYPASS, and every code that R461 does not list. -/
def execBypass (code : Nat) (s : State) : Host.Outcome State Fault Refusal :=
  if [0x00, 0x01, 0x02, 0x03, 0x04, 0x10, 0x11, 0x18].contains (code % 256) then ok s else ok (s.tapIr 0xFF)

/-- TEST_LOGIC_RESET: IDCODE is loaded, which ends EXTEST, HIGHZ and CLAMP. -/
def execTestLogicReset (s : State) : Host.Outcome State Fault Refusal := ok (s.tapIr 0x02)

/-- DBG_REQ (R462): a fresh challenge is captured, and the response shifted in. -/
def execDbgReq (response : BitVec 512) (s : State) : Host.Outcome State Fault Refusal :=
  let chal := (Config.random s.freeCount).toNat
  let s := { s.tapIr 0x10 with freeCount := s.freeCount + 1 }
  let s := (s.wr Reg.DBG_CHAL_LO chal).wr Reg.DBG_CHAL_HI (chal / 2 ^ 32)
  let s := (List.range 16).foldl (fun (s : State) w => s.wr (Reg.DBG_RESP w) (response.toNat / 2 ^ (32 * w))) s
  ok (((s.setFlag Reg.DBG_AUTH 31 true).raise 19 0).answer (chal % 2 ^ 64))

/-- FUSE_PROG (R461): fuses only ever gain ones; they take effect at the next COLD reset. -/
def execFuseProg (slot : Nat) (hash : BitVec 384) (revoke svn : Nat) (s : State) : Host.Outcome State Fault Refusal :=
  if s.fld Reg.DBG_AUTH 0 2 = 2 ∨ s.fuses.keyHash.isEmpty then
    let f := s.dbg.fuses.getD s.fuses
    let k := slot % 4
    let f := { f with
      keyHash := f.keyHash.set (fun _ => 0) k (f.keyHash.get (fun _ => 0) k ||| hash)
      revoked := f.revoked ||| revoke % 16
      svnMin := max f.svnMin (min svn 63) }
    let s := s.tapIr 0x18
    ok { s with dbg := { s.dbg with fuses := some f } }
  else ok (s.tapRefuse 0x18)

/-! ## The fault ring (R471) -/

/-- A record enters the ring. -/
def State.ringPut (s : State) (r : Record) : State :=
  let p := s.faults.wpos % 256
  let full := (s.faults.ring.get (fun _ => none) p).isSome
  let s := { s with faults := { s.faults with
    ring := s.faults.ring.set (fun _ => none) p (some r)
    wpos := (s.faults.wpos + 1) % 2 ^ 32 } }
  let s := if full then (s.count Reg.FAULT_OVERWRITES 0 32 1).raise 18 8 else s
  s.raise 18 r.cls

/-- FAULT_RECORD_WRITE (R455, R471): the oldest record of the lowest-numbered source that has one enters the ring. Of the records
since a COLD or SYSTEM reset DEV_RESET enters first, and none before the reset ends. -/
def execFaultRecordWrite (s : State) : Host.Outcome State Fault Refusal :=
  if !s.boot.begun then ok s
  else match s.boot.announce, s.faults.queues with
    | some r, _ => ok (({ s with boot := { s.boot with announce := none } } : State).ringPut r)
    | none, (src, r :: rest) :: _ =>
      ok (({ s with faults := { s.faults with queues := s.faults.queues.set (fun _ => []) src rest } } : State).ringPut r)
    | none, _ => ok s

end Sys2Proof.Machine
end

