-- ==== Sys2Proof/Machine/Csr.lean ====
section
/-!
DEFINITION. The CSR window: what each register shows and what a read of it does, which block takes a write, how an
access reaches a block (R24-R26, R385, R388, R454, R511), and the accesses of the host through BAR2 and of the debug path.
-/

namespace Sys2Proof.Machine

/-! ## Registers that show other state -/

/-- The clusters stop for a rollback that has yet to take place (R125, R110, R133). -/
def State.rollingBack (s : State) : Bool :=
  s.live && s.rc.begun &&
    (s.rc.abort.any (fun a => a.received && !a.rolled && decide (a.n ≤ s.rc.ecn)) || s.pauseDue || s.rc.halting)

/-- CL_STATUS and CL_WAIT (R37, R67). PHASE reads 4 from where a cluster stops for a rollback until that takes place
(DEDUCED, log 91). -/
def State.clStatus (s : State) (c : Nat) : Nat :=
  let cl := s.cl c
  let phase := if !s.enabled c then 5
    else if s.rollingBack ∧ !cl.opened then 4
    else if cl.stall.isSome then 2
    else match cl.phase with | .idle => 0 | .stepping => 1 | .waitCommit => 3
  2 ^ 31 + phase * 2 ^ 28 + (match cl.stall with | some x => (x.cause.k + 1) * 2 ^ 24 | none => 0) + cl.step % 4096

/-- CL_WAIT. -/
def State.clWait (s : State) (c : Nat) : Nat :=
  match (s.cl c).stall with
  | some x => 2 ^ 31 + x.index % 4096
  | none => 0

/-- Bits of cluster `c` that wait at its inbox (R51). -/
def State.inboxHeld (s : State) (c : Nat) : Nat :=
  s.held.foldl (fun n w => match s.recvTo w.cycle w.port w.slot with
    | some ⟨some (d, _), _⟩ => if d = c then n + popcount w.mask.toNat else n
    | _ => n) 0

/-- Tags of cluster `c` now outstanding (XQ_STAT). -/
def State.outstanding (s : State) (c : Nat) : Nat := ((s.cl c).tags.filter (fun e => e.2.isSome)).length

/-- The registers of FABRIC that show other state (R67). -/
def State.fabValue (s : State) (off : Nat) : Option Nat :=
  let c := (off - 0x20_0000) / 0x4000
  if off = Reg.FAB_INFO then some (9 * 2 ^ 16 + s.rc.curBank * 2 ^ 8 + s.nClusters)
  else if off = Reg.CL_STATUS c then some (s.clStatus c)
  else if off = Reg.CL_WAIT c then some (s.clWait c)
  else if off = Reg.INBOX_HELD c then some (min (s.inboxHeld c) 65535)
  else none

/-- The registers of DMEMQ that show other state. -/
def State.dmValue (s : State) (off : Nat) : Option Nat :=
  let c := (off - 0x40_0000) / 0x1000
  if off = Reg.XQ_STAT c ∧ c < 64 then some (putBits (s.rd off) 0 6 (s.outstanding c)) else none

/-- The registers of RUNCTL that show other state (R238, R255). -/
def State.runValue (s : State) (off : Nat) : Option Nat :=
  let r := s.rc
  let pause := r.pauseAt.getD (2 ^ 64 - 1)
  if off = Reg.RC_STATE then
    some (bitAt r.inReplay 31 + bitAt r.variant 30 + r.ret.num * 2 ^ 27 + r.state.num)
  else if off = Reg.RC_NEXT_ECN_LO then some (if r.begun then r.ecn + 1 else r.ecn)
  else if off = Reg.RC_NEXT_ECN_HI then some ((if r.begun then r.ecn + 1 else r.ecn) / 2 ^ 32)
  else if off = Reg.RC_RUN_START_LO then some r.runStart
  else if off = Reg.RC_RUN_START_HI then some (r.runStart / 2 ^ 32)
  else if off = Reg.PAUSE_AT_LO then some pause
  else if off = Reg.PAUSE_AT_HI then some (pause / 2 ^ 32)
  else none

/-- The registers of SYSNET that show other state (R230). -/
def State.netValue (s : State) (off : Nat) : Option Nat :=
  let p := (off - 0x60_1000) / 0x100
  if off = Reg.NET_GEN then some s.net.gen
  else if off = Reg.MAP_CTRL then some s.mapCtrl
  else if off = Reg.MAP_RD_DATA then some s.mapEntry
  else if off = Reg.LINK_STAT p then some (s.linkStat p)
  else if off = Reg.HELD p then some (putBits (s.rd off) 0 16 (s.heldOf p))
  else none

/-- The registers of BADGER that show other state (R360, R371, R376). -/
def State.badgerValue (s : State) (off : Nat) : Option Nat :=
  let k := (off - 0xB0_0000) / 0x10
  let t := (off - Reg.DISP_STAT_T 0) / 0x10
  let epochs (l : List Nat) : Nat := l.foldr (fun a n => s.epochOf a + 256 * n) 0
  if off = Reg.BG_CORE_STAT k ∧ k < 8 then some (s.coreStat k)
  else if off = Reg.BG_EPOCH0 then some (epochs [0, 1, 2, 3])
  else if off = Reg.BG_EPOCH1 then some (epochs [4, 5, 6, 7])
  else if off = Reg.BG_EPOCH2 then some (epochs [8, 9])
  else if off = Reg.DISP_STAT then
    some (putBits (putBits (s.rd off) 16 11 s.badger.ready.length) 0 11 s.badger.delayed.length)
  else if off = Reg.DISP_TICK_LO then some s.badger.tick
  else if off = Reg.DISP_TICK_HI then some (s.badger.tick / 2 ^ 32)
  else if Reg.DISP_STAT_T 0 ≤ off ∧ off = Reg.DISP_STAT_T t then some (s.taskStat t)
  else none

/-- The 32-bit word `w` of a fault record (R469, R470). -/
def recordWord (r : Record) (w : Nat) : Nat :=
  bits (r.cls + r.source * 2 ^ 4 + r.code * 2 ^ 8 + r.ecn * 2 ^ 24 + r.ts * 2 ^ 64 + r.detail * 2 ^ 96) (32 * w) 32

/-- The registers of DEVICE and FAULT that show other state (R3, R456, R457, R471, R473). -/
def State.deviceValue (s : State) (off : Nat) : Option Nat :=
  let f := s.fuses
  let e := (off - Reg.FAULT_ENTRY 0 0) / 0x10
  if off = Reg.DEVICE_ID then
    some (s.partNumber * 2 ^ 16 + f.tempGrade * 2 ^ 12 + f.revMajor * 2 ^ 8 + f.revMinor * 2 ^ 4)
  else if off = Reg.DEV_STRAPS then
    some (f.straps.port67 * 2 ^ 4 + bitAt f.straps.tioPullUp 3 + bitAt f.straps.chainFirst 2 + f.straps.bootMode)
  else if off = Reg.BOOT_STAT then some (putBits (putBits (s.rd off) 14 6 f.svnMin) 10 4 f.revoked)
  else if off = Reg.INT_PEND then some ((List.range 20).foldl (fun n i => n + bitAt (s.asserted i) i) 0)
  else if off = Reg.FAULT_WPOS then some s.faults.wpos
  else if Reg.FAULT_ENTRY 0 0 ≤ off then
    some (match s.faults.ring.get (fun _ => none) e with | some r => recordWord r (off % 0x10 / 4) | none => 0)
  else none

/-- The registers of POWER that show other state (R447, R449): a pin with VREF_ADAPT = 0 reads CODE = 0 and TRAINED = 0. -/
def State.powValue (s : State) (off : Nat) : Option Nat :=
  let d := (off - Reg.POW_DOM_STAT 0) / 4
  let i := (off - Reg.VREF_STAT 0) / 4
  if off = Reg.POW_DOM_STAT d ∧ Reg.POW_DOM_STAT 0 ≤ off ∧ d < 111 then some (s.domStat d + s.fld off 0 16)
  else if off = Reg.VREF_STAT i ∧ Reg.VREF_STAT 0 ≤ off ∧ i < 128 ∧ s.pinField i 13 1 = 0 then
    some (putBits (putBits (s.rd off) 0 6 0) 30 1 0)
  else none

/-- The value of a register that shows other state. SPOOR_STAT.AUTH shows that DBG_AUTH.LEVEL is ALL (R428). -/
def State.derived (s : State) (off : Nat) : Option Nat :=
  match off / 0x10_0000 with
  | 0x00 | 0x12 => s.deviceValue off
  | 0x01 => s.runValue off
  | 0x02 => s.fabValue off
  | 0x04 => s.dmValue off
  | 0x06 => s.netValue off
  | 0x07 => let b := (off - 0x70_0000) / 0x400; if off = Reg.LX_EG_LEVEL b then some (s.egLevel b) else none
  | 0x09 =>
    let k := (off - Reg.CNT_VALUE_LO 0) / 0x20
    let v := s.shownAcq.cnt.get (fun _ => 0) k
    if off = Reg.ACQ_STAT then some s.acqStat
    else if off = Reg.CNT_VALUE_LO k then some v
    else if off = Reg.CNT_VALUE_HI k then some (v / 2 ^ 32)
    else none
  | 0x0A =>
    if off = Reg.TB1_STAT then some s.tb1Stat
    else if off = Reg.TB1_OFFSET 0 then some (s.tb1OffsetReg 0)
    else if off = Reg.TB1_OFFSET 1 then some (s.tb1OffsetReg 1)
    else if off = Reg.TB0_LO then some s.time.tb0
    else none
  | 0x0B => s.badgerValue off
  | 0x0C =>
    let a := (off - Reg.MB_PEND_LO 0) / 8
    if off = Reg.MB_PEND_LO a then some (s.mbPend a)
    else if off = Reg.MB_PEND_HI a then some (s.mbPend a / 2 ^ 32)
    else none
  | 0x10 => if off = Reg.SPOOR_STAT then some (putBits (s.rd off) 28 1 (if s.fld Reg.DBG_AUTH 0 2 = 2 then 1 else 0)) else none
  | 0x11 => s.powValue off
  | _ => none

/-- What register `off` shows, latches apart. -/
def State.shown (s : State) (off : Nat) : Nat := (s.derived off).getD (s.rd off) % 2 ^ 32

/-! ## Reads (R9, R24, R511) -/

/-- The _LO registers whose read latches the _HI register (R334, and the register sections of chapters 05-10, 12, 14,
17 and 18; R511). -/
def latchedLo : List RegSpec :=
  [
    ⟨Reg.CR_COMMITTED_LO, 1, 0x0, 1, 0x0, []⟩, ⟨Reg.CR_SEALED_LO, 1, 0x0, 1, 0x0, []⟩,
    ⟨Reg.ABORT_ECN_LO, 1, 0x0, 1, 0x0, []⟩, ⟨Reg.HALT_ECN_LO, 1, 0x0, 1, 0x0, []⟩,
    ⟨Reg.SNAP_ECN_LO, 1, 0x0, 1, 0x0, []⟩, ⟨Reg.REPLAY_LIMIT_LO, 1, 0x0, 1, 0x0, []⟩,
    ⟨Reg.SNAP_BASE_LO, 1, 0x0, 1, 0x0, []⟩, ⟨Reg.JRNL_HEAD_LO, 1, 0x0, 1, 0x0, []⟩,
    ⟨Reg.JRNL_TAIL_LO, 1, 0x0, 1, 0x0, []⟩, ⟨Reg.JRNL_TAIL_ECN_LO, 1, 0x0, 1, 0x0, []⟩,
    ⟨Reg.MAP_SWAP_ECN_LO, 1, 0x0, 1, 0x0, []⟩, ⟨Reg.CMD_TARGET_LO, 1, 0x0, 1, 0x0, []⟩,
    ⟨Reg.CMD_ACTED_LO, 1, 0x0, 1, 0x0, []⟩, ⟨Reg.RC_NEXT_ECN_LO, 1, 0x0, 1, 0x0, []⟩,
    ⟨Reg.RC_RUN_START_LO, 1, 0x0, 1, 0x0, []⟩, ⟨Reg.PAUSE_AT_LO, 1, 0x0, 1, 0x0, []⟩,
    ⟨Reg.DMA_RING_BASE_LO 0, 8, 0x40, 1, 0x0, []⟩, ⟨Reg.MP_IN_BASE_LO 0, 16, 0x40, 1, 0x0, []⟩,
    ⟨Reg.MP_IN_WRITE_POS_LO 0, 16, 0x40, 1, 0x0, []⟩, ⟨Reg.MP_IN_HEAD_POS_LO 0, 16, 0x40, 1, 0x0, []⟩,
    ⟨Reg.MP_IN_RELEASE_POS_LO 0, 16, 0x40, 1, 0x0, []⟩, ⟨Reg.MP_IN_KEEP_POS_LO 0, 16, 0x40, 1, 0x0, []⟩,
    ⟨Reg.MP_OUT_BASE_LO 0, 16, 0x40, 1, 0x0, []⟩, ⟨Reg.MP_OUT_WRITE_POS_LO 0, 16, 0x40, 1, 0x0, []⟩,
    ⟨Reg.MP_OUT_READ_POS_LO 0, 16, 0x40, 1, 0x0, []⟩, ⟨Reg.SPOOR_FAB_CL_LO, 1, 0x0, 1, 0x0, []⟩,
    ⟨Reg.DF_LO 0, 4, 0x10, 1, 0x0, []⟩, ⟨Reg.SPOOR_WRITE_POS_LO, 1, 0x0, 1, 0x0, []⟩,
    ⟨Reg.SPOOR_TRIG_POS_LO, 1, 0x0, 1, 0x0, []⟩, ⟨Reg.SPOOR_STOP_POS_LO, 1, 0x0, 1, 0x0, []⟩,
    ⟨Reg.LX_IN_WRITE_POS_LO 0, 8, 0x400, 1, 0x0, []⟩, ⟨Reg.LX_IN_HEAD_POS_LO 0, 8, 0x400, 1, 0x0, []⟩,
    ⟨Reg.LX_IN_RELEASE_POS_LO 0, 8, 0x400, 1, 0x0, []⟩, ⟨Reg.LX_IN_KEEP_POS_LO 0, 8, 0x400, 1, 0x0, []⟩,
    ⟨Reg.LX_PACE_N0_LO 0, 8, 0x400, 1, 0x0, []⟩, ⟨Reg.LX_PACE_T0_LO 0, 8, 0x400, 1, 0x0, []⟩,
    ⟨Reg.LX_EG_LAST_LAUNCH_LO 0, 8, 0x400, 1, 0x0, []⟩, ⟨Reg.ACQ_PROBE_SEL_LO, 1, 0x0, 1, 0x0, []⟩,
    ⟨Reg.ACQ_QUAL_MASK_LO, 1, 0x0, 1, 0x0, []⟩, ⟨Reg.ACQ_ARM_ECN_LO, 1, 0x0, 1, 0x0, []⟩,
    ⟨Reg.ACQ_TRIG_ECN_LO, 1, 0x0, 1, 0x0, []⟩, ⟨Reg.ACQ_TRIG_POS_LO, 1, 0x0, 1, 0x0, []⟩,
    ⟨Reg.ACQ_FIRST_POS_LO, 1, 0x0, 1, 0x0, []⟩, ⟨Reg.ACQ_WRITE_POS_LO, 1, 0x0, 1, 0x0, []⟩,
    ⟨Reg.CMP_VALUE_LO 0, 16, 0x20, 1, 0x0, []⟩, ⟨Reg.CMP_MASK_LO 0, 16, 0x20, 1, 0x0, []⟩,
    ⟨Reg.CNT_LIMIT_LO 0, 8, 0x20, 1, 0x0, []⟩, ⟨Reg.CNT_VALUE_LO 0, 8, 0x20, 1, 0x0, []⟩,
    ⟨Reg.BR_MASK_LO 0 0, 16, 0x20, 2, 0x10, []⟩, ⟨Reg.TH_HI_LO 0, 4, 0x100, 1, 0x0, []⟩,
    ⟨Reg.TH_LO_LO 0, 4, 0x100, 1, 0x0, []⟩, ⟨Reg.RES_START_ECN_LO 0, 4, 0x100, 1, 0x0, []⟩,
    ⟨Reg.RES_MIN_LO 0, 4, 0x100, 1, 0x0, []⟩, ⟨Reg.RES_MIN_ECN_LO 0, 4, 0x100, 1, 0x0, []⟩,
    ⟨Reg.RES_MAX_LO 0, 4, 0x100, 1, 0x0, []⟩, ⟨Reg.RES_MAX_ECN_LO 0, 4, 0x100, 1, 0x0, []⟩,
    ⟨Reg.RES_MEAN_LO 0, 4, 0x100, 1, 0x0, []⟩, ⟨Reg.RES_RMS_LO 0, 4, 0x100, 1, 0x0, []⟩,
    ⟨Reg.RES_AMPL_LO 0, 4, 0x100, 1, 0x0, []⟩, ⟨Reg.RES_TOGGLES_LO 0, 4, 0x100, 1, 0x0, []⟩,
    ⟨Reg.DSP_ACC_LO 0, 4, 0x8, 1, 0x0, []⟩, ⟨Reg.DSP_MIN_LO, 1, 0x0, 1, 0x0, []⟩,
    ⟨Reg.DSP_MAX_LO, 1, 0x0, 1, 0x0, []⟩, ⟨Reg.DSP_CHAIN_LO, 1, 0x0, 1, 0x0, []⟩,
    ⟨Reg.BG_BOOT_LO 0, 8, 0x10, 1, 0x0, []⟩, ⟨Reg.DISP_TICK_LO, 1, 0x0, 1, 0x0, []⟩,
    ⟨Reg.DISP_TAG_LO 0, 1024, 0x10, 1, 0x0, []⟩, ⟨Reg.MB_PEND_LO 0, 9, 0x8, 1, 0x0, []⟩,
    ⟨Reg.ENERGY_LO, 1, 0x0, 1, 0x0, []⟩, ⟨Reg.LANE_BITS_LO 0 0, 8, 0x1000, 8, 0x40, []⟩,
    ⟨Reg.LANE_ERRS_LO 0 0, 8, 0x1000, 8, 0x40, []⟩]

/-- A read of `off` latches its _HI register. -/
def isLatchedLo (off : Nat) : Bool := latchedLo.any (fun r => r.hits off)

/-- Put a value into the latch of a _HI register. -/
def State.setLatch (s : State) (off v : Nat) : State :=
  { s with latchHi := s.latchHi.set (fun _ => 0) off (BitVec.ofNat 32 v) }

/-- The latch of a _HI register; 0 before the first read of _LO (R511). -/
def State.latchOf (s : State) (off : Nat) : Nat := (s.latchHi.get (fun _ => 0) off).toNat

/-- A read of TB0_LO latches the seven values that belong with it (R334). -/
def State.latchTimes (s : State) : State :=
  let t := s.time
  let n := s.latestBegun
  ((((((s.setLatch Reg.TB0_HI (t.tb0 / 2 ^ 32)).setLatch Reg.TB1_LO t.tb1).setLatch Reg.TB1_HI (t.tb1 / 2 ^ 32)).setLatch
    Reg.TB2_LO n).setLatch Reg.TB2_HI (n / 2 ^ 32)).setLatch Reg.TB0_EPOCH (t.tb0 / 2 ^ 32)).setLatch
    Reg.TB1_EPOCH (t.tb1 / 2 ^ 32)

/-- The registers that hold what a read of TB0_LO latched. -/
def isTimeLatch (off : Nat) : Bool := decide (Reg.TB0_HI ≤ off) && decide (off ≤ Reg.TB1_EPOCH) && decide (off % 4 = 0)

/-- The value with the WO fields reading 0 (R9). -/
def readable (fs : List FieldSpec) (v : Nat) : Nat :=
  fs.foldl (fun n f => if f.acc = .wo then putBits n f.lsb f.width 0 else n) v

/-- The RC fields take their reset value once read (R9). -/
def State.rcClear (s : State) (fs : List FieldSpec) (off : Nat) : State :=
  fs.foldl (fun (s : State) f => if f.acc = .rc then s.setFld off f.lsb f.width f.reset else s) s

/-- The debug module of the cores (R463): its content is the RISC-V specification's (log 8). -/
def inDebugModule (off : Nat) : Bool := decide (0x8000 ≤ off) && decide (off < 0x8200)

/-- LANE_RXEQ of a lane that carries symbols shows what it has adapted to by now (R186); in RETAIN the values are kept. -/
def State.refreshRxeq (s : State) (off : Nat) : State :=
  let p := (off - 0x50_0000) / 0x1000
  let n := (off % 0x1000 - 0x100) / 0x40
  if 0x50_0000 ≤ off ∧ p < 8 ∧ n < 8 ∧ off = Reg.LANE_RXEQ p n ∧ s.domState (65 + p) < 2 ∧
      !s.flag (Reg.LANE_STAT p n) 31 ∧ s.flag (Reg.LANE_STAT p n) 29 then s.adapt p n else s

/-- A 32-bit read of the register at `off`, in its block. -/
def State.readReg (s : State) (init : Initiator) (off : Nat) : Nat × State :=
  if s.absentWindow off then (0, s)
  else if inDebugModule off then let (x, s) := s.free; (x.toNat % 2 ^ 32, s)
  else if off = Reg.SPOOR_BUF_DATA then s.spBufRead
  else if off = Reg.FAB_STEP_PS then s.stepPs
  else match regAt off with
    | none => (0, s.reservedAccess init off)
    | some spec =>
      let s := s.refreshRxeq off
      if isTimeLatch off then (s.latchOf off, s)
      else if off = Reg.TB0_LO then (s.shown off, s.latchTimes)
      else if 4 ≤ off ∧ isLatchedLo (off - 4) then (s.latchOf off, s)
      else
        let v := readable spec.fields (s.shown off)
        let s := if isLatchedLo off then s.setLatch (off + 4) (s.shown (off + 4)) else s
        (v, s.rcClear spec.fields off)

/-! ## Writes -/

/-- A write of the enable register of source `i` may assert it (R473, R474); `t` is the state after the write. -/
def State.enableEdges (s t : State) (off i : Nat) : State :=
  if intStatOf i = some (off - 4) then State.irqEdges s t [i] else t

/-- A 32-bit write of the register at `off`, in its block (R9, R10, R26). -/
def State.writeReg (s : State) (init : Initiator) (off v : Nat) : State :=
  if s.absentWindow off ∨ inDebugModule off then s
  else if (regAt off).isNone then s.reservedAccess init off
  else match off / 0x10_0000 with
    | 0x00 => s.writeDevice init off v
    | 0x01 => s.writeRunctl init off v
    | 0x02 => s.writeFabric init off v
    | 0x04 => s.writeDmemq init off v
    | 0x05 => s.writeLanes init off v
    | 0x06 => s.writeSysnet init off v
    | 0x07 => s.writeLynx init off v
    | 0x08 => s.writeShale init off v
    | 0x09 => s.enableEdges (s.writeAcq init off v) off 9
    | 0x0A => s.enableEdges (s.writeTime init off v) off 10
    | 0x0B => s.enableEdges (s.writeBadger init off v) off 11
    | 0x0C => s.writeMailbox init off v
    | 0x0D => s.enableEdges (s.writeRing init off v) off 13
    | 0x0E => s.enableEdges (s.writeSpad init off v) off 14
    | 0x0F => s.enableEdges (s.writeCrypt init off v) off 15
    | 0x10 => s.enableEdges (s.writeSpoor init off v) off 16
    | 0x11 => s.writePower init off v
    | _ => s.writeFault init off v

/-! ## Accesses -/

/-- A request for a fenced target wakes the target's domains, and is then delivered (R388; at once, log 27); serving it is work for
the domain `d` that it is for (R437). -/
def State.reach (s : State) (t : Nat) (d : Option Nat) : State :=
  let s := if s.parks t then (s.livingDoms t).foldl (fun (s : State) d => s.wakeDom d) s else s
  match d with
  | some d => if (s.dom d).level < 2 ∧ (s.dom d).goal.isNone then s.touch d else s
  | none => s

/-- What every access to a register block meets: a SYSTEM reset (R454), an isolated target (R385), a fenced one (R388); what it does
there is `f`, after which domains wake that must. -/
def State.toBlock (s : State) (a : RegAcc) (f : State → State) : State :=
  if s.deaf a.init a.off then s.answer 0
  else if s.isolated (targetOf a.off) then s.busError
  else (f (s.reach (targetOf a.off) (regDomain a.off))).showEpr.settlePower

/-- An access to the registers of a block (R25). -/
def State.regMove (s : State) (a : RegAcc) (write : Option Nat) : State :=
  s.byWidth a write (fun s off _ => s.readReg a.init off) (fun s off _ v => s.writeReg a.init off v)

/-- An access to the CSR window (R25, R287). What user logic in Shale answers in its register window is not seen here: a free value
(log 7). -/
def State.csrAccess (s : State) (a : RegAcc) (write : Option Nat) : State :=
  s.toBlock a fun s =>
    if inWindow a.off then
      match write with
      | some v => s.windowAccess a (some v) (some 0)
      | none => let (x, s) := s.free; s.windowAccess a none (some x.toNat)
    else s.regMove a write

/-- REGISTER_WINDOW_ACCESS (R287): `answer` is Shale's RW_RDATA, two words for a 64-bit read. -/
def execRegisterWindowAccess (a : RegAcc) (write : Option Nat) (answer : Nat) (s : State) :
    Host.Outcome State Fault Refusal :=
  if inWindow a.off then ok (s.toBlock a fun s => s.windowAccess a write (some answer)) else ok s

/-- SH_WIN_NO_RESPONSE (R287): no RW_ACK within 1 µs. -/
def execShWinNoResponse (a : RegAcc) (write : Option Nat) (s : State) : Host.Outcome State Fault Refusal :=
  if inWindow a.off then ok (s.toBlock a fun s => s.windowAccess a write none) else ok s

/-- `n` bytes of a scratchpad, or of one of its aliases, at address `addr` (R389-R391). -/
def State.spadMove (s : State) (init : Initiator) (sp : Space) (addr n : Nat) (write : Option Nat) : State :=
  let k := addr / 2 ^ 18 % 16; let o := addr % 2 ^ 18
  if s.isolated (32 + k) then s.busError
  else match write with
    | none =>
      let (bad, m, s) := s.spadRead init k o n
      { s with bus := { data := m.foldl (fun v e => v + e.2.toNat * 256 ^ e.1) 0, err := bad } }
    | some v =>
      if sp = .spad then
        let (bad, s) := s.spadWrite init k o ((List.range n).zip (bytesOfNat v n))
        { s with bus := { data := 0, err := bad } }
      else s.aliasWrite (decide (sp = .setAlias)) init k o n v

/-- `n` bytes of the boot ROM; a write is one to reserved space (R24). -/
def State.romMove (s : State) (init : Initiator) (addr n : Nat) (write : Option Nat) : State :=
  if s.isolated 27 then s.busError
  else match write with
  | some _ => (s.reservedAccess init (addr % 2 ^ 32)).answer 0
  | none => s.answer (natOfBytes ((List.range n).map (fun i => Config.bootRom (addr - 0x40_4000_0000 + i))))

/-- An access to the internal space above the DDR (R23, R24): the CSR window, the scratchpads and their aliases, the boot ROM,
the port and mailbox window, or reserved space. -/
def State.regAccess (s : State) (a : RegAcc) (write : Option Nat) : State :=
  let addr := 0x40_0000_0000 + a.off
  let n := a.width / 8
  if a.off < 2 ^ 26 then s.csrAccess a write
  else if s.hostDeaf a.init then s.answer 0
  else match s.spaceOf addr 1 with
    | .spad => s.spadMove a.init .spad addr n write
    | .setAlias => s.spadMove a.init .setAlias addr n write
    | .clearAlias => s.spadMove a.init .clearAlias addr n write
    | .rom => s.romMove a.init addr n write
    | .window => (s.onWindow a.init fun s => s.portWindow a.init (a.off - 0x8000_0000) a.width write).settlePower
    | .ddr | .csr | .reserved => (s.reservedAccess a.init (a.off % 2 ^ 32)).answer 0

/-- REGISTER_WRITE (R9, R10, R24, R25, R30, R31, R509): a write to the internal space above the DDR. -/
def execRegisterWrite (a : RegAcc) (v : Nat) (s : State) : Host.Outcome State Fault Refusal :=
  ok (s.regAccess a (some v))

/-- The port that a record names for the map entry that MAP_RD_SEL selects: that of a receive entry (R231; DEDUCED, log
91). -/
def State.mapPort (s : State) : Nat :=
  let r := s.rd Reg.MAP_RD_SEL
  if bits r 29 2 = 1 then bits r 0 18 / 8192 % 8 else 0

/-- RC_READ (R9): a read, with the effect of RC fields. `err` is what the check of the map entry finds where MAP_RD_DATA is
read (R231). -/
def execRcRead (a : RegAcc) (err : Option Bool) (s : State) : Host.Outcome State Fault Refusal :=
  let s := match err with
    | some double => if a.off = Reg.MAP_RD_DATA then s.mapUpset s.mapPort double else s
    | none => s
  ok (s.regAccess a none)

/-- LO_READ_LATCH (R334, R511): a read of a register, with its latch. -/
def execLoReadLatch (a : RegAcc) (s : State) : Host.Outcome State Fault Refusal := ok (s.regAccess a none)

/-! ## BAR2 (R28, R510) -/

/-- `n` bytes of DDR at `addr`, read or written by host MMIO. -/
def State.hostDdr (s : State) (addr n : Nat) (data : Option (List Byte)) : State :=
  if n = 0 then s
  else match data with
    | none => match s.ddrGet .hostMmio .read addr n with
      | (.ok m, s) => s.answer (m.foldl (fun v e => v + e.2.toNat * 256 ^ e.1) 0)
      | (.error (e, _), s) => s.endsWith .hostMmio false e
    | some l => match s.ddrPut .hostMmio .write addr n (mapOfBytes (l.take n)) with
      | (none, s) => s.answer 0
      | (some (e, _), s) => s.endsWith .hostMmio true e

/-- `n` bytes of the scratchpads at `addr`, packet by packet (R380). -/
def State.hostSpad (s : State) (addr n : Nat) (data : Option (List Byte)) : State :=
  (packetsOf addr n).foldl (fun (s : State) p =>
    let k := p.1 / 2 ^ 18; let o := p.1 % 2 ^ 18
    if s.isolated (32 + k) then { s with bus := { s.bus with err := true } }
    else match data with
      | none =>
        let (bad, m, s) := s.spadRead .hostMmio k o p.2
        let v := m.foldl (fun v e => v + e.2.toNat * 256 ^ (e.1 + (p.1 - addr))) 0
        { s with bus := { data := s.bus.data + v, err := s.bus.err || bad } }
      | some l =>
        let (bad, s) := s.spadWrite .hostMmio k o ((List.range p.2).zip ((l.drop (p.1 - addr)).take p.2))
        { s with bus := { s.bus with err := s.bus.err || bad } }) s

/-- BAR2_ACCESS (R28): `n` bytes at BAR2 offset `off`, read (`data` none) or written; during a SYSTEM reset both CRYPT and the
scratchpads are in its scope (R454). -/
def execBar2Access (off n : Nat) (data : Option (List Byte)) (s : State) : Host.Outcome State Fault Refusal :=
  let size := 2 ^ s.fld Reg.BAR2_CTRL 0 6
  let top := if s.flag Reg.BAR2_CTRL 24 then size - 2 ^ 22 else size
  if size < off + n then ok s
  else if s.boot.inReset then ok (s.answer 0)
  else
    let s := s.answer 0
    let k := min n (top - off)
    let s1 := s.hostDdr (s.fld Reg.BAR2_CTRL 8 8 * 2 ^ 30 + off) k data
    if k = n then ok s1
    else
      let lo := s1.bus.data
      let s2 := (s1.answer 0).hostSpad (off + k - top) (n - k) (data.map (·.drop k))
      ok { s2 with bus := { data := lo + s2.bus.data * 256 ^ k, err := s1.bus.err || s2.bus.err } }

/-! ## The debug path (R461-R463) -/

/-- Reach of DBG_ACCESS (R463). -/
def State.dbgReach (s : State) (level addr : Nat) : Bool :=
  let off := addr - 0x40_0000_0000
  let csr := decide (0x40_0000_0000 ≤ addr) && decide (off < 2 ^ 26)
  let bank := (addr - 0x40_1000_0000) / 2 ^ 18 % 16
  let spad := decide (0x40_1000_0000 ≤ addr) && decide (addr < 0x40_3040_0000) && decide (addr / 2 ^ 22 % 64 = 0)
  if level = 2 then true
  else if level = 1 then
    !(csr && decide (off / 0x10_0000 = 0x0F)) && !(spad && decide (s.fld (Reg.SPAD_OWNER bank) 0 4 = 0))
  else csr && (decide (off = Reg.DEVICE_ID) || decide (off = Reg.DBG_CHAL_LO) || decide (off = Reg.DBG_CHAL_HI) ||
    (List.range 16).any (fun i => off = Reg.DBG_RESP i))

/-- A core enters or leaves debug halt through its debug module (R360, R463). -/
def State.dbgHalt (s : State) (level : Nat) : Option (Nat × Bool) → State
  | none => s
  | some (k, on) =>
    if 8 ≤ k ∨ level = 0 ∨ (level = 1 ∧ k = 0) ∨ (s.core k).state = 0 then s
    else if on then
      if s.dbg.halted.contains k then s
      else
        let s := s.modCore k fun c => { c with state := 4 }
        ({ s with dbg := { s.dbg with halted := k :: s.dbg.halted } } : State).enterOrderly 1
    else if s.dbg.halted.contains k then
      let s := s.coreResumes k
      { s with dbg := { s.dbg with halted := s.dbg.halted.filter (· ≠ k) } }
    else s

/-- A 32-bit access of the debug initiator within its reach; `moduleData` is what the debug module answers, `halt` what
the write does to a core there (log 8). -/
def State.dbgMove (s : State) (level : Nat) (write : Bool) (addr data moduleData : Nat) (halt : Option (Nat × Bool)) :
    State :=
  let put := if write then some data else none
  match s.spaceOf addr 4 with
  | .csr =>
    let off := addr - 0x40_0000_0000
    if inDebugModule off then (if write then (s.dbgHalt level halt).answer 0 else s.answer (moduleData % 2 ^ 32))
    else s.regAccess ⟨if level = 2 ∧ write then .core 0 else .debug, off, 32⟩ put
  | .ddr =>
    if write then match s.ddrPut .debug .write addr 4 (mapOfBytes (bytesOfNat data 4)) with
      | (none, s) => s.answer 0
      | (some _, s) => s.busError
    else match s.ddrGet .debug .read addr 4 with
      | (.ok m, s) => s.answer (m.foldl (fun v e => v + e.2.toNat * 256 ^ e.1) 0)
      | (.error _, s) => s.busError
  | .spad => s.spadMove .debug .spad addr 4 put
  | .setAlias => s.spadMove .debug .setAlias addr 4 put
  | .clearAlias => s.spadMove .debug .clearAlias addr 4 put
  | .rom => s.romMove .debug addr 4 put
  | .window => s.onWindow .debug fun s => s.portWindow .debug (addr - 0x40_8000_0000) 32 put
  | .reserved => (s.reservedAccess .debug (addr % 2 ^ 32)).answer 0

/-- DBG_ACCESS (R461-R463): one 32-bit access, for core `core` where a bank is concerned. The capture register keeps
the data of the latest read, and whether it got an error response. -/
def execDbgAccess (core : Nat) (write : Bool) (addr data : Nat) (moduleData : Nat) (halt : Option (Nat × Bool)) (s : State) :
    Host.Outcome State Fault Refusal :=
  let s := s.tapIr 0x11
  let s : State := { s with dbg := { s.dbg with core := core % 8 } }
  let level := s.fld Reg.DBG_AUTH 0 2
  let s := if s.dbgReach level addr then s.dbgMove level write addr data moduleData halt else s.busError
  if write then ok s else ok { s with dbg := { s.dbg with data := s.bus.data, err := s.bus.err } }

end Sys2Proof.Machine
end

