-- ==== Sys2Proof/Machine/Commands.lean ====
section
/-!
DEFINITION. The rows that are a write, or a read, of one register (log 78), and the tick of the clock (log 3). Such a row is the
same access as REGISTER_WRITE or RC_READ makes, so it meets what every access meets: a SYSTEM reset (R454), an isolated target
(R385), a fenced one (R388), the rights and the clamps of the register (R9, R10).
-/

namespace Sys2Proof.Machine

/-- The initiator writes `v` to register `off`, 32 bits wide. -/
def State.writeRow (s : State) (init : Initiator) (off v : Nat) : State := s.csrAccess ⟨init, off, 32⟩ (some v)

/-- The initiator writes the register with the field `[lsb, lsb + width)` changed, the others as they are held. -/
def State.fieldRow (s : State) (init : Initiator) (off lsb width v : Nat) : State :=
  s.writeRow init off (putBits (s.rd off) lsb width v)

/-! ## Run control (R239, R241-R245) -/

/-- NONE (R239): a write of CMD with a code that R239 does not list; the other codes have rows of their own. -/
def execCmdNone (w : CmdWrite) (code : Nat) (s : State) : Host.Outcome State Fault Refusal :=
  ok (if cmdCodes.contains (code % 256) then s else s.writeRow w.init Reg.CMD (cmdWord w code))

/-- LOAD_BEGIN (R241). -/
def execLoadBegin (w : CmdWrite) (s : State) : Host.Outcome State Fault Refusal :=
  ok (s.writeRow w.init Reg.CMD (cmdWord w 0x01))

/-- LOAD_END (R241, R468). -/
def execLoadEnd (w : CmdWrite) (s : State) : Host.Outcome State Fault Refusal :=
  ok (s.writeRow w.init Reg.CMD (cmdWord w 0x02))

/-- UNLOAD (R239). -/
def execUnload (w : CmdWrite) (s : State) : Host.Outcome State Fault Refusal :=
  ok (s.writeRow w.init Reg.CMD (cmdWord w 0x03))

/-- RUN (R245). -/
def execRun (w : CmdWrite) (s : State) : Host.Outcome State Fault Refusal :=
  ok (s.writeRow w.init Reg.CMD (cmdWord w 0x10))

/-- STEP (R245). -/
def execStep (w : CmdWrite) (s : State) : Host.Outcome State Fault Refusal :=
  ok (s.writeRow w.init Reg.CMD (cmdWord w 0x11))

/-- PAUSE (R245). -/
def execPause (w : CmdWrite) (s : State) : Host.Outcome State Fault Refusal :=
  ok (s.writeRow w.init Reg.CMD (cmdWord w 0x12))

/-- REWIND (R141, R244). -/
def execRewind (w : CmdWrite) (s : State) : Host.Outcome State Fault Refusal :=
  ok (s.writeRow w.init Reg.CMD (cmdWord w 0x13))

/-- HALT (R244). -/
def execHalt (w : CmdWrite) (s : State) : Host.Outcome State Fault Refusal :=
  ok (s.writeRow w.init Reg.CMD (cmdWord w 0x14))

/-! ## Loads and the journal (R65, R154, R166, R210, R211) -/

/-- IMEM_LOAD (R65): IMEM_CTRL.LOAD. -/
def execImemLoad (init : Initiator) (c : Nat) (withInit : Bool) (s : State) : Host.Outcome State Fault Refusal :=
  ok (s.writeRow init (Reg.IMEM_CTRL (c % 64)) (2 ^ 31 + if withInit then 1 else 0))

/-- DM_LOAD (R154): DM_CTRL.LOAD. -/
def execDmLoad (init : Initiator) (c : Nat) (zero : Bool) (s : State) : Host.Outcome State Fault Refusal :=
  ok (s.writeRow init (Reg.DM_CTRL (c % 64)) (2 ^ 31 + if zero then 1 else 0))

/-- TAIL_SYNC (R166): JRNL_CFG.TAIL_SYNC. -/
def execTailSync (init : Initiator) (s : State) : Host.Outcome State Fault Refusal :=
  ok (s.fieldRow init Reg.JRNL_CFG 30 1 1)

/-- JRNL_TRIM (R166): a write of JRNL_TRIM_HI starts a trim. -/
def execJrnlTrim (init : Initiator) (v : Nat) (s : State) : Host.Outcome State Fault Refusal :=
  ok (s.writeRow init Reg.JRNL_TRIM_HI v)

/-- LOAD (R210): MAP_CTRL.LOAD. -/
def execLoad (init : Initiator) (s : State) : Host.Outcome State Fault Refusal :=
  ok (s.writeRow init Reg.MAP_CTRL (2 ^ 31))

/-- SWAP_NOW (R211): MAP_CTRL.SWAP_NOW. -/
def execSwapNow (init : Initiator) (s : State) : Host.Outcome State Fault Refusal :=
  ok (s.writeRow init Reg.MAP_CTRL (2 ^ 30))

/-- MAP_SWAP_ECN_HI (R211): a write of the register arms the swap at E. -/
def execMapSwapEcnHi (init : Initiator) (v : Nat) (s : State) : Host.Outcome State Fault Refusal :=
  ok (s.writeRow init Reg.MAP_SWAP_ECN_HI v)

/-! ## Lanes, Lynx and Shale (R174, R189, R190, R274, R291) -/

/-- TRAIN (R174): PORT_CTRL.TRAIN. -/
def execTrain (init : Initiator) (p : Nat) (s : State) : Host.Outcome State Fault Refusal :=
  ok (s.fieldRow init (Reg.PORT_CTRL (p % 8)) 31 1 1)

/-- DOWN (R174): PORT_CTRL.DOWN. -/
def execDown (init : Initiator) (p : Nat) (s : State) : Host.Outcome State Fault Refusal :=
  ok (s.fieldRow init (Reg.PORT_CTRL (p % 8)) 30 1 1)

/-- ERR_INJECT (R189): LANE_TEST.ERR_INJECT. -/
def execErrInject (init : Initiator) (p n : Nat) (s : State) : Host.Outcome State Fault Refusal :=
  ok (s.fieldRow init (Reg.LANE_TEST (p % 8) (n % 8)) 31 1 1)

/-- CNT_CLR (R190): LANE_TEST.CNT_CLR. -/
def execCntClr (init : Initiator) (p n : Nat) (s : State) : Host.Outcome State Fault Refusal :=
  ok (s.fieldRow init (Reg.LANE_TEST (p % 8) (n % 8)) 18 1 1)

/-- LX_EG_DISABLE (R274): LX_EG_CFG is written with EN = 0, its other fields as they stand. -/
def execLxEgDisable (init : Initiator) (b : Nat) (s : State) : Host.Outcome State Fault Refusal :=
  ok (s.fieldRow init (Reg.LX_EG_CFG (b % 8)) 31 1 0)

/-- LOAD (R291): SH_LOAD_CTRL is written with LOAD = 1 and SRC, PARK as it stands. `flash` is what a FLASH load that begins so finds
in the flash. -/
def execShLoad (init : Initiator) (src : Nat) (flash : List Byte) (s : State) : Host.Outcome State Fault Refusal :=
  let busy := s.shale.load.isSome
  let s := s.writeRow init Reg.SH_LOAD_CTRL (2 ^ 31 + src % 4 * 2 ^ 29 + s.fld Reg.SH_LOAD_CTRL 0 1)
  ok (if !busy && s.shale.load.any (fun x => x.src = 0) then s.shFlash flash else s)

/-! ## Acquisition and time (R319, R324, R326, R330, R337) -/

/-- ARM (R319): ACQ_CTRL.ARM. -/
def execArm (init : Initiator) (s : State) : Host.Outcome State Fault Refusal := ok (s.fieldRow init Reg.ACQ_CTRL 31 1 1)

/-- DISARM (R319): ACQ_CTRL.DISARM. -/
def execDisarm (init : Initiator) (s : State) : Host.Outcome State Fault Refusal := ok (s.fieldRow init Reg.ACQ_CTRL 30 1 1)

/-- RES_ACK (R326): the acknowledgement of a result block, by its sequence number; block 4 is that of the DSP. -/
def execResAck (init : Initiator) (block seq : Nat) (s : State) : Host.Outcome State Fault Refusal :=
  ok (s.writeRow init (blockBase (min block 4) + 4) (seq % 65536))

/-- MEAS_ENABLE (R324): MEAS_CFG.EN. -/
def execMeasEnable (init : Initiator) (m : Nat) (s : State) : Host.Outcome State Fault Refusal :=
  ok (s.fieldRow init (Reg.MEAS_CFG (m % 4)) 31 1 1)

/-- DSP_GO (R330): DSP_CTRL.GO. -/
def execDspGo (init : Initiator) (s : State) : Host.Outcome State Fault Refusal := ok (s.writeRow init Reg.DSP_CTRL (2 ^ 31))

/-- SET_NOW (R337): a write of TB0_CTRL with SET_NOW = 1. -/
def execSetNow (init : Initiator) (s : State) : Host.Outcome State Fault Refusal := ok (s.writeRow init Reg.TB0_CTRL (2 ^ 31))

/-- SET_AT_EDGE (R337): a write of TB0_CTRL with SET_AT_EDGE = 1. -/
def execSetAtEdge (init : Initiator) (s : State) : Host.Outcome State Fault Refusal :=
  ok (s.writeRow init Reg.TB0_CTRL (2 ^ 30))

/-- TB0_ADJ (R337): a write of TB0_ADJ. -/
def execTb0Adj (init : Initiator) (v : Nat) (s : State) : Host.Outcome State Fault Refusal := ok (s.writeRow init Reg.TB0_ADJ v)

/-! ## Badger cores and the dispatcher (R355, R360, R362) -/

/-- READY through the register (R362): a write of DISP_READY. -/
def execDispReady (init : Initiator) (v : Nat) (s : State) : Host.Outcome State Fault Refusal := ok (s.writeRow init Reg.DISP_READY v)

/-- POLICY (R360): DISP_CTRL.POLICY. -/
def execPolicy (init : Initiator) (v : Nat) (s : State) : Host.Outcome State Fault Refusal := ok (s.fieldRow init Reg.DISP_CTRL 0 1 v)

/-- RESET (R355, R356): BG_CORE_CTRL.RESET. -/
def execCoreReset (init : Initiator) (k : Nat) (s : State) : Host.Outcome State Fault Refusal :=
  ok (s.fieldRow init (Reg.BG_CORE_CTRL (k % 8)) 31 1 1)

/-- RUN (R355, R356): BG_CORE_CTRL.RUN. -/
def execCoreRun (init : Initiator) (k : Nat) (run : Bool) (s : State) : Host.Outcome State Fault Refusal :=
  ok (s.fieldRow init (Reg.BG_CORE_CTRL (k % 8)) 30 1 (if run then 1 else 0))

/-! ## Rings, scratchpads and memory protection (R386, R391, R409-R415) -/

/-- HANDOVER (R391 order 1): a write of SPAD_OWNER[k]. -/
def execHandover (init : Initiator) (k owner : Nat) (clear : Bool) (s : State) : Host.Outcome State Fault Refusal :=
  ok (s.writeRow init (Reg.SPAD_OWNER (k % 16)) ((if clear then 2 ^ 30 else 0) + owner % 16))

/-- RING_TARGET_RESTORED (R386): a write of 1 to the target's RING_ISO bit. -/
def execRingTargetRestored (init : Initiator) (t : Nat) (s : State) : Host.Outcome State Fault Refusal :=
  ok (if t < 28 then s.writeRow init Reg.RING_ISO_LO (2 ^ t)
      else if 32 ≤ t ∧ t < 48 then s.writeRow init Reg.RING_ISO_HI (2 ^ (t - 32)) else s)

/-- KEY_LOAD (R409): CRYPT_KEY_CMD with OP = LOAD and GO. -/
def execKeyLoad (init : Initiator) (slot : Nat) (s : State) : Host.Outcome State Fault Refusal :=
  ok (s.writeRow init Reg.CRYPT_KEY_CMD (2 ^ 31 + slot % 32))

/-- KEY_GEN (R409). -/
def execKeyGen (init : Initiator) (slot : Nat) (s : State) : Host.Outcome State Fault Refusal :=
  ok (s.writeRow init Reg.CRYPT_KEY_CMD (2 ^ 31 + 2 ^ 29 + slot % 32))

/-- KEY_ZERO (R409). -/
def execKeyZero (init : Initiator) (slot : Nat) (s : State) : Host.Outcome State Fault Refusal :=
  ok (s.writeRow init Reg.CRYPT_KEY_CMD (2 ^ 31 + 2 ^ 30 + slot % 32))

/-- REGION_ENABLE (R410): a write of CR_REG_CFG[r] with EN = 1. -/
def execRegionEnable (init : Initiator) (r word : Nat) (s : State) : Host.Outcome State Fault Refusal :=
  ok (s.writeRow init (Reg.CR_REG_CFG (r % 16)) (2 ^ 31 + word % 2 ^ 31))

/-- REKEY (R411): a write of CR_REG_CFG[r] with REKEY = 1. -/
def execRekey (init : Initiator) (r word : Nat) (s : State) : Host.Outcome State Fault Refusal :=
  ok (s.writeRow init (Reg.CR_REG_CFG (r % 16)) (word ||| 2 ^ 30))

/-- LOCK (R415): CRYPT_CTRL.LOCK. -/
def execCryptLock (init : Initiator) (s : State) : Host.Outcome State Fault Refusal := ok (s.writeRow init Reg.CRYPT_CTRL (2 ^ 31))

/-! ## Spoor (R426, R428, R434) -/

/-- START (R426): SPOOR_CTRL.START. -/
def execStart (init : Initiator) (s : State) : Host.Outcome State Fault Refusal := ok (s.writeRow init Reg.SPOOR_CTRL (2 ^ 31))

/-- STOP (R426): SPOOR_CTRL.STOP. -/
def execStop (init : Initiator) (s : State) : Host.Outcome State Fault Refusal := ok (s.writeRow init Reg.SPOOR_CTRL (2 ^ 30))

/-- TRIGGER (R426): SPOOR_CTRL.TRIGGER. -/
def execTrigger (init : Initiator) (s : State) : Host.Outcome State Fault Refusal := ok (s.writeRow init Reg.SPOOR_CTRL (2 ^ 29))

/-- SCOPE (R428): a write of SPOOR_SCOPE. -/
def execScope (init : Initiator) (v : Nat) (s : State) : Host.Outcome State Fault Refusal := ok (s.writeRow init Reg.SPOOR_SCOPE v)

/-- SPOOR_BUF_DATA (R425, R434): a read of the register. `struck`: the soft errors that have struck the buffer since the row
before. -/
def execSpoorBufData (init : Initiator) (struck : List (Nat × Bool)) (s : State) : Host.Outcome State Fault Refusal :=
  ok ((s.spStrike struck).csrAccess ⟨init, Reg.SPOOR_BUF_DATA, 32⟩ none)

/-! ## Power, reset and debug (R440, R441, R454, R463) -/

/-- POW_LTR (R440): a write of POW_LTR[g]. -/
def execPowLtr (init : Initiator) (g v : Nat) (s : State) : Host.Outcome State Fault Refusal :=
  ok (s.writeRow init (Reg.POW_LTR (g % 8)) v)

/-- PMBUS_EN (R441): PMBUS_CFG.EN = 1, the other fields as held. Where it was 0, VOUT_MODE reads `mode`, none where the regulator
does not acknowledge. -/
def execPmbusEn (init : Initiator) (mode : Option Nat) (s : State) : Host.Outcome State Fault Refusal :=
  let was := s.flag Reg.PMBUS_CFG 31
  let s := s.fieldRow init Reg.PMBUS_CFG 31 1 1
  ok (if !was && s.flag Reg.PMBUS_CFG 31 then (s.pmbusOwed mode).2 else s)

/-- DEV_RST (R454): a write of the register. -/
def execDevRst (init : Initiator) (v : Nat) (s : State) : Host.Outcome State Fault Refusal := ok (s.writeRow init Reg.DEV_RST v)

/-- DBG_AUTH_CHANGED (R463): a write of DBG_AUTH.LEVEL, REQ untouched. -/
def execDbgAuthChanged (init : Initiator) (level : Nat) (s : State) : Host.Outcome State Fault Refusal :=
  ok (s.writeRow init Reg.DBG_AUTH (level % 4))

/-! ## The clock -/

/-- One tick of 10 ns with no command waiting: the time bases advance (R334-R344), the ports train and send, Spoor's queue drains to
DDR (R424), and the power domains note their idle times and wake where they must (R437, R439). Nothing runs while a rail is low
(R487). -/
def State.tick (s : State) : State :=
  if s.boot.low then s else s.timeTick.dueTraining.passLines.shaleTick.spDrainAll.showEpr.idleTimes.settlePower

end Sys2Proof.Machine
end

