-- ==== Sys2Proof/Machine/Dispatch.lean ====
section
/-!
DEFINITION. The meaning of every command: one arm for each constructor of `Instr`, each one call of its meaning.
-/

namespace Sys2Proof.Machine

/-- The effect of a command on everything but the queue. -/
def exec (i : Instr) (s : State) : Host.Outcome State Fault Refusal :=
  match i with
  | .cycleStart errs => Sys2Proof.Machine.execCycleStart errs s
  | .nop b => Sys2Proof.Machine.execNop b s
  | .lut b => Sys2Proof.Machine.execLut b s
  | .send b => Sys2Proof.Machine.execSend b s
  | .memb b => Sys2Proof.Machine.execMemb b s
  | .arib b => Sys2Proof.Machine.execArib b s
  | .portb b => Sys2Proof.Machine.execPortb b s
  | .probe b => Sys2Proof.Machine.execProbe b s
  | .trigb b => Sys2Proof.Machine.execTrigb b s
  | .waitq b => Sys2Proof.Machine.execWaitq b s
  | .waitp b => Sys2Proof.Machine.execWaitp b s
  | .pop b => Sys2Proof.Machine.execPop b s
  | .mark b => Sys2Proof.Machine.execMark b s
  | .endBp b => Sys2Proof.Machine.execEndBp b s
  | .reservedOpcode b => Sys2Proof.Machine.execReservedOpcode b s
  | .xqResponse cluster serial failed => Sys2Proof.Machine.execXqResponse cluster serial failed s
  | .fabStallWatchdog cluster => Sys2Proof.Machine.execFabStallWatchdog cluster s
  | .backgroundPassRead cluster err => Sys2Proof.Machine.execBackgroundPassRead cluster err s
  | .commit errs => Sys2Proof.Machine.execCommit errs s
  | .committed h w => Sys2Proof.Machine.execCommitted h w s
  | .globalSeal h w => Sys2Proof.Machine.execGlobalSeal h w s
  | .drainWrite failed => Sys2Proof.Machine.execDrainWrite failed s
  | .abortUp h n dev => Sys2Proof.Machine.execAbortUp h n dev s
  | .abort h n => Sys2Proof.Machine.execAbort h n s
  | .rollback errs => Sys2Proof.Machine.execRollback errs s
  | .rolledBack h n => Sys2Proof.Machine.execRolledBack h n s
  | .replayGo h n gen => Sys2Proof.Machine.execReplayGo h n gen s
  | .schedStop h n dev => Sys2Proof.Machine.execSchedStop h n dev s
  | .schedPause h target => Sys2Proof.Machine.execSchedPause h target s
  | .haltReport h dev => Sys2Proof.Machine.execHaltReport h dev s
  | .systemHalt h ecn dev => Sys2Proof.Machine.execSystemHalt h ecn dev s
  | .haltDrainComplete => Sys2Proof.Machine.execHaltDrainComplete s
  | .snapshotCopyDone bankOnly errs => Sys2Proof.Machine.execSnapshotCopyDone bankOnly errs s
  | .rewindReport h e refused reason => Sys2Proof.Machine.execRewindReport h e refused reason s
  | .rewindGo h e gen => Sys2Proof.Machine.execRewindGo h e gen s
  | .rewindRestore => Sys2Proof.Machine.execRewindRestore s
  | .command h target cseq code param => Sys2Proof.Machine.execCommand h target cseq code param s
  | .commandRelay h target cseq code param => Sys2Proof.Machine.execCommandRelay h target cseq code param s
  | .cmdNone w code => Sys2Proof.Machine.execCmdNone w code s
  | .loadBegin w => Sys2Proof.Machine.execLoadBegin w s
  | .loadEnd w => Sys2Proof.Machine.execLoadEnd w s
  | .unload w => Sys2Proof.Machine.execUnload w s
  | .run w => Sys2Proof.Machine.execRun w s
  | .step w => Sys2Proof.Machine.execStep w s
  | .pause w => Sys2Proof.Machine.execPause w s
  | .rewind w => Sys2Proof.Machine.execRewind w s
  | .halt w => Sys2Proof.Machine.execHalt w s
  | .push init ch word => Sys2Proof.Machine.execPush init ch word s
  | .hostOutPop init ch => Sys2Proof.Machine.execHostOutPop init ch s
  | .peek init ch => Sys2Proof.Machine.execPeek init ch s
  | .level init ch => Sys2Proof.Machine.execLevel init ch s
  | .dmaDescriptor k hostErr data => Sys2Proof.Machine.execDmaDescriptor k hostErr data s
  | .pcieLinkDown => Sys2Proof.Machine.execPcieLinkDown s
  | .ddrAccess who op addr n data p => Sys2Proof.Machine.execDdrAccess who op addr n data p s
  | .keyLoad init slot => Sys2Proof.Machine.execKeyLoad init slot s
  | .keyGen init slot => Sys2Proof.Machine.execKeyGen init slot s
  | .keyZero init slot => Sys2Proof.Machine.execKeyZero init slot s
  | .regionEnable init r word => Sys2Proof.Machine.execRegionEnable init r word s
  | .initDone r => Sys2Proof.Machine.execInitDone r s
  | .rekey init r word => Sys2Proof.Machine.execRekey init r word s
  | .rekeyPage r => Sys2Proof.Machine.execRekeyPage r s
  | .cryptLock init => Sys2Proof.Machine.execCryptLock init s
  | .start init => Sys2Proof.Machine.execStart init s
  | .stop init => Sys2Proof.Machine.execStop init s
  | .trigger init => Sys2Proof.Machine.execTrigger init s
  | .triggerAmountReached => Sys2Proof.Machine.execTriggerAmountReached s
  | .stopped => Sys2Proof.Machine.execStopped s
  | .spoorPacket k ev pc machine => Sys2Proof.Machine.execSpoorPacket k ev pc machine s
  | .ts => Sys2Proof.Machine.execTs s
  | .spoorDdrError failed struck => Sys2Proof.Machine.execSpoorDdrError failed struck s
  | .spoorBufData init struck => Sys2Proof.Machine.execSpoorBufData init struck s
  | .scope init v => Sys2Proof.Machine.execScope init v s
  | .ingressAccept b w => Sys2Proof.Machine.execIngressAccept b w s
  | .launch b => Sys2Proof.Machine.execLaunch b s
  | .egressWord b err => Sys2Proof.Machine.execEgressWord b err s
  | .lxEgDisable init b => Sys2Proof.Machine.execLxEgDisable init b s
  | .packet p => Sys2Proof.Machine.execPacket p s
  | .ringTargetIsolated t => Sys2Proof.Machine.execRingTargetIsolated t s
  | .ringTargetRestored init t => Sys2Proof.Machine.execRingTargetRestored init t s
  | .fenceReq stop d => Sys2Proof.Machine.execFenceReq stop d s
  | .fenceAck stop d => Sys2Proof.Machine.execFenceAck stop d s
  | .spadAccess who bank off n data struck => Sys2Proof.Machine.execSpadAccess who bank off n data struck s
  | .setAliasWrite who bank off n v struck => Sys2Proof.Machine.execSetAliasWrite who bank off n v struck s
  | .clearAliasWrite who bank off n v struck => Sys2Proof.Machine.execClearAliasWrite who bank off n v struck s
  | .handover init k owner clear => Sys2Proof.Machine.execHandover init k owner clear s
  | .handoverDone k => Sys2Proof.Machine.execHandoverDone k s
  | .trigInputEvent pin rising => Sys2Proof.Machine.execTrigInputEvent pin rising s
  | .arm init => Sys2Proof.Machine.execArm init s
  | .disarm init => Sys2Proof.Machine.execDisarm init s
  | .pulseEnd pin => Sys2Proof.Machine.execPulseEnd pin s
  | .resAck init block seq => Sys2Proof.Machine.execResAck init block seq s
  | .measEnable init m => Sys2Proof.Machine.execMeasEnable init m s
  | .dspGo init => Sys2Proof.Machine.execDspGo init s
  | .dspDescriptor => Sys2Proof.Machine.execDspDescriptor s
  | .disciplineEdge pin rising => Sys2Proof.Machine.execDisciplineEdge pin rising s
  | .timeSyncLost => Sys2Proof.Machine.execTimeSyncLost s
  | .setNow init => Sys2Proof.Machine.execSetNow init s
  | .setAtEdge init => Sys2Proof.Machine.execSetAtEdge init s
  | .tb0Adj init v => Sys2Proof.Machine.execTb0Adj init v s
  | .exchangeDue port tree frac => Sys2Proof.Machine.execExchangeDue port tree frac s
  | .sync x => Sys2Proof.Machine.execSync x s
  | .followUp x => Sys2Proof.Machine.execFollowUp x s
  | .delayReq x => Sys2Proof.Machine.execDelayReq x s
  | .delayResp x => Sys2Proof.Machine.execDelayResp x s
  | .exchLost port tree parent => Sys2Proof.Machine.execExchLost port tree parent s
  | .servoHoldover t => Sys2Proof.Machine.execServoHoldover t s
  | .tb1TargetReturn => Sys2Proof.Machine.execTb1TargetReturn s
  | .timerPulse k => Sys2Proof.Machine.execTimerPulse k s
  | .timerArm k => Sys2Proof.Machine.execTimerArm k s
  | .timerCommand k => Sys2Proof.Machine.execTimerCommand k s
  | .take d => Sys2Proof.Machine.execTake d s
  | .tryTake d => Sys2Proof.Machine.execTryTake d s
  | .ready d => Sys2Proof.Machine.execReady d s
  | .done d => Sys2Proof.Machine.execDone d s
  | .defer_ d => Sys2Proof.Machine.execDefer d s
  | .clean d => Sys2Proof.Machine.execClean d s
  | .cinv d => Sys2Proof.Machine.execCinv d s
  | .cflush d => Sys2Proof.Machine.execCflush d s
  | .dispReady init v => Sys2Proof.Machine.execDispReady init v s
  | .dispTick => Sys2Proof.Machine.execDispTick s
  | .holdExpiry t => Sys2Proof.Machine.execHoldExpiry t s
  | .policy init v => Sys2Proof.Machine.execPolicy init v s
  | .coreReset init k => Sys2Proof.Machine.execCoreReset init k s
  | .coreRun init k run => Sys2Proof.Machine.execCoreRun init k run s
  | .wordWrite who m w => Sys2Proof.Machine.execWordWrite who m w s
  | .wordRead who m => Sys2Proof.Machine.execWordRead who m s
  | .statusWrite who m v => Sys2Proof.Machine.execStatusWrite who m v s
  | .cacheLineCheck a => Sys2Proof.Machine.execCacheLineCheck a s
  | .train init p => Sys2Proof.Machine.execTrain init p s
  | .down init p => Sys2Proof.Machine.execDown init p s
  | .tseq1 t => Sys2Proof.Machine.execTseq1 t s
  | .tseq2 t => Sys2Proof.Machine.execTseq2 t s
  | .portUp p => Sys2Proof.Machine.execPortUp p s
  | .laneTrainFail p => Sys2Proof.Machine.execLaneTrainFail p s
  | .laneFailure p n f => Sys2Proof.Machine.execLaneFailure p n f s
  | .los p n on => Sys2Proof.Machine.execLos p n on s
  | .lol p n on => Sys2Proof.Machine.execLol p n on s
  | .lanePllUnlock => Sys2Proof.Machine.execLanePllUnlock s
  | .errInject init p n => Sys2Proof.Machine.execErrInject init p n s
  | .cntClr init p n => Sys2Proof.Machine.execCntClr init p n s
  | .lanePllLock => Sys2Proof.Machine.execLanePllLock s
  | .symbolLock p n on inverted => Sys2Proof.Machine.execSymbolLock p n on inverted s
  | .chkLock p n line => Sys2Proof.Machine.execChkLock p n line s
  | .frame f => Sys2Proof.Machine.execFrame f s
  | .receiveWord p err => Sys2Proof.Machine.execReceiveWord p err s
  | .frameTransmit p err => Sys2Proof.Machine.execFrameTransmit p err s
  | .ack h seq limit => Sys2Proof.Machine.execAck h seq limit s
  | .nak h seq => Sys2Proof.Machine.execNak h seq s
  | .replayTimeout p => Sys2Proof.Machine.execReplayTimeout p s
  | .ackTimer p => Sys2Proof.Machine.execAckTimer p s
  | .repeatTimer => Sys2Proof.Machine.execRepeatTimer s
  | .netTreeSilent p tree => Sys2Proof.Machine.execNetTreeSilent p tree s
  | .deviceDown h ecn dev reason => Sys2Proof.Machine.execDeviceDown h ecn dev reason s
  | .triggerUp h ecn origin seq lines => Sys2Proof.Machine.execTriggerUp h ecn origin seq lines s
  | .systemTrigger h ecn origin seq lines => Sys2Proof.Machine.execSystemTrigger h ecn origin seq lines s
  | .load init => Sys2Proof.Machine.execLoad init s
  | .mapLoadDone => Sys2Proof.Machine.execMapLoadDone s
  | .swapNow init => Sys2Proof.Machine.execSwapNow init s
  | .mapSwapEcnHi init v => Sys2Proof.Machine.execMapSwapEcnHi init v s
  | .init p id peer sum => Sys2Proof.Machine.execInit p id peer sum s
  | .forerunnerFrame f => Sys2Proof.Machine.execForerunnerFrame f s
  | .netFrHalt p id sum => Sys2Proof.Machine.execNetFrHalt p id sum s
  | .imemLoad init c withInit => Sys2Proof.Machine.execImemLoad init c withInit s
  | .imemLoadDone c => Sys2Proof.Machine.execImemLoadDone c s
  | .dmLoad init c zero => Sys2Proof.Machine.execDmLoad init c zero s
  | .dmLoadDone c => Sys2Proof.Machine.execDmLoadDone c s
  | .tailSync init => Sys2Proof.Machine.execTailSync init s
  | .jrnlTrim init v => Sys2Proof.Machine.execJrnlTrim init v s
  | .trimDone => Sys2Proof.Machine.execTrimDone s
  | .shLoad init src flash => Sys2Proof.Machine.execShLoad init src flash s
  | .frameRecord data again => Sys2Proof.Machine.execFrameRecord data again s
  | .cfgDone high => Sys2Proof.Machine.execCfgDone high s
  | .releaseSequence supplies => Sys2Proof.Machine.execReleaseSequence supplies s
  | .shSourceError => Sys2Proof.Machine.execShSourceError s
  | .chainByte c => Sys2Proof.Machine.execChainByte c s
  | .scrubFrame err self => Sys2Proof.Machine.execScrubFrame err self s
  | .shLoopLost j => Sys2Proof.Machine.execShLoopLost j s
  | .loopLock j pinHz => Sys2Proof.Machine.execLoopLock j pinHz s
  | .vddioExcursion bank => Sys2Proof.Machine.execVddioExcursion bank s
  | .registerWindowAccess a write answer => Sys2Proof.Machine.execRegisterWindowAccess a write answer s
  | .shWinNoResponse a write => Sys2Proof.Machine.execShWinNoResponse a write s
  | .domainIdleExpiry d => Sys2Proof.Machine.execDomainIdleExpiry d s
  | .domainWake d => Sys2Proof.Machine.execDomainWake d s
  | .powLtr init g v => Sys2Proof.Machine.execPowLtr init g v s
  | .pmbusEn init mode => Sys2Proof.Machine.execPmbusEn init mode s
  | .pmbusPoll mode reading => Sys2Proof.Machine.execPmbusPoll mode reading s
  | .powPmbusAlert status => Sys2Proof.Machine.execPowPmbusAlert status s
  | .powPmbusError command => Sys2Proof.Machine.execPowPmbusError command s
  | .powerDecision maxPs => Sys2Proof.Machine.execPowerDecision maxPs s
  | .sensorReading n temp => Sys2Proof.Machine.execSensorReading n temp s
  | .vrefStep pin centre => Sys2Proof.Machine.execVrefStep pin centre s
  | .ddrRetrain sub temp => Sys2Proof.Machine.execDdrRetrain sub temp s
  | .coldRstN straps => Sys2Proof.Machine.execColdRstN straps s
  | .sysRstN straps => Sys2Proof.Machine.execSysRstN straps s
  | .devRst init v => Sys2Proof.Machine.execDevRst init v s
  | .perstN asserted => Sys2Proof.Machine.execPerstN asserted s
  | .flr => Sys2Proof.Machine.execFlr s
  | .supplyMonitor vaux vcore vlane straps => Sys2Proof.Machine.execSupplyMonitor vaux vcore vlane straps s
  | .lockTimeout => Sys2Proof.Machine.execLockTimeout s
  | .boot straps => Sys2Proof.Machine.execBoot straps s
  | .ddrTrainingDone good => Sys2Proof.Machine.execDdrTrainingDone good s
  | .imageFetchDone image => Sys2Proof.Machine.execImageFetchDone image s
  | .extest pins data => Sys2Proof.Machine.execExtest pins data s
  | .samplePreload pins data => Sys2Proof.Machine.execSamplePreload pins data s
  | .idcode => Sys2Proof.Machine.execIdcode s
  | .highz => Sys2Proof.Machine.execHighz s
  | .clamp => Sys2Proof.Machine.execClamp s
  | .bypass code => Sys2Proof.Machine.execBypass code s
  | .testLogicReset => Sys2Proof.Machine.execTestLogicReset s
  | .dbgReq response => Sys2Proof.Machine.execDbgReq response s
  | .dbgAccess core write addr data moduleData halt => Sys2Proof.Machine.execDbgAccess core write addr data moduleData halt s
  | .fuseProg slot hash revoke svn => Sys2Proof.Machine.execFuseProg slot hash revoke svn s
  | .dbgAuthChanged init level => Sys2Proof.Machine.execDbgAuthChanged init level s
  | .faultRecordWrite => Sys2Proof.Machine.execFaultRecordWrite s
  | .registerWrite a v => Sys2Proof.Machine.execRegisterWrite a v s
  | .rcRead a err => Sys2Proof.Machine.execRcRead a err s
  | .loReadLatch a => Sys2Proof.Machine.execLoReadLatch a s
  | .bar2Access off n data => Sys2Proof.Machine.execBar2Access off n data s
  | .pcieLinkUp cfg => Sys2Proof.Machine.execPcieLinkUp cfg s
  | .d3hot on => Sys2Proof.Machine.execD3hot on s

end Sys2Proof.Machine
end

