-- ==== Sys2Proof/Safety.lean ====
section
/-!
DEFINITION. What counts as a safe run, and the terms in which the statements say when a command takes place and what
it leaves unchanged.
-/

namespace Sys2Proof.Machine

/-- The step answers a next state. -/
def State.goesOn (s : State) : Prop := ∃ t, step s = .next t

/-- The first `k` steps from `s` all answer next states. -/
def State.safeFor : Nat → State → Prop
  | 0, _ => True
  | k + 1, s => ∃ t, step s = .next t ∧ State.safeFor k t

/-! ## Frames -/

/-- The registers that an interrupt cause or a fault record can change besides the INT_STAT bit it sets: the count and
the cause of dropped records (R471), and the pending bits of masked vectors (R233, R474). -/
def noteRegs : List Nat := [Reg.FAULT_DROPPED, Reg.FAULT_INT_STAT, Reg.MSIX_PBA 0, Reg.MSIX_PBA 1]

/-- Every register other than those of `regs` and `noteRegs` holds in `t` what it holds in `s`. -/
def State.keepsRegs (s t : State) (regs : List Nat) : Prop :=
  ∀ off, off ∉ regs → off ∉ noteRegs → t.rd off = s.rd off

/-- Cluster `c` is `v` in `t`, and nothing else of `s` has changed. -/
def State.onlyCluster (s t : State) (c : Nat) (v : Cluster) : Prop :=
  t = { s with clusters := t.clusters } ∧ t.cl c = v ∧ ∀ d, d ≠ c → t.cl d = s.cl d

/-- The memories of the device, its key slots and its fuses hold in `t` what they hold in `s`. -/
def State.keepsMemories (s t : State) : Prop :=
  t.ddr = s.ddr ∧ t.imem = s.imem ∧ t.banks = s.banks ∧ t.inbox = s.inbox ∧ t.dmb = s.dmb ∧ t.acc = s.acc ∧
    t.spad.mem = s.spad.mem ∧ t.shale.frames = s.shale.frames ∧ t.crypt.keys = s.crypt.keys ∧ t.fuses = s.fuses

/-! ## When a step instruction executes (R34, R37, R78) -/

/-- The word of the BP at its cluster's present step. -/
def State.wordFor (s : State) (b : BpSel) : W96 := s.word b.cluster (s.cl b.cluster).step b.bp

/-- BP `b` is to execute an instruction of opcode `op`: cycles run, its cluster is stepping, the stall check of the step
is passed, the BP has neither executed the step nor ended, and its word has the opcode. No soft error is found. -/
def State.mayExecute (s : State) (b : BpSel) (op : Nat) : Prop :=
  s.live = true ∧ s.rc.stepping = true ∧ s.enabled b.cluster = true ∧ (s.cl b.cluster).phase = .stepping ∧
    (s.cl b.cluster).opened = true ∧ b.bp < 256 ∧ wOp (s.wordFor b) = op ∧
    b.bp ∉ (s.cl b.cluster).doneBps ∧ b.bp ∉ (s.cl b.cluster).ended ∧ b.err = none

/-- Another BP of the cluster has still to execute the step. -/
def State.othersToGo (s : State) (b : BpSel) : Prop :=
  ∃ e ∈ s.busyWords b.cluster (s.cl b.cluster).step, e.1 ≠ b.bp ∧ e.1 ∉ (s.cl b.cluster).doneBps

/-- None of the four operand reads of the BP meets a fault (R72, R73, R98). -/
def State.cleanOperands (s : State) (b : BpSel) : Prop :=
  ∀ k < 4, (s.operand b.cluster b.bp (wOperand (s.wordFor b) k)).2 = none

/-- DEST is one of the valid encodings of R75. -/
def destValid (d : Nat) : Prop := bits d 10 2 = 0 ∨ bits d 10 2 = 2 ∨ (bits d 10 2 = 1 ∧ bits d 8 2 = 0)

/-- The cluster after `result` of a BP: f is the BP's NEAR result for the next step, and stands in scratch or in the
next state as DEST says (R75, R76). -/
def Cluster.withResult (cl : Cluster) (bp dest : Nat) (f : Bool) : Cluster :=
  { cl with
    nearNext := cl.nearNext ++ [(bp, f)]
    scratch := if bits dest 10 2 = 0
      then cl.scratch.set (fun _ => none) (bp * 1024 + bits dest 0 10) (some f) else cl.scratch
    next := if bits dest 10 2 = 1
      then cl.next.set (fun _ => none) (bp * 256 + bits dest 0 8) (some f) else cl.next }

/-- The cluster after BP `bp` has executed the step. -/
def Cluster.hasDone (cl : Cluster) (bp : Nat) : Cluster := { cl with doneBps := cl.doneBps ++ [bp] }

/-- The cluster of `b` after its instruction's `result`, f being its value. -/
def State.resultIn (s : State) (b : BpSel) : Cluster :=
  (s.cl b.cluster).withResult b.bp (wDest (s.wordFor b)) (s.evalWord b.cluster b.bp (s.wordFor b))

/-! ## When a control set is acted on, and the shape of the trees (R213, R217, R224) -/

/-- A tree set that spells `m` and that the device acts on: it is good, with the right CRC-16, its port's peer is not down,
and the device is not in FATAL. -/
def State.hears (s : State) (h : SetHdr) (m : Msg) : Prop :=
  h.bad = false ∧ h.crc = m.crc h.tree h.gen ∧ (h.tree = 1 ∨ h.tree = 2) ∧ (s.link h.port).peerDown = false ∧
    s.rc.state ≠ .fatal

/-- The device is the root of neither tree. -/
def State.notRoot (s : State) : Prop := s.isRoot 0 = false ∧ s.isRoot 1 = false

/-! ## An access to memory that nothing but the rights of its region decides (R398, R399) -/

/-- `n` bytes at `addr` lie in one 16 MiB unit of installed DDR, in region `r`, which is PLAIN and holds no line in
another form; CRYPT is not halted, its ring targets are not isolated, and its domain is awake. -/
def State.plainAccess (s : State) (who : Initiator) (addr n r : Nat) : Prop :=
  0 < n ∧ addr % 2 ^ 24 + n ≤ 2 ^ 24 ∧ addr + n ≤ s.fuses.ddrBytes ∧ s.regionOf addr = some r ∧
    s.regionMode r = 0 ∧ s.crypt.tags = [] ∧ s.flag Reg.CRYPT_STAT 31 = false ∧
    (onRing who = true → s.isolated 15 = false ∧ s.isolated 16 = false) ∧
    (s.dom 110).level = 0 ∧ (s.dom 110).goal = none ∧ s.hostDeaf who = false

/-- What befalls DDR and the node cache before an access changes no stored byte, and no node leaves the cache. -/
def leavesDdr (p : DdrPhys) : Prop := p.flips = [] ∧ p.evict = []

/-- CRYPT as in `s`, but for the upsets that have still to be found, which are those of `t` (R406, R408). -/
def State.struck (s t : State) : Crypt :=
  { s.crypt with flaky := t.crypt.flaky, parity := t.crypt.parity, rootBad := t.crypt.rootBad }

/-! ## An access to a register (R25, R385, R388, R454) -/

/-- No domain is below HOLD or on its way there, so that none has to wake. -/
def State.awake (s : State) : Prop := ∀ d, (s.dom d).level = 0 ∧ (s.dom d).goal = none

/-- Shale has seen EPR_LOCK of every lane as it is (R285). -/
def State.eprShown (s : State) : Prop := ∀ l, l < 16 → s.eprLock l = s.shale.eprLock.contains l

/-- An access of `init` to register `off` reaches its block: no SYSTEM reset hides it from the host, its ring target is not
isolated, and no domain has to wake. -/
def State.serves (s : State) (init : Initiator) (off : Nat) : Prop :=
  s.deaf init off = false ∧ s.isolated (targetOf off) = false ∧ s.awake ∧ s.eprShown

/-- A write of CMD by the initiator of `w` is served. -/
def State.takesCmd (s : State) (w : CmdWrite) : Prop := s.serves w.init Reg.CMD

/-- The state in which the block of register `off` serves an access: the domain that the register belongs to restarts its idle
time (R437), and the access answers `v`. -/
def State.atBlock (s : State) (off : Nat) (v : Nat := 0) : State := (s.reach (targetOf off) (regDomain off)).answer v

/-- The access reaches its block. -/
def State.reachable (s : State) (a : RegAcc) : Prop := s.serves a.init a.off

/-! ## An instruction of a Badger core (R357) -/

/-- Core `d.core` executes instructions, and the word at its PC spells the Dvorbeng instruction `i`. -/
def State.executes (s : State) (d : CoreInst) (i : Dvorbeng) : Prop :=
  d.core < 8 ∧ (s.core d.core).state = 1 ∧ bits d.word.toNat 0 7 = 0x0B ∧ dvorbeng d.word = some i

/-! ## The TAP and the fuses (R461) -/

/-- The TAP holds a listed instruction, the debug path acts for a core there is, and the fuses programmed for the next
COLD reset hold every one of those in effect, in the same part. -/
def State.tapInvariant (s : State) : Prop :=
  s.dbg.ir ∈ [0x00, 0x01, 0x02, 0x03, 0x04, 0x10, 0x11, 0x18, 0xFF] ∧ s.dbg.core < 8 ∧
    ∀ f, s.dbg.fuses = some f →
      (∀ k, s.fuses.keyHash.get (fun _ => 0) k &&& f.keyHash.get (fun _ => 0) k = s.fuses.keyHash.get (fun _ => 0) k) ∧
        s.fuses.revoked &&& f.revoked = s.fuses.revoked ∧ s.fuses.svnMin ≤ f.svnMin ∧
        f.is9416 = s.fuses.is9416 ∧ f.ddrBytes = s.fuses.ddrBytes

end Sys2Proof.Machine
end

