-- ==== Sys2Proof/Certificates/Slice0/Obligations.lean ====
section
/-!
DEFINITION. The statements for the provers: what the commands do, what they leave unchanged, and what holds of the
machine as a whole.
-/

open Sys2Proof Sys2Proof.Machine

/-! ## The queue of commands, and the machine as a whole -/

/-- A step runs the command at the front of the queue on the state with the queue's rest. -/
def Obligations.StepRunsFrontCommand : Prop :=
  ∀ (s : State) (c : Instr) (rest : List Instr), s.pending = c :: rest →
    Machine.step s = exec c { s with pending := rest }

/-- On an empty queue a step passes 10 ns: while a rail is below its level nothing happens; else TB0 and the clock of
durations advance by 10, when no correction is in force, no port is to begin training and no domain is below HOLD (R334,
R335; the tick is the model's choice, log 3). -/
def Obligations.EmptyQueueStepPassesTime : Prop :=
  ∀ s : State, s.pending = [] →
    ∃ t, Machine.step s = .next t ∧ t.pending = [] ∧
      (s.boot.low = true → t = s) ∧
      (s.boot.low = false → s.time.rate = 0 → s.time.slew = 0 → (∀ p, (s.prt p).due = none) →
        (∀ d, (s.dom d).level = 0 ∧ (s.dom d).goal = none) →
        t.time.tb0 = (s.time.tb0 + 10) % 2 ^ 64 ∧ t.time.clock = s.time.clock + 10)

/-- Every command on every state is answered with a next state: no meaning faults or refuses. -/
def Obligations.EveryCommandGoesOn : Prop :=
  ∀ (c : Instr) (s : State), ∃ t, exec c s = .next t

/-- The state after reset: no command waits, run control is IDLE, no cycle is unsealed, the Warden alone is not in
reset, no frame of Shale is configured, no key slot is filled, every port is down, and memory is empty in its canonical
form; the frames and the memory are the model's own choice there (log 1, log 2). The TAP's invariant holds after reset;
the core acted for is the model's own choice there (log 1). -/
def Obligations.ResetIsIdle : Prop :=
  (State.reset.pending = [] ∧ State.reset.rc.state = .idle ∧ State.reset.rc.unsealed = [] ∧
     State.reset.fld Reg.DBG_AUTH 0 2 = 0 ∧ (State.reset.core 0).state = 1 ∧
     (∀ k, k ∈ List.range 8 → k ≠ 0 → (State.reset.core k).state = 0) ∧
     (∀ p, p ∈ List.range 8 → State.reset.isUp p = false) ∧ (∀ i, State.reset.cfgFrame i = 0) ∧
     State.reset.rd Reg.CRYPT_KEY_STAT = 0 ∧ State.reset.ddr.wf (fun _ => 0) = true ∧
     State.reset.rd Reg.STARTUP_SEQ = 0x1234 ∧ State.reset.fld Reg.BAR2_CTRL 0 6 = 0x22) ∧
  (State.reset.tapInvariant)

/-- Every step keeps the TAP's invariant: it holds one of the instructions of R461, the debug path acts for one of the
eight cores, and the fuses programmed for the next COLD reset have lost no bit of those in effect. -/
def Obligations.EveryStepKeepsTheTapInvariant : Prop :=
  ∀ s t : State, s.tapInvariant → Machine.step s = .next t → t.tapInvariant

/-! ## The step instructions (chapters 02 and 03) -/

/-- R81: NOP has no effect, LUT performs result and nothing else, END ends its BP. What follows the instruction is that
the BP has executed the step, and the end of the step where it was the last. Where the check of the word fetched finds a
soft error (R59), NOP still has no effect of its own: what follows is the handling of that error. -/
def Obligations.NopLutEndAreR81 : Prop :=
  (∀ (s : State) (b : BpSel), b.err = none → exec (.nop b) s = .next s) ∧
  (∀ (s : State) (b : BpSel) (e : EccErr), b.err = some e → e.mem = .imem →
    wOp (s.word b.cluster e.word b.bp) = 0 → s.fetched b.cluster b.bp e.word = true →
    exec (.nop b) s = .next (s.upset s.rc.ecn { e with cluster := b.cluster, bp := b.bp })) ∧
  (∀ (s : State) (b : BpSel), s.mayExecute b 1 →
    exec (.lut b) s = .next (((s.result b.cluster b.bp (s.wordFor b)).modCl b.cluster
      (fun cl => cl.hasDone b.bp)).endStep b.cluster)) ∧
  (∀ (s : State) (b : BpSel), s.mayExecute b 0xF →
    exec (.endBp b) s = .next (((s.modCl b.cluster (fun cl => { cl with ended := cl.ended ++ [b.bp] })).modCl b.cluster
      (fun cl => cl.hasDone b.bp)).endStep b.cluster))

/-- LUT writes f, its truth table at its operands, to NEAR and to DEST, in its own cluster and nowhere else. An operand
that meets a reserved encoding or an unwritten scratch bit reads 0, raises its fault, and the LUT goes on; a reserved
DEST writes f to NEAR only (R75, R98). -/
def Obligations.LutWritesItsResultAndFaultsGoOn : Prop :=
  (∀ (s : State) (b : BpSel), s.mayExecute b 1 → s.othersToGo b → s.cleanOperands b →
     destValid (wDest (s.wordFor b)) →
     ∃ t, exec (.lut b) s = .next t ∧ s.onlyCluster t b.cluster ((s.resultIn b).hasDone b.bp)) ∧
  ((∀ (s : State) (c bp x : Nat), (s.operand c bp x).2 ≠ none → (s.operand c bp x).1 = false) ∧
   (∀ (s : State) (b : BpSel), s.mayExecute b 1 → s.othersToGo b →
     s.rc.begun = true → s.rc.fresh = false → s.rc.stop = none →
     s.isRoot 0 = false → s.isRoot 1 = false →
     (¬ s.cleanOperands b ∨ ¬ destValid (wDest (s.wordFor b))) →
     ∃ t, exec (.lut b) s = .next t ∧ t.rc.stop = some s.rc.ecn ∧
       (∀ c, c ≠ b.cluster → t.cl c = s.cl c) ∧
       (destValid (wDest (s.wordFor b)) → t.cl b.cluster = (s.resultIn b).hasDone b.bp) ∧
       (¬ destValid (wDest (s.wordFor b)) → t.cl b.cluster =
         { (s.cl b.cluster).hasDone b.bp with
           nearNext := (s.cl b.cluster).nearNext ++ [(b.bp, s.evalWord b.cluster b.bp (s.wordFor b))] })))

/-- SEND to an inbox bit that can store the value: f enters the bit's entry of tag n modulo 4, replacing one of the same
tag, and the outbox bit is sent for this cycle; besides, result (R49-R51, R82). -/
def Obligations.SendFillsInboxEntry : Prop :=
  ∀ (s : State) (b : BpSel) (d i : Nat),
    let e := wAux (s.wordFor b)
    let f := s.evalWord b.cluster b.bp (s.wordFor b)
    s.mayExecute b 2 → s.othersToGo b → s.cleanOperands b → destValid (wDest (s.wordFor b)) →
    s.sendsFirst b.cluster b.bp e = true → s.sendTo s.rc.ecn b.cluster e = .inbox d i →
    s.enabled d = true → s.judgeArrival d i (s.rc.ecn % 4) = .stored →
    ∃ t, exec (.send b) s = .next t ∧
      t = { s with clusters := t.clusters, inbox := t.inbox } ∧
      t.cl b.cluster = { (s.resultIn b).hasDone b.bp with sent := (s.cl b.cluster).sent ++ [e] } ∧
      (∀ c, c ≠ b.cluster → t.cl c = s.cl c) ∧
      t.entries d i = (s.entries d i).filter (fun x => x.1 ≠ s.rc.ecn % 4) ++ [(s.rc.ecn % 4, f)] ∧
      ∀ c j, c * 2048 + j ≠ d * 2048 + i → t.entries c j = s.entries c j

/-- MEMB, ARIB and PORTB deposit f into a bit of the word they name, where no BP has deposited it at this step, and MEMB
and ARIB raise GO, PORTB a push, as their AUX says; besides, result (R79, R83, R86, R90). PROBE and TRIGB deposit f into
a device-wide bit; a deposit of a lower cluster that is there already stays, one of a higher cluster gives way (R80,
R93). WAITQ marks its outstanding tag for retirement at the end of the step, WAITP does no more than wait, and POP marks
a window that holds a head word for consumption (R89, R95, R97). MARK with fabric tracing off and no MARK trigger armed:
besides result, each Spoor event that matches its tag and cluster is gathered for the next commit, the cycle not being
executed again (R94, R418, R430). -/
def Obligations.DepositsAndWaitsReachTheirObjects : Prop :=
  (∀ (s : State) (b : BpSel),
     let w := s.wordFor b
     let cl := s.cl b.cluster
     let bit := bits (wAux w) 0 7
     let d : Option Deposit := some ⟨s.evalWord b.cluster b.bp w, b.cluster, cl.step, b.bp⟩
     let free (m : Map (Option Deposit)) (i : Nat) : Prop := ∀ x, m.get (fun _ => none) i = some x → x.step ≠ cl.step
     s.othersToGo b → s.cleanOperands b → destValid (wDest w) →
     (s.mayExecute b 3 → (wAux w).testBit 8 = true → free cl.xqReq bit →
       ∃ t, exec (.memb b) s = .next t ∧ s.onlyCluster t b.cluster
         { (s.resultIn b).hasDone b.bp with
           xqReq := cl.xqReq.set (fun _ => none) bit d
           goXq := if (wAux w).testBit 7 then cl.goXq ++ [b.bp] else cl.goXq }) ∧
     (s.mayExecute b 3 → (wAux w).testBit 8 = false → free cl.dmReq bit →
       ∃ t, exec (.memb b) s = .next t ∧ s.onlyCluster t b.cluster
         { (s.resultIn b).hasDone b.bp with
           dmReq := cl.dmReq.set (fun _ => none) bit d
           goDm := if (wAux w).testBit 7 then cl.goDm ++ [b.bp] else cl.goDm }) ∧
     (s.mayExecute b 4 → (bit < 54 ∨ (64 ≤ bit ∧ bit < 118)) → free cl.arReq bit →
       ∃ t, exec (.arib b) s = .next t ∧ s.onlyCluster t b.cluster
         { (s.resultIn b).hasDone b.bp with
           arReq := cl.arReq.set (fun _ => none) bit d
           goAr := if (wAux w).testBit 7 then cl.goAr ++ [(b.bp, bits (wAux w) 8 4)] else cl.goAr }) ∧
     (s.mayExecute b 5 → bits (wAux w) 6 5 < 24 → free cl.staging (bits (wAux w) 6 5 * 64 + bits (wAux w) 0 6) →
       ∃ t, exec (.portb b) s = .next t ∧ s.onlyCluster t b.cluster
         { (s.resultIn b).hasDone b.bp with
           staging := cl.staging.set (fun _ => none) (bits (wAux w) 6 5 * 64 + bits (wAux w) 0 6) d
           pushNow := if (wAux w).testBit 11 then cl.pushNow ++ [bits (wAux w) 6 5] else cl.pushNow })) ∧
  (∀ (s : State) (b : BpSel),
     let w := s.wordFor b
     let cl := s.cl b.cluster
     let d : Option Deposit := some ⟨s.evalWord b.cluster b.bp w, b.cluster, cl.step, b.bp⟩
     let after (m m' : Map (Option Deposit)) (i : Nat) : Prop :=
       ((∀ x, m.get (fun _ => none) i = some x → b.cluster < x.cluster) → m'.get (fun _ => none) i = d) ∧
       ((∃ x, m.get (fun _ => none) i = some x ∧ x.cluster < b.cluster) → m' = m) ∧
       ∀ j, j ≠ i → m'.get (fun _ => none) j = m.get (fun _ => none) j
     s.othersToGo b → s.cleanOperands b → destValid (wDest w) →
     (s.mayExecute b 6 → ∃ t, exec (.probe b) s = .next t ∧
       t = { s with clusters := t.clusters, probes := t.probes } ∧
       t.cl b.cluster = (s.resultIn b).hasDone b.bp ∧ (∀ c, c ≠ b.cluster → t.cl c = s.cl c) ∧
       after s.probes t.probes (wAux w)) ∧
     (s.mayExecute b 7 → ∃ t, exec (.trigb b) s = .next t ∧
       t = { s with clusters := t.clusters, fabTrig := t.fabTrig } ∧
       t.cl b.cluster = (s.resultIn b).hasDone b.bp ∧ (∀ c, c ≠ b.cluster → t.cl c = s.cl c) ∧
       after s.fabTrig t.fabTrig (bits (wAux w) 0 4))) ∧
  (∀ (s : State) (b : BpSel),
     let w := s.wordFor b
     let cl := s.cl b.cluster
     s.othersToGo b →
     (s.mayExecute b 8 → (cl.tags.get (fun _ => none) (bits (wAux w) 0 5)).isSome →
       ∃ t, exec (.waitq b) s = .next t ∧ s.onlyCluster t b.cluster
         { cl.hasDone b.bp with retire := cl.retire ++ [(b.bp, bits (wAux w) 0 5)] }) ∧
     (s.mayExecute b 9 → ∃ t, exec (.waitp b) s = .next t ∧ s.onlyCluster t b.cluster (cl.hasDone b.bp)) ∧
     (s.mayExecute b 0xA → s.cleanOperands b → destValid (wDest w) →
       (cl.windows.get (fun _ => {}) (bits (wAux w) 0 4)).word.isSome →
       ∃ t, exec (.pop b) s = .next t ∧ s.onlyCluster t b.cluster
         { (s.resultIn b).hasDone b.bp with
           windows := cl.windows.set (fun _ => {}) (bits (wAux w) 0 4)
             { cl.windows.get (fun _ => {}) (bits (wAux w) 0 4) with pop := true } })) ∧
  (∀ (s : State) (b : BpSel),
     let w := s.wordFor b
     let hit (j : Nat) : Bool := s.flag (Reg.SPOOR_EVT j) 31 && s.fld (Reg.SPOOR_EVT j) 28 3 = 7 &&
       (s.flag (Reg.SPOOR_EVT j) 21 || s.fld (Reg.SPOOR_EVT j) 22 6 = b.cluster) && s.fld (Reg.SPOOR_EVT j) 0 12 = wAux w
     s.mayExecute b 0xE → s.othersToGo b → s.cleanOperands b → destValid (wDest w) →
     s.flag Reg.SPOOR_SRC 16 = false → s.flag Reg.SPOOR_TRIG_CFG 2 = false → s.rc.again = false →
     s.rc.state = .running →
     ∃ t, exec (.mark b) s = .next t ∧
       t = { s with clusters := t.clusters, acq := { s.acq with extNext := t.acq.extNext } } ∧
       t.cl b.cluster = (s.resultIn b).hasDone b.bp ∧ (∀ c, c ≠ b.cluster → t.cl c = s.cl c) ∧
       ∀ i, t.acq.extNext.testBit i = (s.acq.extNext.testBit i || (decide (9 ≤ i ∧ i < 13) && hit (i - 9))))

/-- R77: a reserved opcode executes as NOP and raises the SCHEDULE fault of reserved opcodes, SCH_RESERVED, and the BP
goes on: nothing of its cluster changes but that the BP has executed the step. In a cycle that holds no stop yet, on a
device that is root of no tree, the fault is held as a schedule stop of the cycle and reported up both trees, where the
port to the parent can send. -/
def Obligations.ReservedOpcodeRaisesFault : Prop :=
  (∀ (s : State) (b : BpSel) (op : Nat), 0xB ≤ op → op ≤ 0xD → s.mayExecute b op →
    exec (.reservedOpcode b) s = .next (((s.schReserved b.cluster b.bp 0 0).modCl b.cluster
      (fun cl => cl.hasDone b.bp)).endStep b.cluster)) ∧
  (∀ (s : State) (b : BpSel) (op : Nat), 0xB ≤ op → op ≤ 0xD → s.mayExecute b op → s.othersToGo b →
    s.rc.begun = true → s.rc.fresh = false → s.rc.stop = none → s.rc.schedPause = none →
    s.isRoot 0 = false → s.isRoot 1 = false →
    ∃ t, exec (.reservedOpcode b) s = .next t ∧
      t.cl b.cluster = (s.cl b.cluster).hasDone b.bp ∧ (∀ c, c ≠ b.cluster → t.cl c = s.cl c) ∧
      t.rc.stop = some s.rc.ecn ∧
      (s.portSends (s.parent 0) = true →
        TxItem.set (s.parent 0) 1 2 s.net.gen (.schedStop s.rc.ecn s.devId) ∈ t.tx) ∧
      (s.portSends (s.parent 1) = true →
        TxItem.set (s.parent 1) 2 2 s.net.gen (.schedStop s.rc.ecn s.devId) ∈ t.tx))

/-- The last BP of a step to execute ends it: where no request, push or WAITQ is due and a later step of the cycle has a
word that is not NOP, the cluster moves to the first such step, and the results are NEAR operands if it is the next step
(R42, R78, R81). The time at which the cluster completed the step is noted for FAB_STEP_PS (R58). -/
def Obligations.LastExecutionEndsTheStep : Prop :=
  ∀ (s : State) (b : BpSel) (k : Nat),
    let cl := s.cl b.cluster
    s.mayExecute b 1 → s.cleanOperands b → destValid (wDest (s.wordFor b)) →
    (∀ e ∈ s.busyWords b.cluster cl.step, e.1 = b.bp ∨ e.1 ∈ cl.doneBps) →
    cl.goDm = [] → cl.goXq = [] → cl.goAr = [] → cl.pushNow = [] → cl.retire = [] → cl.waitqBad = [] →
    s.nextBusy b.cluster (cl.step + 1) = some k →
    ∃ t, exec (.lut b) s = .next t ∧
      t = { s with clusters := t.clusters, stepped := t.stepped } ∧
      t.stepped = s.stepped.set (fun _ => 0) b.cluster (s.now + 1) ∧
      t.cl b.cluster = { s.resultIn b with
          step := k, opened := false, doneBps := [], inboxRead := [], nearNext := []
          near := if k = cl.step + 1 then (s.resultIn b).nearNext else [] } ∧
      ∀ c, c ≠ b.cluster → t.cl c = s.cl c

/-! ## Commit, replay and run control (chapters 05, 08 and 09) -/

/-- CYCLE_START: nothing but the seal keeping the cycle (R14, R110, R245), it begins once its seal is held, no bridge's
pace is awaited and no domain has to wake, and what a replay needs is kept; without the seal it waits; the start that
waited counts its wait, with its time, when the seal is there (R123), and then waits for the pace of its bridges (R268).
-/
def Obligations.CycleBeginsWithItsSeal : Prop :=
  ∀ s : State, s.rc.state = .running → s.mayBegin = true →
    (s.rc.waits = [] → s.sealHeld = true → s.paceLacking = [] → s.flag Reg.SNAP_CFG 31 = false →
      (∀ d, (s.dom d).level = 0 ∧ (s.dom d).goal = none) →
      ∃ t, exec (.cycleStart []) s = .next t ∧ t.rc.begun = true ∧ t.rc.ecn = s.rc.ecn ∧ t.rc.fresh = false ∧
        t.rc.executed = max s.rc.executed (s.rc.ecn + 1) ∧ t.probes = [] ∧ t.fabTrig = [] ∧
        ∃ r ∈ t.rc.unsealed, r.ecn = s.rc.ecn ∧ r.bank = s.rc.curBank ∧ r.acc = s.acc) ∧
    (∀ errs, s.rc.waits = [] → s.sealHeld = false →
      exec (.cycleStart errs) s = .next { s with rc := { s.rc with waits := [(.seal, s.now)] } }) ∧
    (∀ errs since, s.rc.waits = [(.seal, since)] → s.sealHeld = true → s.paceLacking ≠ [] →
      ∃ t, exec (.cycleStart errs) s = .next t ∧
        t = { s with csr := t.csr, rc := { s.rc with waits := s.paceLacking.map fun b => (.pace b, s.now) } } ∧
        t.rd Reg.SEAL_WAIT_EVENTS = satAdd (2 ^ 32 - 1) (s.rd Reg.SEAL_WAIT_EVENTS) 1 ∧
        t.rd Reg.SEAL_WAIT_NS = satAdd (2 ^ 32 - 1) (s.rd Reg.SEAL_WAIT_NS) (s.now - since) ∧
        s.keepsRegs t [Reg.SEAL_WAIT_EVENTS, Reg.SEAL_WAIT_NS])

/-- COMMIT: once every cluster is at its end and every send is accepted, nothing stopping the clusters, and with no
error found, the device moves to the next cycle, the state banks rotate, a state bit that no BP wrote keeps its value,
and no inbox entry of the cycle is left (R16, R45, R46, R52). -/
def Obligations.CommitEndsTheCycle : Prop :=
  ∀ s : State, s.live = true → s.rc.begun = true → s.rc.stepping = true → s.allAtEnd = true →
    s.sendsAccepted = true → s.stopping = false → s.held = [] →
    ∃ t, exec (.commit []) s = .next t ∧ t.rc.ecn = s.rc.ecn + 1 ∧ t.rc.begun = false ∧
      t.rc.curBank = (s.rc.curBank + 1) % s.nBanks ∧
      (∀ k, (∀ e ∈ s.clusters, ∀ w ∈ e.2.next, w.2.isSome → e.1 * 65536 + w.1 ≠ k) →
        (t.bank t.rc.curBank).get (fun _ => false) k = (s.bank s.rc.curBank).get (fun _ => false) k) ∧
      (∀ c b, ∀ x ∈ t.entries c b, x.1 ≠ s.rc.ecn % 4) ∧
      ∀ c, (t.cl c).phase = .idle ∧ (t.cl c).scratch = [] ∧ (t.cl c).sent = []

/-- ROLLBACK, the clusters at a step boundary, of a received ABORT(n): the device is again at the start of n, the
clusters and the inbox are empty of what the cycles left there, and ROLLED_BACK is noted (R57, R125, R126); for a halt
it is the start of the lowest cycle not sealed, and the device is HALTED, its dispatcher in ORDERLY (R133).
REWIND_RESTORE with the go-ahead and a valid slot, which is read without an integrity failure, no region valid and the
journal empty: the device is REPLAYING from S, its positions and limits set (R141, R167). -/
def Obligations.RollbackAndRewindReturn : Prop :=
  ((∀ (s : State) (a : Abort), s.rc.abort = some a → a.received = true → a.rolled = false → s.live = true →
     s.rc.halting = false → s.atBoundary = true →
     s.rc.stop = none → s.rc.schedPause = none → a.n ≤ s.rc.ecn → s.notRoot →
     ∃ t, exec (.rollback []) s = .next t ∧ t.rc.ecn = a.n ∧ t.rc.begun = false ∧
       (∃ b, t.rc.abort = some b ∧ b.n = a.n ∧ b.rolled = true) ∧
       t.inbox = [] ∧ t.held = [] ∧ t.probes = [] ∧ t.fabTrig = [] ∧ (∀ c, (t.cl c).phase = .idle) ∧
       (∀ r ∈ t.rc.unsealed, r.ecn < a.n) ∧ t.rd64 Reg.ABORT_ECN_LO = a.n % 2 ^ 64 ∧
       (8, a.n) ∈ t.net.rolledA ∧ (8, a.n) ∈ t.net.rolledB) ∧
   (∀ s : State, s.live = true → s.rc.halting = true → s.atBoundary = true →
     ∃ t, exec (.rollback []) s = .next t ∧ t.rc.state = .halted ∧ t.rc.ecn = s.rc.sealNext ∧ t.rc.begun = false ∧
       t.rc.halting = false ∧ t.rc.cmd = none ∧ t.rd64 Reg.HALT_ECN_LO = s.rc.sealNext % 2 ^ 64 ∧ t.inbox = [] ∧
       t.held = [] ∧ (∀ c, (t.cl c).phase = .idle) ∧ t.orderly = true)) ∧
  (∀ (s u : State) (e k : Nat), s.rc.rewind = some e → s.rc.rewindGone = true → s.slotOf true e = (some k, u) →
     s.validRegions = [] → s.rd64 Reg.JRNL_HEAD_LO = s.rd64 Reg.JRNL_TAIL_LO →
     (u.fabricReset.restoreSlot (u.slotAddr k)).rc.state ≠ .fatal →
     (((u.fabricReset.restoreSlot (u.slotAddr k)).wr64 Reg.JRNL_HEAD_LO (s.rd64 Reg.JRNL_TAIL_LO)).slotRead
       (u.slotAddr k) 0x20 192).2.rc.state ≠ .fatal →
     ∃ t, exec .rewindRestore s = .next t ∧ t.rc.state = .replaying ∧ t.rc.inReplay = true ∧ t.rc.ecn = e ∧
       t.rc.sealNext = e ∧ t.rc.begun = false ∧ t.rc.unsealed = [] ∧ t.rc.pendingStore = [] ∧ t.rc.rewind = none ∧
       t.rd64 Reg.REPLAY_LIMIT_LO = s.rc.rewindLimit % 2 ^ 64 ∧ t.inbox = [] ∧ t.held = [] ∧ t.ddr = s.ddr)

/-- Watermarks: COMMITTED raises its child's watermark on its tree when R209 accepts it; GLOBAL_SEAL(w) of the present
generation seals every cycle through w that this device has committed (R16, R18, R218). w is the ECN nearest this
device's own with the 48 bits that the set carries (R213). DRAIN_WRITE: the oldest entry of the pending store, its cycle
sealed and its region not journalled, leaves the store as its write reaches DDR (R120); HALT_DRAIN_COMPLETE sets its
cause once the store of a halted device is empty (R133); SNAPSHOT_COPY_DONE, the writes of the copy answered without
error, frees the bank of the snapshot, or ends the copy of a sealed S (R138, R139). -/
def Obligations.WatermarksDrainAndSnapshot : Prop :=
  (∀ (s : State) (h : SetHdr) (x : Nat), s.notRoot →
     let w := s.widenEcn x
     (s.hears h (.committed w) → s.accepts h.gen w = true →
       ∃ t, exec (.committed h x) s = .next t ∧
         t = { s with csr := t.csr, tx := t.tx, lines := t.lines, links := t.links, net := t.net } ∧
         (h.tree = 1 → t.net.childA.get (fun _ => 0) h.port = w + 1 ∧ t.net.childB = s.net.childB) ∧
         (h.tree = 2 → t.net.childB.get (fun _ => 0) h.port = w + 1 ∧ t.net.childA = s.net.childA)) ∧
     (s.hears h (.globalSeal w) → s.live = true → h.gen = s.net.gen → s.net.lastSealUp < w + 1 →
       ∃ t, exec (.globalSeal h x) s = .next t ∧ t.net.lastSealUp = w + 1 ∧
         min (w + 1) s.rc.ecn ≤ t.rc.sealNext ∧ t.rc.ecn = s.rc.ecn)) ∧
  ((∀ (s : State) (w : XqWrite) (rest : List XqWrite), s.rc.pendingStore = w :: rest → w.ecn < s.rc.sealNext →
     s.rc.state ≠ .fatal → (s.flag Reg.JRNL_CFG 31 && s.flag (Reg.XQ_REGION_CFG w.cluster w.region) 29) = false →
     s.rc.drainWait = none → (s.ddrWriteBe .fabric (s.xqAddr w) w.be w.data).1 = false →
     ∃ t, exec (.drainWrite false) s = .next t ∧ t.rc.pendingStore = rest ∧
       t.ddr = (s.ddrWriteBe .fabric (s.xqAddr w) w.be w.data).2.ddr) ∧
   (∀ s : State, s.rc.state = .halted → s.rc.pendingStore = [] →
     ∃ t, exec .haltDrainComplete s = .next t ∧ t = { s with csr := t.csr, tx := t.tx } ∧
       t.flag Reg.CR_INT_STAT 5 = true ∧ s.keepsRegs t [Reg.CR_INT_STAT]) ∧
   (∀ (s : State) (j : SnapJob), s.rc.snap = some j → s.rc.state ≠ .fatal →
     let bankParts := s.slotParts.take 1
     let parts := if j.bankHeld then s.slotParts else s.slotParts.drop 1
     (j.bankHeld = true → (s.slotFill bankParts (s.slotAddr j.slot) j.bytes).1 = none →
       ∃ t, exec (.snapshotCopyDone true []) s = .next t ∧ t.rc.snap = some { j with bankHeld := false } ∧
         t.ddr = (s.slotFill bankParts (s.slotAddr j.slot) j.bytes).2.ddr) ∧
     (j.ecn ≤ s.rc.sealNext → (s.slotFill parts (s.slotAddr j.slot) j.bytes).1 = none →
       ∃ t, exec (.snapshotCopyDone false []) s = .next t ∧ t.rc.snap = none ∧
         t.ddr = (s.slotFill parts (s.slotAddr j.slot) j.bytes).2.ddr ∧ t.rd64 Reg.SNAP_ECN_LO = j.ecn % 2 ^ 64 ∧
         t.flag Reg.CR_INT_STAT 1 = true)))

/-- Where a set arrives whose port is down, or on a device in FATAL, it changes nothing; one of reserved TYPE, with a
code violation or with a wrong CRC-16 is counted only (R213, R224, R512). A command that is not legal in the state is
rejected with STATUS 3, a system command on a device that is not the command root with STATUS 5, and run control is as
before (R239, R242). -/
def Obligations.SetsThatAreNotActedOn : Prop :=
  (∀ (s : State) (h : SetHdr) (m : Msg) (f : State → State),
     (h.bad = true ∨ h.crc ≠ m.crc h.tree h.gen → s.onSet h m f = s.count (Reg.CTRL_ERR h.port) 0 32 1) ∧
     (h.bad = false → h.crc = m.crc h.tree h.gen → ((s.link h.port).peerDown = true ∨ s.rc.state = .fatal) →
       s.onSet h m f = s)) ∧
  (∀ (s : State) (w : CmdWrite), s.takesCmd w →
     let rejected (c : Instr) (status : Nat) : Prop :=
       ∃ t, exec c s = .next t ∧ t = { s.atBlock Reg.CMD with csr := t.csr, faults := t.faults, tx := t.tx } ∧
         t.fld Reg.CMD_STATUS 28 4 = status
     (s.cmdLegal 0x01 (decide (w.param % 2 = 1)) = false → rejected (.loadBegin w) 3) ∧
     (s.cmdLegal 0x02 false = false → rejected (.loadEnd w) 3) ∧
     (s.cmdLegal 0x03 false = false → rejected (.unload w) 3) ∧
     (s.isRoot 0 = false → rejected (.run w) 5 ∧ rejected (.step w) 5 ∧ rejected (.pause w) 5 ∧
       rejected (.rewind w) 5 ∧ rejected (.halt w) 5) ∧
     (s.isRoot 0 = true → s.cmdLegal 0x10 false = false → rejected (.run w) 3))

/-- ABORT(n) of the present generation, not yet acted on, n not sealed, is held with the fence at or below n, unless
this device, a root, would broadcast it for the third time; REPLAY_GO of the next generation ends the abort and advances
GEN; REWIND_GO lets a waiting restore begin (R125, R131, R132, R141, R207, R208). SCHED_PAUSE of the present generation,
a cycle in progress, is held, lowering the fence; SYSTEM_HALT, not yet acted on, stops the cycles of a running device at
their next step boundary, and halts a paused one at the lowest cycle it has not sealed (R110, R133). -/
def Obligations.DownwardSetsAbortReplayPauseAndHalt : Prop :=
  (∀ (s : State) (h : SetHdr) (x gen : Nat),
     let n := s.widenEcn x
     (s.hears h (.abort n) → s.live = true → s.rc.abort = none → s.acted (.abort n) h.gen = false →
       h.gen = s.net.gen → s.rc.sealNext ≤ n → (∀ a ∈ s.net.aborts, a.1 = n → a.2 < 2) →
       ∃ t, exec (.abort h x) s = .next t ∧ t.rc.abort = some { n := n, since := s.now, received := true } ∧
         t.net.fence = some (match s.net.fence with | none => n | some f => min f n)) ∧
     (s.hears h (.replayGo n gen) → s.live = true → gen % 16 = (s.net.gen + 1) % 16 →
       ∃ t, exec (.replayGo h x gen) s = .next t ∧ t.net.gen = gen % 16 ∧ t.net.prevGen = s.net.gen ∧
         t.net.prevLimit = s.net.fence.getD s.rc.ecn ∧ t.net.fence = none ∧ t.rc.abort = none) ∧
     (s.hears h (.rewindGo n gen) → s.rc.rewind = some n → gen % 16 = (s.net.gen + 1) % 16 →
       ∃ t, exec (.rewindGo h x gen) s = .next t ∧ t.rc.rewindGone = true ∧ t.rc.rewind = some n ∧
         t.net.gen = gen % 16 ∧ t.net.repeats = [])) ∧
  (∀ (s : State) (h : SetHdr) (x dev : Nat),
     let n := s.widenEcn x
     let fenced (t : State) : Prop := t.net.fence = some (match s.net.fence with | none => n | some f => min f n)
     (s.hears h (.schedPause n) → s.live = true → h.gen = s.net.gen → s.rc.begun = true →
       (∀ q, s.rc.schedPause = some q → n < q) →
       ∃ t, exec (.schedPause h x) s = .next t ∧ t.rc.schedPause = some n ∧ t.rc.state = s.rc.state ∧ fenced t) ∧
     (s.hears h (.systemHalt n dev) → s.acted (.systemHalt n dev) h.gen = false →
       (s.live = true →
         ∃ t, exec (.systemHalt h x dev) s = .next t ∧ t.rc.halting = true ∧ t.rc.state = s.rc.state ∧ fenced t) ∧
       (s.rc.state = .paused →
         ∃ t, exec (.systemHalt h x dev) s = .next t ∧ t.rc.state = .halted ∧ t.rc.ecn = s.rc.sealNext ∧
           t.rd64 Reg.HALT_ECN_LO = s.rc.sealNext % 2 ^ 64 ∧ t.inbox = [] ∧ t.orderly = true)))

/-- A device that is no root passes the upward reports of its children on, up the same tree, where the port to its
parent can send (R218). ROLLED_BACK and a successful REWIND_REPORT of a child, of the present generation, this device
having reported on the same rewind, are held until this device and every child have reported the same, and then go up,
where the port to the parent can send (R125, R141, R214, R218). -/
def Obligations.ReportsGoUpTheirTree : Prop :=
  (∀ (s : State) (h : SetHdr) (x dev code param origin seq lines reason : Nat), s.notRoot →
     s.portSends (s.parent (h.tree - 1)) = true →
     let n := s.widenEcn x
     let up (m : Msg) (t : State) : Prop := ∃ g, TxItem.set (s.parent (h.tree - 1)) h.tree 2 g m ∈ t.tx
     (s.hears h (.abortUp n dev) → ∃ t, exec (.abortUp h x dev) s = .next t ∧ up (.abortUp n dev) t) ∧
     (s.hears h (.schedStop n dev) → ∃ t, exec (.schedStop h x dev) s = .next t ∧ up (.schedStop n dev) t) ∧
     (s.hears h (.haltReport dev) → ∃ t, exec (.haltReport h dev) s = .next t ∧ up (.haltReport dev) t) ∧
     (s.hears h (.triggerUp n origin seq lines) →
       ∃ t, exec (.triggerUp h x origin seq lines) s = .next t ∧ up (.triggerUp n origin seq lines) t) ∧
     (s.hears h (.commandRelay n seq code param) → h.tree = 2 →
       ∃ t, exec (.commandRelay h x seq code param) s = .next t ∧ up (.commandRelay n seq code param) t) ∧
     (s.hears h (.rewindReport n true reason) → h.gen = s.net.gen →
       ∃ t, exec (.rewindReport h x true reason) s = .next t ∧ up (.rewindReport n true reason) t)) ∧
  (∀ (s : State) (h : SetHdr) (x : Nat), s.notRoot → h.gen = s.net.gen →
     let n := s.widenEcn x
     let tree := h.tree - 1
     let held (l l' : List (Nat × Nat)) : Prop :=
       (h.port, n) ∈ l' ∧ ∀ e, e.1 ≠ h.port → (e ∈ l' ↔ e ∈ l)
     let full (l : List (Nat × Nat)) : Prop := ∀ p ∈ 8 :: s.children tree, p = h.port ∨ (p, n) ∈ l
     (s.hears h (.rolledBack n) → s.live = true → ∃ t, exec (.rolledBack h x) s = .next t ∧
       (tree = 0 → held s.net.rolledA t.net.rolledA) ∧ (tree = 1 → held s.net.rolledB t.net.rolledB) ∧
       (full (if tree = 0 then s.net.rolledA else s.net.rolledB) → s.portSends (s.parent tree) = true →
         TxItem.set (s.parent tree) h.tree 2 s.net.gen (.rolledBack n) ∈ t.tx)) ∧
     (s.hears h (.rewindReport n false 0) → s.rc.rewind = some n → ∃ t, exec (.rewindReport h x false 0) s = .next t ∧
       (tree = 0 → held s.net.rewindA t.net.rewindA) ∧ (tree = 1 → held s.net.rewindB t.net.rewindB) ∧
       (full (if tree = 0 then s.net.rewindA else s.net.rewindB) → s.portSends (s.parent tree) = true →
         TxItem.set (s.parent tree) h.tree 2 s.net.gen (.rewindReport n false 0) ∈ t.tx)))

/-- COMMAND, not yet acted on: REWIND_LIMIT sets the limit of the replay, and a RUN from LOADED begins the run at its
target under the next generation, no cluster waking from OFF (R141, R207, R245). TRIGGER, not yet acted on, passes its
lines and its ECN to the trigger sequencer once (R222, R311). -/
def Obligations.CommandAndTriggerSetsTakeEffect : Prop :=
  (∀ (s : State) (h : SetHdr) (x cseq param : Nat),
     let target := s.widenEcn x
     (s.hears h (.command target cseq 0x15 param) → s.acted (.command target cseq 0x15 param) 0 = false →
       s.rc.rewind = none →
       ∃ t, exec (.command h x cseq 0x15 param) s = .next t ∧ t.rc = { s.rc with rewindLimit := target }) ∧
     (s.hears h (.command target cseq 0x10 param) → s.acted (.command target cseq 0x10 param) 0 = false →
       s.rc.state = .loaded → s.rc.inReplay = false → s.window + 1 ≤ s.nBanks → s.treeCheck = none →
       (∀ c, (s.dom c).level ≠ 3) →
       ∃ t, exec (.command h x cseq 0x10 param) s = .next t ∧ t.rc.state = .running ∧ t.rc.ecn = target ∧
         t.rc.runStart = target ∧ t.rc.sealNext = target ∧ t.rc.begun = false ∧ t.net.gen = (s.net.gen + 1) % 16)) ∧
  (∀ (s : State) (h : SetHdr) (x origin seq lines : Nat),
     let n := s.widenEcn x
     s.hears h (.trigger n origin seq lines) →
     s.acted (.trigger n origin seq lines) 0 = false → s.rc.state ≠ .replaying → s.net.trigWait = [] →
     ∃ t, exec (.systemTrigger h x origin seq lines) s = .next t ∧ t.acq.sysIn = some (lines, n) ∧
       ∀ i, t.acq.extNext.testBit i =
         (s.acq.extNext.testBit i || (decide (16 ≤ i ∧ i < 24) && lines.testBit (i - 16))))

/-- The local commands: LOAD_BEGIN enters LOADING and clears the load errors, LOAD_END with every load done and no
mismatch enters LOADED, or the state it came from, and makes the image's identity the active one, UNLOAD enters IDLE
(R239, R241, R468). A write of CMD whose code R239 does not list is rejected: STATUS 7, the cause, records, and nothing
else. The write is served: the block of CMD can be reached, and no domain has to wake. -/
def Obligations.LocalCommandsChangeTheState : Prop :=
  (∀ (s : State) (w : CmdWrite), s.takesCmd w →
     (s.cmdLegal 0x01 (decide (w.param % 2 = 1)) = true →
       ∃ t, exec (.loadBegin w) s = .next t ∧ t.rc.state = .loading ∧ t.rc.loadErr = [] ∧ t.rc.dmErr = [] ∧
         t.rc.mapErr = false ∧ t.fld Reg.CMD_STATUS 28 4 = 2) ∧
     (s.cmdLegal 0x02 false = true → s.loadBlock = none → s.imageMismatches = [] →
       ∃ t, exec (.loadEnd w) s = .next t ∧ t.rc.state = (if s.rc.variant then s.rc.ret else .loaded) ∧
         t.rc.variant = false ∧ t.rd Reg.IMG_ACTIVE_CFG_ID = s.rd Reg.IMG_CFG_ID ∧
         t.rd Reg.IMG_ACTIVE_BODY_ID = s.rd Reg.IMG_BODY_ID ∧ t.rd Reg.IMG_ACTIVE_PROBE_ID = s.rd Reg.IMG_PROBE_ID ∧
         t.fld Reg.CMD_STATUS 28 4 = 2) ∧
     (s.cmdLegal 0x03 false = true →
       ∃ t, exec (.unload w) s = .next t ∧ t.rc.state = .idle ∧ t.rc.inReplay = false ∧
         t.fld Reg.CMD_STATUS 28 4 = 2)) ∧
  (∀ (s : State) (w : CmdWrite) (code : Nat), s.takesCmd w → code % 256 ∉ cmdCodes →
     ∃ t, exec (.cmdNone w code) s = .next t ∧
       t = { s.atBlock Reg.CMD with csr := t.csr, faults := t.faults, tx := t.tx } ∧
       t.fld Reg.CMD_STATUS 28 4 = 7 ∧ t.flag Reg.RC_INT_STAT 1 = true ∧
       s.keepsRegs t [Reg.CMD_STATUS, Reg.RC_INT_STAT])

/-- RUN and STEP on the command root, legal in the state (LOADED or PAUSED, no command pending), their target legal, the
checks of R47 and R221 passed, under a CSEQ not yet acted on, and with no domain to wake: the run begins, or goes on, at
the target T under the next generation. T is 0 with AUTO and CMD_TARGET without it in LOADED, the next cycle in PAUSED.
RUN is done then; a STEP of k cycles arms its pause at T + k, a PARAM of 0 counting as 1 (R207, R239, R243, R245). PAUSE
on the command root arms a pause at its target, which lies beyond the seal window and beyond the cycle in progress;
HALT, none acted on in this generation, stops the cycles of a running system at their step boundary, pending until then,
and halts a paused one; REWIND on a paused or halted one, to a snapshot, fixes the replay limit, sends REWIND_LIMIT and
REWIND to every child, and begins, or rejects, its own part (R141, R242-R245). -/
def Obligations.SystemCommandsOfTheRoot : Prop :=
  (∀ (s : State) (w : CmdWrite), s.takesCmd w → s.isRoot 0 = true → s.rc.cmd = none →
     (s.rc.state = .loaded ∨ (s.rc.state = .paused ∧ (w.auto = true ∨ s.rd64 Reg.CMD_TARGET_LO = s.rc.ecn))) →
     s.window + 1 ≤ s.nBanks → s.treeCheck = none →
     s.acted (.command 0 ((s.rc.cseq + 1) % 65536) 0 0) 0 = false →
     let target := if s.rc.state = .paused then s.rc.ecn else if w.auto then 0 else s.rd64 Reg.CMD_TARGET_LO
     let runs (t : State) : Prop :=
       t.rc.state = (if s.rc.inReplay then .replaying else .running) ∧ t.rc.ecn = target ∧ t.rc.runStart = target ∧
         t.rc.begun = false ∧ t.net.gen = (s.net.gen + 1) % 16
     (∃ t, exec (.run w) s = .next t ∧ runs t ∧ t.rc.pauseAt = none ∧ t.rc.cmd = none ∧
       t.fld Reg.CMD_STATUS 28 4 = 2) ∧
     (∃ t, exec (.step w) s = .next t ∧ runs t ∧ t.rc.pauseAt = some (target + max 1 (w.param % 65536)))) ∧
  (∀ (s : State) (w : CmdWrite), s.takesCmd w → s.isRoot 0 = true →
     let fresh (k : Nat) : Prop := s.acted (.command 0 ((s.rc.cseq + k) % 65536) 0 0) 0 = false
     let horizon := s.rc.sealNext + s.window - 1
     let at_ := if w.auto then horizon + s.fld Reg.RC_CFG 0 8 else s.rd64 Reg.CMD_TARGET_LO
     let target := s.rd64 Reg.CMD_TARGET_LO
     let sent (t : State) (m : Msg) : Prop :=
       ∀ p ∈ s.children 0, s.portSends p = true → TxItem.set p 1 2 s.net.gen m ∈ t.tx
     (s.live = true → s.rc.cmd = none → fresh 1 → (w.auto = true ∨ horizon < at_) → s.rc.ecn < at_ →
       s.rc.stop = none → s.rc.schedPause = none →
       ∃ t, exec (.pause w) s = .next t ∧ t.rc.state = s.rc.state ∧ t.rc.pauseAt = some at_ ∧
         sent t (.command at_ ((s.rc.cseq + 1) % 65536) 0x12 (w.param % 65536))) ∧
     (s.acted (.systemHalt 0 0) s.net.gen = false →
       (s.live = true →
         ∃ t, exec (.halt w) s = .next t ∧ t.rc.halting = true ∧ t.rc.state = s.rc.state ∧
           t.rc.cmd = some ⟨0x14, 0, s.rc.sealNext, s.rc.cseq⟩ ∧ sent t (.systemHalt s.rc.sealNext s.devId)) ∧
       (s.rc.state = .paused →
         ∃ t, exec (.halt w) s = .next t ∧ t.rc.state = .halted ∧ t.rc.ecn = s.rc.sealNext ∧ t.rc.cmd = none ∧
           sent t (.systemHalt s.rc.sealNext s.devId))) ∧
     (s.rc.state = .paused ∨ s.rc.state = .halted → s.rc.cmd = none → fresh 1 → fresh 2 →
       (s.slotOf false target).1.isSome → (s.slotOf false target).2.rc.state ≠ .fatal →
       ∃ t, exec (.rewind w) s = .next t ∧ t.rc.rewindLimit = s.rc.sealNext ∧
         sent t (.command s.rc.sealNext ((s.rc.cseq + 1) % 65536) 0x15 0) ∧
         sent t (.command target ((s.rc.cseq + 2) % 65536) 0x13 (w.param % 65536)) ∧
         (t.rc.rewind = some target ∨ (t.rc.rewind = none ∧ t.rc.cmd = none) ∨ t.rc.state = .fatal)))

/-! ## Fabric checks, loads and the journal (chapters 02 and 06) -/

/-- XQ_RESPONSE marks the tag of its request as arrived and keeps the largest latency; a second failure of a cycle not
yet committed, no abort in progress, is a fault that this device detects and reports up both trees where the port to the
parent can send; the response of a request that no tag refers to changes nothing (R85, R105, R125, R157, R160).
FAB_STALL_WATCHDOG records a stall once, after the limit; BACKGROUND_PASS_READ moves the pass on, and a single-bit error
in an IMEM word is corrected, counted and signalled (R41, R61, R63). -/
def Obligations.XqResponsesAndBackgroundChecks : Prop :=
  (∀ (s : State) (c serial : Nat),
     (∀ (tag : Nat) (x : XqTag), s.xqTagOf c serial = some (tag, x) → s.rc.state ≠ .fatal →
       ∃ t, exec (.xqResponse c serial false) s = .next t ∧
         t = { s with csr := t.csr, clusters := t.clusters } ∧
         t.cl c = { s.cl c with tags := (s.cl c).tags.set (fun _ => none) tag (some { x with arrived := true }) } ∧
         (∀ d, d ≠ c → t.cl d = s.cl d) ∧ s.keepsRegs t [Reg.XQ_STAT c] ∧
         t.fld (Reg.XQ_STAT c) 16 16 = max (s.fld (Reg.XQ_STAT c) 16 16) (min 65535 ((s.now - x.issuedAt) / 10))) ∧
     (∀ (tag : Nat) (x : XqTag), s.xqTagOf c serial = some (tag, x) → s.rc.state ≠ .fatal → s.notRoot →
       s.rc.sealNext ≤ s.rc.ecn → (∀ r, s.cycleRec s.rc.ecn = some r → r.committedAt = none) → s.rc.abort = none →
       ∃ t, exec (.xqResponse c serial true) s = .next t ∧ t.clusters = s.clusters ∧
         t.rc.abort = some { n := s.rc.ecn, since := s.now, received := false } ∧
         ∀ k, k < 2 → s.portSends (s.parent k) = true →
           TxItem.set (s.parent k) (k + 1) 2 s.net.gen (.abortUp s.rc.ecn s.devId) ∈ t.tx) ∧
     (s.xqTagOf c serial = none → ∀ failed, exec (.xqResponse c serial failed) s = .next s)) ∧
  ((∀ (s : State) (c : Nat) (st : Stall), (s.cl c).stall = some st → st.wdDone = false → s.fld Reg.FAB_WD 0 16 ≠ 0 →
     st.began + s.fld Reg.FAB_WD 0 16 * 1000 < s.now →
     ∃ t, exec (.fabStallWatchdog c) s = .next t ∧
       t = { s with csr := t.csr, faults := t.faults, tx := t.tx, clusters := t.clusters } ∧
       t.cl c = { s.cl c with stall := some { st with wdDone := true } } ∧ (∀ d, d ≠ c → t.cl d = s.cl d) ∧
       t.flag Reg.FAB_INT_STAT 2 = true ∧ s.keepsRegs t [Reg.FAB_INT_STAT]) ∧
   (∀ (s : State) (c x : Nat), c < s.nClusters → s.flag Reg.FAB_SCRUB 0 = true → (s.cl c).opened = false →
     (s.dom c).level < 2 → s.passLocation (s.scrubPos.get (fun _ => 0) c) = some x →
     exec (.backgroundPassRead c none) s = .next { s with scrubPos := s.scrubPos.set (fun _ => 0) c (x + 1) } ∧
     (x < 524288 →
       ∃ t, exec (.backgroundPassRead c (some false)) s = .next t ∧
         t = { s with csr := t.csr, faults := t.faults, tx := t.tx,
                      scrubPos := s.scrubPos.set (fun _ => 0) c (x + 1) } ∧
         t.fld (Reg.ECC_CNT c) 24 8 = satAdd 255 (s.fld (Reg.ECC_CNT c) 24 8) 1 ∧
         t.flag Reg.FAB_INT_STAT 0 = true ∧ s.keepsRegs t [Reg.ECC_CNT c, Reg.FAB_INT_STAT])))

/-- A load of IMEM or of a DMB begins, in IDLE or LOADING and none running, with its BUSY bit; nothing of the memories
changes yet. A variant load takes no initial state and no DMB (R65, R154, R468). The write of the register is served, no
domain having to wake; an IMEM load restarts the idle times of the enabled clusters (R437). A load ends with DONE or
with ERROR and no longer runs: the IMEM of the cluster is what its image holds where the image could be read; a DMB
loaded with ZERO reads 0 everywhere, and no other cluster's changes (R65, R154). -/
def Obligations.LoadsBeginAndEnd : Prop :=
  (∀ (s : State) (init : Initiator) (c : Nat) (b : Bool), c < s.nClusters →
     (s.rc.state = .idle ∨ s.rc.state = .loading) →
     (c ∉ s.rc.loadBusy → s.serves init (Reg.IMEM_CTRL c) →
       ∃ t, exec (.imemLoad init c b) s = .next t ∧
         t.rc = { s.rc with loadBusy := c :: s.rc.loadBusy,
                            loadInit := if b && !s.rc.variant then c :: s.rc.loadInit else s.rc.loadInit } ∧
         t.flag (Reg.IMEM_CTRL c) 30 = true ∧ t.awake ∧ s.keepsRegs t [Reg.IMEM_CTRL c] ∧
         t = { s with csr := t.csr, faults := t.faults, tx := t.tx, rc := t.rc, power := t.power, bus := { data := 0 } }) ∧
     (c ∉ s.rc.dmBusy → s.rc.variant = false → s.serves init (Reg.DM_CTRL c) →
       ∃ t, exec (.dmLoad init c b) s = .next t ∧
         t = { s.atBlock (Reg.DM_CTRL c) with csr := t.csr, faults := t.faults, tx := t.tx,
                                              rc := { s.rc with dmBusy := c :: s.rc.dmBusy, lastZero := s.rc.lastZero.set (fun _ => false) c b } } ∧
         t.flag (Reg.DM_CTRL c) 30 = true ∧ s.keepsRegs t [Reg.DM_CTRL c])) ∧
  ((∀ (s : State) (c : Nat), c < 64 → c ∈ s.rc.loadBusy →
     ∃ t, exec (.imemLoadDone c) s = .next t ∧ c ∉ t.rc.loadBusy ∧ t.flag (Reg.IMEM_CTRL c) 30 = false ∧
       (t.flag (Reg.IMEM_CTRL c) 29 = true ∨ (t.flag (Reg.IMEM_CTRL c) 28 = true ∧ c ∈ t.rc.loadErr))) ∧
   (∀ (s : State) (c : Nat) (m : Map Byte), c < 64 → c ∈ s.rc.loadBusy → c ∉ s.rc.loadInit →
     let u := (s.modRc fun r => { r with loadBusy := r.loadBusy.filter (· ≠ c), loadInit := r.loadInit.filter (· ≠ c) }).setFlag
       (Reg.IMEM_CTRL c) 30 false
     (u.loaderRead (u.baseOf (Reg.IMEM_BASE_LO c)) (u.cycleLen * 3072)).1 = .ok m →
     ∃ t, exec (.imemLoadDone c) s = .next t ∧ t.flag (Reg.IMEM_CTRL c) 29 = true ∧
       t.imem = (s.setImem c (wordsOf 12 m)).imem) ∧
   (∀ (s : State) (c : Nat), c < 64 → c ∈ s.rc.dmBusy → s.rc.lastZero.get (fun _ => false) c = true →
     ∃ t, exec (.dmLoadDone c) s = .next t ∧ c ∉ t.rc.dmBusy ∧ t.flag (Reg.DM_CTRL c) 29 = true ∧
       (∀ w, w < 32768 → t.dmb.get (fun _ => 0) (c * 32768 + w) = 0) ∧
       ∀ k, k / 32768 ≠ c → t.dmb.get (fun _ => 0) k = s.dmb.get (fun _ => 0) k))

/-- TAIL_SYNC moves the tail of the journal to its head, a trim begins with a write of JRNL_TRIM_HI, and a trim of an
empty journal is done with its cause set (R166). -/
def Obligations.JournalTailAndTrim : Prop :=
  (∀ (s : State) (init : Initiator), s.serves init Reg.JRNL_CFG → s.preRun = true → s.rc.trim = none → s.flag Reg.JRNL_CFG 30 = false →
    ∃ t, exec (.tailSync init) s = .next t ∧ t.rd64 Reg.JRNL_TAIL_LO = s.rd64 Reg.JRNL_HEAD_LO ∧
      t = { s.atBlock Reg.JRNL_CFG with csr := t.csr, faults := t.faults, tx := t.tx } ∧
      s.keepsRegs t [Reg.JRNL_CFG, Reg.JRNL_TAIL_LO, Reg.JRNL_TAIL_HI]) ∧
  (∀ (s : State) (init : Initiator) (v : Nat), s.serves init Reg.JRNL_TRIM_HI → s.rc.trim = none →
    ∃ t, exec (.jrnlTrim init v) s = .next t ∧
      t.rc = { s.rc with trim := some (s.rd Reg.JRNL_TRIM_LO + 2 ^ 32 * (v % 2 ^ 32)) } ∧
      t.flag Reg.JRNL_STAT 31 = true ∧ s.keepsRegs t [Reg.JRNL_TRIM_HI, Reg.JRNL_STAT]) ∧
  (∀ (s : State) (n : Nat), s.rc.trim = some n → (∃ c ∈ s.clusterIds, (s.dom c).level < 2) →
    s.rd64 Reg.JRNL_HEAD_LO ≤ s.rd64 Reg.JRNL_TAIL_LO →
    ∃ t, exec .trimDone s = .next t ∧ t.rc = { s.rc with trim := none } ∧ t.flag Reg.JRNL_STAT 31 = false ∧
      t.flag Reg.DM_INT_STAT 4 = true ∧ s.keepsRegs t [Reg.JRNL_STAT, Reg.DM_INT_STAT])

/-! ## Memory protection (chapter 16) -/

/-- A permitted read of a PLAIN region returns the bytes of DDR, least significant first; a permitted write changes
exactly its bytes; a read-modify-write does both in one access (R398-R400). No byte of DDR changes where it is stored.
An access to a region without the right gets an error response, is counted as denied and signalled, and changes nothing
of DDR; a read of the host completes with Completer Abort, a write of it is only discarded and logged (R399). -/
def Obligations.DdrAccessFollowsItsRights : Prop :=
  (∀ (s : State) (who : Initiator) (addr n r : Nat) (data : List Byte) (p : DdrPhys),
     s.plainAccess who addr n r → leavesDdr p → s.ddr.wf (fun _ => 0) = true → data.length = n →
     let rights := s.rd (Reg.CR_REG_RIGHTS r)
     let old := natOfBytes ((List.range n).map (fun k => s.ddr.get (fun _ => 0) (addr + k)))
     let put (t : State) : Prop := ∀ a, t.ddr.get (fun _ => 0) a =
       if addr ≤ a ∧ a < addr + n then data.getD (a - addr) 0 else s.ddr.get (fun _ => 0) a
     (rights.testBit (2 * who.num) = true →
       ∃ t, exec (.ddrAccess who .read addr n data p) s = .next t ∧
         t = { s with power := t.power, crypt := s.struck t, bus := { data := old, err := false } }) ∧
     (rights.testBit (2 * who.num + 1) = true →
       ∃ t, exec (.ddrAccess who .write addr n data p) s = .next t ∧
         t = { s with power := t.power, crypt := s.struck t, bus := { data := 0, err := false }, ddr := t.ddr } ∧ put t) ∧
     (rights.testBit (2 * who.num) = true → rights.testBit (2 * who.num + 1) = true →
       ∃ t, exec (.ddrAccess who .rmw addr n data p) s = .next t ∧
         t = { s with power := t.power, crypt := s.struck t, bus := { data := old, err := false }, ddr := t.ddr } ∧ put t)) ∧
  (∀ (s : State) (who : Initiator) (addr n r : Nat) (data : List Byte) (p : DdrPhys),
     s.plainAccess who addr n r → leavesDdr p →
     let rights := s.rd (Reg.CR_REG_RIGHTS r)
     let denied (op : DdrKind) : Prop :=
       ∃ t, exec (.ddrAccess who op addr n data p) s = .next t ∧
         t = { s with csr := t.csr, faults := t.faults, tx := t.tx, power := t.power, host := t.host,
                      crypt := s.struck t, bus := { data := 0, err := decide (who ≠ .hostMmio ∨ op ≠ .write) } } ∧
         t.host = (if who = .hostMmio then { s.host with aerAbort := true } else s.host) ∧
         t.rd Reg.CRYPT_DENIED_CNT = satAdd (2 ^ 32 - 1) (s.rd Reg.CRYPT_DENIED_CNT) 1 ∧
         t.flag Reg.CRYPT_INT_STAT 0 = true ∧ s.keepsRegs t [Reg.CRYPT_DENIED_CNT, Reg.CRYPT_INT_STAT]
     (rights.testBit (2 * who.num) = false → denied .read ∧ denied .rmw) ∧
     (rights.testBit (2 * who.num + 1) = false → denied .write ∧ denied .rmw))

/-- A write to DDR keeps the canonical form of its contents, whoever writes and whatever the outcome. -/
def Obligations.DdrAccessKeepsCanonicalForm : Prop :=
  ∀ (s : State) (who : Initiator) (op : DdrKind) (addr n : Nat) (data : List Byte) (p : DdrPhys),
    s.ddr.wf (fun _ => 0) = true →
    ∃ t, exec (.ddrAccess who op addr n data p) s = .next t ∧ t.ddr.wf (fun _ => 0) = true

/-- The key commands by the Warden on a slot that no enabled region and no re-key names: LOAD takes CRYPT_KEY_DATA, GEN
the random source, ZERO clears; FILLED follows, CRYPT_KEY_DATA is 0 afterwards, and no other slot changes (R409). A key
command on a slot in use, or LOAD or GEN on a FILLED one, leaves every slot as it is; a CRYPT command of another
initiator than the Warden changes no register and no slot, an EN of a region being one where the write counts as a write
of some field (R355, R409, R509). -/
def Obligations.KeyCommandsActOnFreeSlotsOnly : Prop :=
  (∀ (s : State) (slot : Nat), s.serves (.core 0) Reg.CRYPT_KEY_CMD → slot < 32 → s.slotInUse slot = false →
     let after (c : Instr) (v : BitVec 512) (filled : Bool) : Prop :=
       ∃ t, exec c s = .next t ∧ t.key slot = v ∧ t.flag Reg.CRYPT_KEY_STAT slot = filled ∧
         (∀ k, k ≠ slot → t.key k = s.key k) ∧ (∀ w, w < 16 → t.rd (Reg.CRYPT_KEY_DATA w) = 0) ∧
         t.crypt.tags = s.crypt.tags ∧ t.ddr = s.ddr
     (s.flag Reg.CRYPT_KEY_STAT slot = false →
       after (.keyLoad (.core 0) slot) (BitVec.ofNat 512 s.keyData) true ∧
       after (.keyGen (.core 0) slot) (Config.random s.freeCount) true) ∧
     after (.keyZero (.core 0) slot) 0 false) ∧
  (∀ (s : State) (init : Initiator) (slot r word : Nat), s.serves init Reg.CRYPT_KEY_CMD → slot < 32 →
     let same (c : Instr) : Prop := ∃ t, exec c s = .next t ∧ t.crypt = s.crypt ∧ t.ddr = s.ddr
     (s.slotInUse slot = true →
       same (.keyLoad init slot) ∧ same (.keyGen init slot) ∧ same (.keyZero init slot)) ∧
     (s.flag Reg.CRYPT_KEY_STAT slot = true → same (.keyLoad init slot) ∧ same (.keyGen init slot)) ∧
     let foreign (c : Instr) : Prop :=
       ∃ t, exec c s = .next t ∧ t = { s.atBlock Reg.CRYPT_KEY_CMD with csr := t.csr, faults := t.faults, tx := t.tx } ∧
         s.keepsRegs t []
     (init ≠ .core 0 →
       (∀ c ∈ [Instr.keyLoad init slot, .keyGen init slot, .keyZero init slot, .rekey init r word, .cryptLock init],
         foreign c) ∧
       (s.anyCounts (Reg.CR_REG_CFG (r % 16)) (2 ^ 31 + word % 2 ^ 31) = true → foreign (.regionEnable init r word))))

/-- REGION_ENABLE sets EN, a CONF_INT region entering INIT; INIT_DONE makes it READY with every byte of it 0, and no
other byte of DDR changed; LOCK stays set (R410, R415). REKEY of an enabled region whose NEW_SLOT is FILLED, no other
re-key in progress, starts at page 0; each REKEY_PAGE moves the watermark one page on, no page having failed its check
(R411, R412). -/
def Obligations.RegionsAreEnabledLockedAndRekeyed : Prop :=
  ((∀ (s : State) (r word : Nat), s.serves (.core 0) (Reg.CR_REG_CFG r) →
     r < 16 → s.flag Reg.CRYPT_CTRL 31 = false → s.flag (Reg.CR_REG_CFG r) 31 = false →
     s.regionState r = 0 → word.testBit 30 = false → bits word 16 2 ≤ 2 →
     (bits word 16 2 = 0 ∨ s.flag Reg.CRYPT_KEY_STAT (bits word 0 5) = true) →
     ∃ t, exec (.regionEnable (.core 0) r word) s = .next t ∧ t.flag (Reg.CR_REG_CFG r) 31 = true ∧
       t.regionMode r = bits word 16 2 ∧ t.regionState r = (if bits word 16 2 = 2 then 1 else 0) ∧
       t.crypt = s.crypt ∧ t.ddr = s.ddr) ∧
   (∀ (s : State) (r : Nat), r < 16 → s.regionState r = 1 → s.flag Reg.CRYPT_STAT 31 = false →
     ∃ t, exec (.initDone r) s = .next t ∧ t.regionState r = 0 ∧ t.flag Reg.CRYPT_INT_STAT 5 = true ∧
       ∀ a, t.ddr.get (fun _ => 0) a =
         if s.regionBase r ≤ a ∧ a < s.regionBase r + s.fld (Reg.CR_REG_SIZE r) 0 15 * 2 ^ 24 then 0
         else s.ddr.get (fun _ => 0) a) ∧
   (∀ s : State, s.serves (.core 0) Reg.CRYPT_CTRL →
     ∃ t, exec (.cryptLock (.core 0)) s = .next t ∧ t.flag Reg.CRYPT_CTRL 31 = true ∧
     t = { s.atBlock Reg.CRYPT_CTRL with csr := t.csr, faults := t.faults, tx := t.tx } ∧ s.keepsRegs t [Reg.CRYPT_CTRL])) ∧
  ((∀ (s : State) (r : Nat), s.serves (.core 0) (Reg.CR_REG_CFG r) →
     r < 16 → s.flag Reg.CRYPT_CTRL 31 = false → s.flag (Reg.CR_REG_CFG r) 31 = true →
     (s.regionMode r = 1 ∨ s.regionMode r = 2) → s.regionState r = 0 → (∀ q, q < 16 → s.regionState q ≠ 2) →
     s.flag Reg.CRYPT_KEY_STAT (s.fld (Reg.CR_REG_CFG r) 8 5) = true →
     ∃ t, exec (.rekey (.core 0) r (s.rd (Reg.CR_REG_CFG r))) s = .next t ∧ t.regionState r = 2 ∧
       t.fld (Reg.CR_REG_STAT r) 0 26 = 0 ∧ t.flag Reg.CRYPT_STAT 30 = true ∧ t.crypt.keys = s.crypt.keys ∧
       t.ddr = s.ddr) ∧
   (∀ (s : State) (r : Nat), r < 16 → s.regionState r = 2 → s.flag Reg.CRYPT_STAT 31 = false →
     s.crypt.waits = [] → s.fld (Reg.CR_REG_SIZE r) 0 15 ≤ 16384 → s.fld (Reg.CR_REG_STAT r) 0 26 + 1 < s.dataSize r / 4096 →
     (s.regionMode r = 2 →
       (s.checkLines .engine r ((s.regionBase r / 64 + s.fld (Reg.CR_REG_STAT r) 0 26 * 64) * 64) 4096).1 = none) →
     ∃ t, exec (.rekeyPage r) s = .next t ∧ t.regionState r = 2 ∧
       t.fld (Reg.CR_REG_STAT r) 0 26 = s.fld (Reg.CR_REG_STAT r) 0 26 + 1 ∧ t.crypt.keys = s.crypt.keys))

/-! ## Trace, edges, host and rings (chapters 09, 10, 15 and 17) -/

/-- The commands of Spoor move STATE as R426 says: START opens a stream with a full sync, STOP and the end of the amount
after a trigger pad the stream to a line, TRIGGER keeps its position and time, and the end of the drain is STOPPED or
ERROR. Nothing outside Spoor, its registers and the records and messages changes. The writes of SPOOR_CTRL are served.
SPOOR_PACKET shows the pc and mode of its core, where that core executes, and can change no other core; an interrupt
that can be taken ends the wait of a core in TAKE or WFI, and an event of a core that does neither changes nothing; TS
enters the stream when it is due; an error of the DDR ring stops the trace with ERROR; SPOOR_BUF_DATA reads the buffer;
SCOPE opens only to an authorised debugger, a write served (R366, R375, R419, R422, R423, R424, R428, R434). -/
def Obligations.SpoorFollowsItsCommandsAndPackets : Prop :=
  (∀ (s : State) (init : Initiator),
     let pos := [Reg.SPOOR_WRITE_POS_LO, Reg.SPOOR_WRITE_POS_LO + 4]
     let padded := (s.spoor.pos + 63) / 64 * 64
     (s.serves init Reg.SPOOR_CTRL → s.spState = 0 ∨ s.spState = 4 ∨ s.spState = 5 →
       ∃ t, exec (.start init) s = .next t ∧ t = { s.atBlock Reg.SPOOR_CTRL with csr := t.csr, spoor := t.spoor } ∧ t.spState = 1 ∧
         t.spoor.lastSync = 0 ∧ 25 ≤ t.spoor.pos ∧ t.spoor.err = false ∧ t.rd64 Reg.SPOOR_WRITE_POS_LO = t.spoor.pos ∧
         s.keepsRegs t (pos ++ [Reg.SPOOR_CTRL, Reg.SPOOR_STAT])) ∧
     (s.serves init Reg.SPOOR_CTRL → s.spState = 1 ∨ s.spState = 2 →
       ∃ t, exec (.stop init) s = .next t ∧ t = { s.atBlock Reg.SPOOR_CTRL with csr := t.csr, spoor := t.spoor } ∧ t.spState = 3 ∧
         t.spoor.pos = padded ∧ t.spoor.atoms = [] ∧ s.keepsRegs t (pos ++ [Reg.SPOOR_CTRL, Reg.SPOOR_STAT])) ∧
     (s.serves init Reg.SPOOR_CTRL → s.spState = 1 →
       ∃ t, exec (.trigger init) s = .next t ∧
         t = { s.atBlock Reg.SPOOR_CTRL with csr := t.csr, spoor := t.spoor, faults := t.faults, tx := t.tx } ∧ t.spState = 2 ∧
         t.spoor.trigAt = s.now ∧ t.spoor.trigEnd = t.spoor.pos ∧ t.flag Reg.SPOOR_INT_STAT 0 = true ∧
         s.keepsRegs t (pos ++ [Reg.SPOOR_CTRL, Reg.SPOOR_STAT, Reg.SPOOR_TRIG_POS_LO, Reg.SPOOR_TRIG_POS_LO + 4,
           Reg.SPOOR_INT_STAT, Reg.SPOOR_LOST])) ∧
     (s.spState = 2 →
       (if s.flag Reg.SPOOR_TRIG_CFG 31 then s.rd Reg.SPOOR_STOP ≤ s.spoor.pos - s.spoor.trigEnd
         else s.rd Reg.SPOOR_STOP * 1000 ≤ s.now - s.spoor.trigAt) →
       ∃ t, exec .triggerAmountReached s = .next t ∧ t = { s with csr := t.csr, spoor := t.spoor } ∧ t.spState = 3 ∧
         t.spoor.pos = padded ∧ s.keepsRegs t (pos ++ [Reg.SPOOR_STAT])) ∧
     (s.spState = 3 → s.flag Reg.SPOOR_CFG 31 = false →
       ∃ t, exec .stopped s = .next t ∧ t = { s with csr := t.csr, faults := t.faults, tx := t.tx } ∧
         t.spState = (if s.spoor.err then 5 else 4) ∧
         t.rd64 Reg.SPOOR_STOP_POS_LO = s.spoor.pos % 2 ^ 64 ∧ (s.spoor.err = false → t.flag Reg.SPOOR_INT_STAT 1 = true) ∧
         s.keepsRegs t [Reg.SPOOR_STAT, Reg.SPOOR_STOP_POS_LO, Reg.SPOOR_STOP_POS_LO + 4, Reg.SPOOR_INT_STAT])) ∧
  ((∀ (s : State) (k : Nat) (ev : TraceEv) (pc : Nat) (m : Bool), k < 8 → (s.core k).state ≠ 1 →
     (∀ a c, ev ≠ .jump a 2 c) → exec (.spoorPacket k ev pc m) s = .next s) ∧
   (∀ (s : State) (k a cause pc : Nat) (m : Bool), k < 8 → (s.core k).state = 2 ∨ (s.core k).state = 3 →
     s.irqOf k (cause % 64) = true →
     ∃ t, exec (.spoorPacket k (.jump a 2 cause) pc m) s = .next t ∧ (t.dom (74 + k)).level = 0 ∧
       t.core k = { s.core k with state := 1, pc := pc, machine := m, mepc := (s.core k).pc, mcause := 2 ^ 63 + cause % 64 } ∧
       ∀ j, j ≠ k → t.core j = s.core j) ∧
   (∀ (s : State) (k : Nat) (ev : TraceEv) (pc : Nat) (m : Bool), k < 8 → (s.core k).state = 1 →
     ∃ t, exec (.spoorPacket k ev pc m) s = .next t ∧
       t = { s with csr := t.csr, spoor := t.spoor, badger := t.badger, faults := t.faults, tx := t.tx } ∧
       t.core k = { s.core k with pc := pc, machine := m, state := if ev = .wfi then 3 else 1 } ∧ (∀ j, j ≠ k → t.core j = s.core j) ∧
       (s.flag Reg.SPOOR_SRC k = false → s.flag Reg.SPOOR_SRC (8 + k) = false → k ∉ s.spoor.resumed →
         t.spoor = s.spoor) ∧
       s.keepsRegs t [Reg.SPOOR_WRITE_POS_LO, Reg.SPOOR_WRITE_POS_LO + 4, Reg.SPOOR_LOST, Reg.SPOOR_INT_STAT]) ∧
   (∀ s : State, s.spOn = true → s.spoor.tsAt + s.fld Reg.SPOOR_CFG 0 10 * 1000 ≤ s.now →
     s.flag Reg.SPOOR_CFG 31 = false →
     ∃ t, exec .ts s = .next t ∧ t = { s with csr := t.csr, spoor := t.spoor } ∧
       t.spoor.tsAt = s.spoor.tsAt + s.fld Reg.SPOOR_CFG 0 10 * 1000 ∧ s.spoor.pos + 9 ≤ t.spoor.pos ∧
       s.keepsRegs t [Reg.SPOOR_WRITE_POS_LO, Reg.SPOOR_WRITE_POS_LO + 4]) ∧
   (∀ (s : State) (struck : List (Nat × Bool)), 64 ≤ s.spoor.queue.length → s.spoor.err = false →
     ∃ t, exec (.spoorDdrError true struck) s = .next t ∧
       t = { s with csr := t.csr, spoor := t.spoor, faults := t.faults, tx := t.tx } ∧ t.spoor.err = true ∧
       t.flag Reg.SPOOR_INT_STAT 3 = true ∧ (s.spOn = true → t.spState = 3) ∧
       s.keepsRegs t [Reg.SPOOR_WRITE_POS_LO, Reg.SPOOR_WRITE_POS_LO + 4, Reg.SPOOR_STAT, Reg.SPOOR_INT_STAT]) ∧
   (∀ (s : State) (init : Initiator), s.serves init Reg.SPOOR_BUF_DATA →
     s.spState = 0 ∨ s.spState = 4 ∨ s.spState = 5 → s.spoor.upsets = [] →
     let a := s.fld Reg.SPOOR_BUF_ADDR 0 20
     ∃ t, exec (.spoorBufData init []) s = .next t ∧
       t = { s.atBlock Reg.SPOOR_BUF_DATA with csr := t.csr, bus := t.bus } ∧
       t.bus = { data := natOfBytes ((List.range 4).map fun k => s.spoor.buf.get (fun _ => 0) (a + k)), err := false } ∧
       t.fld Reg.SPOOR_BUF_ADDR 0 20 = (a + 4) % 2 ^ 20 ∧ s.keepsRegs t [Reg.SPOOR_BUF_ADDR]) ∧
   (∀ (s : State) (init : Initiator), s.serves init Reg.SPOOR_SCOPE → s.flag Reg.SPOOR_SCOPE 0 = false →
     ∃ t, exec (.scope init 1) s = .next t ∧
       t = { s.atBlock Reg.SPOOR_SCOPE with csr := t.csr, spoor := t.spoor, faults := t.faults, tx := t.tx } ∧
       t.flag Reg.SPOOR_SCOPE 0 = decide (s.fld Reg.DBG_AUTH 0 2 = 2) ∧ t.spState = s.spState ∧
       s.keepsRegs t [Reg.SPOOR_SCOPE, Reg.SPOOR_WRITE_POS_LO, Reg.SPOOR_WRITE_POS_LO + 4, Reg.SPOOR_LOST,
         Reg.SPOOR_INT_STAT]))

/-- INGRESS_ACCEPT puts the word with its two times at WRITE_POS, which moves on; with no space and DROP = 1 the word is
counted as dropped, and with DROP = 0 it does not pass (R257, R258, R260). It is work for the domain of the bridge,
which leaves RETAIN for it (R437, R439). LAUNCH moves the oldest waiting frame whose time has come to the bridge,
EGRESS_WORD passes its next word from the on-chip buffer, the last one marked unless the frame is cut, and EN = 0
discards what waits and cuts what is in progress (R270, R271, R274). -/
def Obligations.LynxWordsEnterAndLeave : Prop :=
  (∀ (s : State) (b : Nat) (w : W64), b < 8 → s.flag (Reg.LX_IN_CFG b) 31 = true → s.lxOpen b = true →
     let p := s.rd64 (Reg.LX_IN_WRITE_POS_LO b)
     let up := (s.dom (98 + b)).level = 0 ∧ (s.dom (98 + b)).goal = none
     (up → s.lxFree b ≠ 0 → s.flag (Reg.LX_IN_CFG b) 28 = false →
       ∃ t, exec (.ingressAccept b w) s = .next t ∧
         t = { s.touch (98 + b) with csr := t.csr, lynx := t.lynx, faults := t.faults, tx := t.tx } ∧
         t.lxEntry b p = some { word := w, tb0 := s.tb0, tb1 := s.time.tb1 } ∧
         t.rd64 (Reg.LX_IN_WRITE_POS_LO b) = (p + 1) % 2 ^ 64 ∧
         (∀ c q, c ≠ b → q < 2 ^ 64 → t.lxEntry c q = s.lxEntry c q) ∧
         s.keepsRegs t [Reg.LX_IN_WRITE_POS_LO b, Reg.LX_IN_WRITE_POS_LO b + 4, Reg.LX_IN_BP_NS b, Reg.LX_INT_STAT]) ∧
     (s.lxFree b ≠ 0 →
       ∃ t, exec (.ingressAccept b w) s = .next t ∧ t.rd64 (Reg.LX_IN_WRITE_POS_LO b) = (p + 1) % 2 ^ 64 ∧
         (t.dom (98 + b)).level = 0) ∧
     (up → s.lxFree b = 0 → s.flag (Reg.LX_IN_CFG b) 30 = false →
       exec (.ingressAccept b w) s = .next (s.touch (98 + b))) ∧
     (up → s.lxFree b = 0 → s.flag (Reg.LX_IN_CFG b) 30 = true →
       ∃ t, exec (.ingressAccept b w) s = .next t ∧
         t = { s.touch (98 + b) with csr := t.csr, faults := t.faults, tx := t.tx } ∧
         t.rd (Reg.LX_IN_DROPPED b) = satAdd (2 ^ 32 - 1) (s.rd (Reg.LX_IN_DROPPED b)) 1 ∧
         t.flag Reg.LX_INT_STAT (8 + b) = true ∧ s.keepsRegs t [Reg.LX_IN_DROPPED b, Reg.LX_INT_STAT])) ∧
  ((∀ (s : State) (b : Nat) (f : LxFrame) (rest : List LxFrame), b < 8 → s.egCurrent b = none →
     s.egWaiting b = f :: rest → f.due ≤ s.baseTime (s.egBase f) → s.rc.state ≠ .fatal →
     s.lxOpen b = true →
     ∃ t, exec (.launch b) s = .next t ∧
       t = { s with csr := t.csr, lynx := t.lynx, faults := t.faults, tx := t.tx } ∧
       t.egCurrent b = some f ∧ t.egWaiting b = rest ∧
       (∀ c, c ≠ b → t.egCurrent c = s.egCurrent c ∧ t.egWaiting c = s.egWaiting c) ∧
       t.rd64 (Reg.LX_EG_LAST_LAUNCH_LO b) = s.tb0 % 2 ^ 64 ∧
       s.keepsRegs t [Reg.LX_EG_LAST_LAUNCH_LO b, Reg.LX_EG_LAST_LAUNCH_LO b + 4, Reg.LX_EG_LATE b, Reg.LX_INT_STAT]) ∧
   (∀ (s : State) (b : Nat) (f : LxFrame) (w : W64) (rest : List W64), s.egCurrent b = some f → f.words = w :: rest →
     s.lxOpen b = true → s.flag (Reg.LX_EG_CFG b) 28 = false →
     ∃ t, exec (.egressWord b none) s = .next t ∧
       t = { s with lynx := t.lynx, tx := s.tx ++ [.lynxWord b w (rest.isEmpty && !f.cut)] } ∧
       t.egCurrent b = (if rest = [] then none else some { f with words := rest, pos := f.pos + 1 }) ∧
       t.lynx.waiting = s.lynx.waiting ∧ t.lynx.entries = s.lynx.entries ∧
       ∀ c, c ≠ b → t.egCurrent c = s.egCurrent c) ∧
   (∀ (s : State) (init : Initiator) (b : Nat), s.serves init (Reg.LX_EG_CFG b) → b < 8 → s.preRun = true →
     ∃ t, exec (.lxEgDisable init b) s = .next t ∧
       t = { s.atBlock (Reg.LX_EG_CFG b) with csr := t.csr, lynx := t.lynx, faults := t.faults, tx := t.tx } ∧
       t.flag (Reg.LX_EG_CFG b) 31 = false ∧ s.keepsRegs t [Reg.LX_EG_CFG b] ∧
       (s.flag (Reg.LX_EG_CFG b) 31 = true → t.egWaiting b = [] ∧
         t.egCurrent b = (s.egCurrent b).map fun f => { f with words := f.words.take 1, cut := true }) ∧
       ∀ c, c ≠ b → t.egCurrent c = s.egCurrent c ∧ t.egWaiting c = s.egWaiting c))

/-- The host link: it comes up once PERST_N is deasserted and BAR2_CTRL is locked, with the width, the rate and the
settings that both sides support; a loss is recorded and signalled, and the host moves the function into and out of
D3hot while it is up (R232, R234, R453). PUSH to an enabled channel with credit stores the word in its ring and moves
WRITE_POS, without credit the word is counted as dropped; POP and PEEK return the word at READ_POS, which only POP
moves; an empty channel answers its status word; LEVEL answers what is held; an isolated window answers with an error,
and the host during a SYSTEM reset reads 0 and writes nothing (R249, R253, R385, R454). -/
def Obligations.HostLinkAndMessagePorts : Prop :=
  ((∀ (s : State) (cfg : LinkCfg), s.host.up = false → s.host.perst = false → s.flag Reg.BAR2_CTRL 31 = true →
     (∃ t, exec (.pcieLinkUp cfg) s = .next t ∧ t = { s with host := t.host } ∧ t.host.up = true ∧ t.host.released = none) ∧
     (cfg.width ∈ [1, 2, 4, 8] → cfg.rate ∈ [2500, 5000, 8000, 16000, 32000] → cfg.maxPayload ∈ [128, 256, 512] →
       cfg.maxRead ∈ [128, 256, 512, 1024, 2048, 4096] →
       exec (.pcieLinkUp cfg) s = .next { s with host := { s.host with
         up := true, released := none, width := cfg.width, rate := cfg.rate, maxPayload := cfg.maxPayload, maxRead := cfg.maxRead
         ecrcGen := cfg.ecrcGen, ecrcCheck := cfg.ecrcCheck, aspmL1 := cfg.aspmL1 } })) ∧
   (∀ s : State, s.host.up = true →
     ∃ t, exec .pcieLinkDown s = .next t ∧
       t = { s with csr := t.csr, faults := t.faults, tx := t.tx, host := { s.host with up := false, width := 0, rate := 0 } } ∧
       t.flag Reg.RC_INT_STAT 5 = true ∧ s.keepsRegs t [Reg.RC_INT_STAT]) ∧
   (∀ (s : State) (on : Bool), s.host.up = true →
     exec (.d3hot on) s = .next { s with host := { s.host with d3hot := on } })) ∧
  (∀ (s : State) (init : Initiator) (ch : Nat) (w : W64), ch < 16 →
     let p := s.rd64 (Reg.MP_IN_WRITE_POS_LO ch)
     let put := s.mpPut (Reg.MP_IN_BASE_LO ch) (Reg.MP_IN_CFG ch) p w
     let head := s.mpWord (Reg.MP_OUT_BASE_LO ch) (Reg.MP_OUT_CFG ch) (s.rd64 (Reg.MP_OUT_READ_POS_LO ch))
     (s.hostDeaf init = true →
       ∀ c ∈ [Instr.push init ch w, .hostOutPop init ch, .peek init ch, .level init ch],
         exec c s = .next { s with bus := { data := 0, err := false } }) ∧
     (s.hostDeaf init = false → s.isolated 10 = true →
       ∀ c ∈ [Instr.push init ch w, .hostOutPop init ch, .peek init ch, .level init ch],
         exec c s = .next { s with bus := { data := 0, err := true } }) ∧
     (s.hostDeaf init = false → s.isolated 10 = false →
       (s.flag (Reg.MP_IN_CFG ch) 31 = true → s.inCredit ch ≠ 0 → put.1 = false →
         ∃ t, exec (.push init ch w) s = .next t ∧
           t = { put.2 with csr := t.csr, rc := { put.2.rc with seenAt := t.rc.seenAt },
                            bus := { data := 0, err := false } } ∧
           t.rd64 (Reg.MP_IN_WRITE_POS_LO ch) = (p + 1) % 2 ^ 64) ∧
       (s.flag (Reg.MP_IN_CFG ch) 31 = false ∨ s.inCredit ch = 0 →
         ∃ t, exec (.push init ch w) s = .next t ∧
           t = { s with csr := t.csr, faults := t.faults, tx := t.tx, bus := { data := 0, err := false } } ∧
           t.rd (Reg.MP_IN_FULL_DROPS ch) = satAdd (2 ^ 32 - 1) (s.rd (Reg.MP_IN_FULL_DROPS ch)) 1 ∧
           s.keepsRegs t [Reg.MP_IN_FULL_DROPS ch]) ∧
       (∀ (x : W64) (u : State), s.outHeld ch ≠ 0 → head = (some x, u) →
         exec (.peek init ch) s = .next { u with bus := { data := x.toNat, err := false } } ∧
         ∃ t, exec (.hostOutPop init ch) s = .next t ∧
           t = { u with csr := t.csr, bus := { data := x.toNat, err := false } } ∧
           t.rd64 (Reg.MP_OUT_READ_POS_LO ch) = (u.rd64 (Reg.MP_OUT_READ_POS_LO ch) + 1) % 2 ^ 64 ∧
           u.keepsRegs t [Reg.MP_OUT_READ_POS_LO ch, Reg.MP_OUT_READ_POS_LO ch + 4]) ∧
       (s.outHeld ch = 0 →
         let t : State := { s with bus := { data := ch * 2 ^ 48, err := false } }
         exec (.peek init ch) s = .next t ∧ exec (.hostOutPop init ch) s = .next t ∧ exec (.level init ch) s = .next t) ∧
       (s.outHeld ch ≠ 0 →
         exec (.level init ch) s =
           .next { s with bus := { data := 2 ^ 63 + ch * 2 ^ 48 + s.outHeld ch % 2 ^ 32, err := false } })))

/-- A DMA descriptor in plain DDR moves its bytes between plain DDR and the host, writes DONE into its status word, and
moves HEAD on; every other byte of DDR stays (R235-R237). Host memory is written in packets of at most the max payload
size, and asked for in requests of at most the max read request size (R232). -/
def Obligations.DmaMovesItsBytes : Prop :=
  ∀ (s : State) (k r q : Nat) (data : List Byte),
    let size := 2 ^ s.fld (Reg.DMA_CFG k) 0 4
    let i := s.fld (Reg.DMA_HEAD k) 0 12 % size
    let addr := s.rd64 (Reg.DMA_RING_BASE_LO k) % 2 ^ 40 + i * 32
    let v := natOfBytes ((List.range 32).map fun j => s.ddr.get (fun _ => 0) (addr + j))
    let host := bits v 0 64
    let int := bits v 64 64
    let len := bits v 128 32
    let may (g x : Nat) : Prop := (s.rd (Reg.CR_REG_RIGHTS g)).testBit x = true
    let status (a : Nat) (old : Byte) : Byte :=
      if addr + 0x18 ≤ a ∧ a < addr + 0x1C then (bytesOfNat (2 ^ 31) 4).getD (a - (addr + 0x18)) 0 else old
    k < 8 → s.flag (Reg.DMA_CFG k) 31 = true → i ≠ s.fld (Reg.DMA_TAIL k) 0 12 % size → s.ddr.wf (fun _ => 0) = true →
    s.plainAccess .hostDma addr 32 r → may r 2 → may r 3 → addr + 32 ≤ 2 ^ 38 → s.host.up = true →
    0 < s.host.maxPayload → 0 < s.host.maxRead →
    host % 4 = 0 → int % 4 = 0 → len % 4 = 0 → 4 ≤ len → len ≤ 2 ^ 24 → int + len ≤ 2 ^ 38 →
    s.plainAccess .hostDma int len q → bits v 162 1 = 0 →
    (bits v 160 1 = 1 → may q 2 →
      ∃ t, exec (.dmaDescriptor k false data) s = .next t ∧
        t = { s with csr := t.csr, power := t.power, ddr := t.ddr,
                     tx := s.tx ++ (cutAt s.host.maxPayload (len / s.host.maxPayload + 2) host len).map fun e =>
                       .hostWrite e.1 ((List.range e.2).map fun j => s.ddr.get (fun _ => 0) (int + (e.1 - host) + j))
                         s.host.ecrcGen } ∧
        t.fld (Reg.DMA_HEAD k) 0 12 = (i + 1) % size % 4096 ∧ s.keepsRegs t [Reg.DMA_HEAD k] ∧
        ∀ a, t.ddr.get (fun _ => 0) a = status a (s.ddr.get (fun _ => 0) a)) ∧
    (bits v 160 1 = 0 → may q 3 →
      ∃ t, exec (.dmaDescriptor k false data) s = .next t ∧
        t = { s with csr := t.csr, power := t.power, ddr := t.ddr,
                     tx := s.tx ++ (cutAt s.host.maxRead (len / s.host.maxRead + 2) host len).map fun e =>
                       .hostRead e.1 e.2 s.host.ecrcGen } ∧
        t.fld (Reg.DMA_HEAD k) 0 12 = (i + 1) % size % 4096 ∧ s.keepsRegs t [Reg.DMA_HEAD k] ∧
        ∀ a, t.ddr.get (fun _ => 0) a = status a
          (if int ≤ a ∧ a < int + len then data.getD (a - int) 0 else s.ddr.get (fun _ => 0) a))

/-- A request that wins its link is injected at the stop of its initiator with the route that the source interface
holds, where that has a credit and injection is not stopped. At the end of its way it becomes outstanding, is parked
where the target is fenced, or gets an error response from an isolated target. Its response goes back on the other ring
and ends it; one to a request that was answered at an isolation is discarded. A packet that loses its link waits. A flit
in error never arrives (R380-R388). A target that has not answered in TIMEOUT_US is isolated and its requests go stale;
the Warden restores it; the stops of a domain fence it one by one, and with the last one the domain, its goal still
permitted, enters it (R385-R388). -/
def Obligations.RingsReachFenceAndIsolate : Prop :=
  (∀ (s : State) (p : Pkt) (src : Nat), s.hostDeaf p.who = false → sourceStop p.who p.unit = some src →
     p.wait ≤ s.fld Reg.SPOOR_RING_CFG 16 8 →
     let noted (t : State) (stop : Nat) : Prop :=
       t.fld (Reg.RING_STOP_STAT stop) 0 8 = max (min p.wait 255) (s.fld (Reg.RING_STOP_STAT stop) 0 8) ∧
         s.keepsRegs t [Reg.RING_STOP_STAT stop]
     let route := s.routeOf src p.target
     let fresh : RingReq := { src := src, target := p.target, tag := p.tag, dom := initDomain p.who p.unit,
                              down := route.1, hops := route.2, since := s.now }
     let may := s.hasCreditFor p.target = true ∧ s.injectionStopped src (initDomain p.who p.unit) = false
     (s.winsLink p = false → exec (.packet p) s = .next s) ∧
     (s.winsLink p = true → p.key.onRing = false → p.key.vc = 0 →
       (¬ may → exec (.packet p) s = .next s) ∧
       (may → p.err = none → ∃ t, exec (.packet p) s = .next t ∧ noted t src ∧
         t = { s with csr := t.csr, ring := { s.ring with flights := s.ring.flights ++ [(fresh, false)] } }) ∧
       (may → p.err = some false → ∃ t, exec (.packet p) s = .next t ∧
         t.ring = { s.ring with flights := s.ring.flights ++ [(fresh, false)] } ∧ t.flag Reg.RING_INT_STAT 1 = true ∧
         t.fld Reg.RING_ECC_CNT 16 16 = satAdd 65535 (s.fld Reg.RING_ECC_CNT 16 16) 1) ∧
       (may → p.err = some true → ∃ t, exec (.packet p) s = .next t ∧ t.ring = s.ring ∧
         t.bus = { data := 0, err := true } ∧ t.flag Reg.RING_INT_STAT 2 = true ∧
         t.fld Reg.RING_ECC_CNT 0 16 = satAdd 65535 (s.fld Reg.RING_ECC_CNT 0 16) 1)) ∧
     (∀ q, s.winsLink p = true → p.key.onRing = false → p.key.vc = 1 → s.ring.outst.find? (pktNames p src) = some q →
       (q.stale = true →
         exec (.packet p) s = .next { s with ring := { s.ring with outst := s.ring.outst.erase q } }) ∧
       (q.stale = false → p.err = none → ∃ t, exec (.packet p) s = .next t ∧ noted t (stopOfTarget p.target) ∧
         t = { s with csr := t.csr, ring := { s.ring with
           outst := s.ring.outst.erase q
           flights := s.ring.flights ++ [({ q with down := !q.down, hops := 28 - q.hops }, true)] } })) ∧
     (∀ q, s.winsLink p = true → p.key.onRing = true → p.key.vc = 1 → p.err = none →
       s.ring.flights.find? (fun f => f.2 = true && pktNames p src f.1) = some (q, true) →
       exec (.packet p) s = .next { s with ring := { s.ring with flights := s.ring.flights.erase (q, true) } }) ∧
     (∀ q, s.winsLink p = true → p.key.onRing = true → p.key.vc = 0 → p.err = none →
       s.ring.flights.find? (fun f => f.2 = false && pktNames p src f.1) = some (q, false) →
       let stop := stopOfTarget q.target
       let gone := s.ring.flights.erase (q, false)
       hopTo q.src q.down q.hops = stop →
       (s.isolated q.target = true → exec (.packet p) s =
         .next { s with ring := { s.ring with flights := gone }, bus := { data := 0, err := true } }) ∧
       (s.isolated q.target = false → s.parksRequest q.target = false → exec (.packet p) s =
         .next { s with ring := { s.ring with flights := gone, outst := s.ring.outst ++ [{ q with since := s.now }] } }) ∧
       (s.isolated q.target = false → s.parksRequest q.target = true → s.parkedAt stop < 16 →
         ∃ t, exec (.packet p) s = .next t ∧ t.flag (Reg.RING_STOP_STAT stop) 30 = true ∧
           s.keepsRegs t [Reg.RING_STOP_STAT stop, Reg.RING_FENCE] ∧
           t = { s with csr := t.csr, ring := { s.ring with
             flights := gone, parked := s.ring.parked ++ [{ q with since := s.now }] } })) ∧
     (s.winsLink p = true → p.key.vc = 2 → p.key.onRing = false → p.err = none →
       ∃ t, exec (.packet p) s = .next t ∧ noted t (p.unit % 28) ∧ t = { s with csr := t.csr })) ∧
  ((∀ (s : State) (k : Nat) (r : RingReq), k < 28 ∨ (32 ≤ k ∧ k < 48) →
     s.ring.outst.find? (fun q => q.target = k && !q.stale &&
       decide (s.fld Reg.RING_CFG 0 8 * 1000 ≤ s.now - q.since)) = some r →
     ∃ t, exec (.ringTargetIsolated k) s = .next t ∧
       t = { s with csr := t.csr, ring := t.ring, spoor := t.spoor, faults := t.faults, tx := t.tx,
                    bus := { data := 0, err := true } } ∧
       t.isolated k = true ∧ (∀ q, q ≠ k → q < 48 → t.isolated q = s.isolated q) ∧
       t.flag Reg.RING_INT_STAT 0 = true ∧
       t.ring = { s.ring with
         outst := s.ring.outst.map fun q => if q.target = k then { q with stale := true } else q }) ∧
   (∀ (s : State) (k : Nat), k < 28 ∨ (32 ≤ k ∧ k < 48) → s.isolated k = true →
     s.serves (.core 0) (if k < 32 then Reg.RING_ISO_LO else Reg.RING_ISO_HI) →
     ∃ t, exec (.ringTargetRestored (.core 0) k) s = .next t ∧
       t = { s.atBlock (if k < 32 then Reg.RING_ISO_LO else Reg.RING_ISO_HI) with csr := t.csr, spoor := t.spoor, faults := t.faults, tx := t.tx } ∧
       t.isolated k = false ∧ ∀ q, q ≠ k → q < 48 → t.isolated q = s.isolated q) ∧
   (∀ (s : State) (stop d : Nat), stop ∈ domStops d → (s.dom d).goal.isSome → s.fencedFor stop d = false →
     exec (.fenceReq stop d) s = .next { s with ring := { s.ring with fencing := s.ring.fencing ++ [(stop, d)] } }) ∧
   (∀ (s : State) (stop d : Nat), stop ∈ domStops d → (stop, d) ∈ s.ring.fencing → s.stopDrained stop d = true →
     s.flag Reg.SPOOR_SRC 17 = false →
     let ring' : Ring := { s.ring with fencing := s.ring.fencing.filter (· ≠ (stop, d)),
                                       fences := s.ring.fences ++ [(stop, d)] }
     (∀ g, (s.dom d).goal = some g → s.levelOk d g = true) →
     ((∃ u ∈ domStops d, u ≠ stop ∧ (u, d) ∉ s.ring.fences) →
       ∃ t, exec (.fenceAck stop d) s = .next t ∧ t = { s with csr := t.csr, ring := ring' } ∧
         t.fenced stop = true ∧ s.keepsRegs t [Reg.RING_FENCE, Reg.RING_STOP_STAT stop]) ∧
     (98 ≤ d → d ≤ 105 → (s.dom d).goal = some 2 →
       ∃ t, exec (.fenceAck stop d) s = .next t ∧ t = { s with csr := t.csr, ring := ring', power := t.power } ∧
         t.fenced stop = true ∧ (t.dom d).level = 2 ∧ (t.dom d).goal = none ∧ (∀ e, e ≠ d → t.dom e = s.dom e) ∧
         s.keepsRegs t [Reg.RING_FENCE, Reg.RING_STOP_STAT stop])))

/-- The owner of a scratchpad bank reads and writes its bytes, and sets and clears bits through the aliases in one
access; another initiator's access changes no byte, and the host has no alias (R389, R390). A write of SPAD_OWNER by the
Warden begins a handover, during which no access reaches the bank; its end shows the new owner, the bank cleared where
CLEAR = 1, and signals it (R391). -/
def Obligations.ScratchpadBytesAndHandover : Prop :=
  (∀ (s : State) (who : Initiator) (k off n v : Nat) (l : List Byte), k < 16 → 0 < n → off + n ≤ 2 ^ 18 → l.length = n →
     s.isolated (32 + k) = false → s.hostDeaf who = false → s.spad.mem.wf (fun _ => 0) = true →
     let at_ (m : Map Byte) (o : Nat) : Byte := m.get (fun _ => 0) (k * 2 ^ 18 + o)
     let wrote (t : State) (f : Nat → Byte) : Prop :=
       t = { s.touch (82 + k) with spad := { s.spad with mem := t.spad.mem }, bus := { data := 0, err := false } } ∧
         (∀ j, j < n → at_ t.spad.mem (off + j) = f j) ∧
         ∀ a, a < k * 2 ^ 18 + off ∨ k * 2 ^ 18 + off + n ≤ a → t.spad.mem.get (fun _ => 0) a = s.spad.mem.get (fun _ => 0) a
     (s.spadGate who k = .reaches → s.spad.bad = [] → s.spad.soft = [] →
       exec (.spadAccess who k off n none []) s = .next { s.touch (82 + k) with
         bus := { data := natOfBytes ((List.range n).map fun j => at_ s.spad.mem (off + j)), err := false } } ∧
       (∃ t, exec (.spadAccess who k off n (some l) []) s = .next t ∧ wrote t (fun j => l.getD j 0)) ∧
       ((n = 4 ∨ n = 8) → off % n = 0 → who ≠ .hostMmio →
         (∃ t, exec (.setAliasWrite who k off n v []) s = .next t ∧
           wrote t (fun j => at_ s.spad.mem (off + j) ||| BitVec.ofNat 8 (v / 256 ^ j))) ∧
         ∃ t, exec (.clearAliasWrite who k off n v []) s = .next t ∧
           wrote t (fun j => at_ s.spad.mem (off + j) &&& ~~~ BitVec.ofNat 8 (v / 256 ^ j)))) ∧
     (who = .hostMmio → exec (.setAliasWrite who k off n v []) s = .next s ∧ exec (.clearAliasWrite who k off n v []) s = .next s) ∧
     (s.spadGate who k ≠ .reaches →
       ∀ c ∈ [Instr.spadAccess who k off n none [], .spadAccess who k off n (some l) []] ++
           (if who = .hostMmio then [] else [.setAliasWrite who k off n v [], .clearAliasWrite who k off n v []]),
         ∃ t, exec c s = .next t ∧
           t = { s with csr := t.csr, faults := t.faults, tx := t.tx, bus := { data := 0, err := false } })) ∧
  ((∀ (s : State) (k owner : Nat) (clear : Bool), s.serves (.core 0) (Reg.SPAD_OWNER k) →
     k < 16 → owner < 16 → s.flag (Reg.SPAD_OWNER k) 31 = false →
     ∃ t, exec (.handover (.core 0) k owner clear) s = .next t ∧
       t = { s.atBlock (Reg.SPAD_OWNER k) with csr := t.csr, spad := t.spad, faults := t.faults, tx := t.tx } ∧
       (let owner' := if 10 ≤ owner ∧ owner ≤ 14 then 15 else owner
        t.spad = { s.spad with handover := s.spad.handover.set (fun _ => none) k (some (owner', clear)) }) ∧
       (∀ who, t.spadGate who k = .busy) ∧ t.fld (Reg.SPAD_OWNER k) 0 4 = s.fld (Reg.SPAD_OWNER k) 0 4 ∧
       s.keepsRegs t [Reg.SPAD_OWNER k]) ∧
   (∀ (s : State) (k owner : Nat) (clear : Bool), k < 16 → owner < 16 →
     s.spad.handover.get (fun _ => none) k = some (owner, clear) →
     (s.dom (82 + k)).level = 0 → (s.dom (82 + k)).goal = none →
     ∃ t, exec (.handoverDone k) s = .next t ∧
       t = { s with csr := t.csr, spad := t.spad, power := t.power, faults := t.faults, tx := t.tx } ∧
       t.flag (Reg.SPAD_OWNER k) 31 = false ∧ t.fld (Reg.SPAD_OWNER k) 0 4 = owner ∧
       t.spad.handover.get (fun _ => none) k = none ∧ t.flag Reg.SPAD_INT_STAT (16 + k) = true ∧
       (∀ a, t.spad.mem.get (fun _ => 0) a =
         if clear ∧ k * 2 ^ 18 ≤ a ∧ a < (k + 1) * 2 ^ 18 then 0 else s.spad.mem.get (fun _ => 0) a) ∧
       s.keepsRegs t [Reg.SPAD_OWNER k, Reg.SPAD_INT_STAT]))

/-! ## Acquisition, DSP and time (chapters 12 and 13) -/

/-- An external event joins the next cycle's word, and a chassis trigger goes up both trees at once; ARM, DISARM and
MEAS_CFG.EN bind to a cycle start; a pulse ends at its time; RES_ACK of the block shown clears READY, or shows the block
that waits (R222, R311, R316, R319, R324, R326). Which lines a chassis trigger carries is open (log 112). GO starts the
DSP at the head of its chain; a descriptor it can read and that is valid runs, and the DSP moves on to the next, or, at
the last, stops and signals its end; an invalid one ends the chain with its cause (R328, R330). -/
def Obligations.AcquisitionAndDspCommands : Prop :=
  ((∀ (s : State) (pin : Nat) (rising : Bool), pin ≤ 8 → (pin < 8 → s.flag (Reg.ACQ_TRIGIO pin) 0 = false) →
     (let edge := if pin < 8 then s.fld (Reg.ACQ_TRIGIO pin) 3 2 else s.fld Reg.ACQ_STAR_CFG 0 2
      edge = 2 ∨ (edge = 0 ∧ rising = true) ∨ (edge = 1 ∧ rising = false)) → s.rc.state ≠ .replaying →
     let gathered : Acq := { s.acq with extNext := s.acq.extNext ||| 2 ^ pin }
     (s.rc.state = .fatal → exec (.trigInputEvent pin rising) s = .next { s with acq := gathered }) ∧
     (s.rc.state ≠ .fatal → s.notRoot → s.net.trigWait = [] → s.net.trigSeq ∉ s.net.trigOut →
       ∃ t lines, exec (.trigInputEvent pin rising) s = .next t ∧ lines < 256 ∧
         t = { s with acq := gathered, tx := t.tx, lines := t.lines, net := t.net, csr := t.csr,
                      freeCount := s.freeCount + 1 } ∧
         ∀ k, k < 2 → s.portSends (s.parent k) = true →
           TxItem.set (s.parent k) (k + 1) 2 s.net.gen (.triggerUp s.latestBegun s.devId s.net.trigSeq lines) ∈ t.tx)) ∧
   (∀ (s : State) (init : Initiator), s.serves init Reg.ACQ_CTRL → s.cap = 0 ∨ s.cap = 4 ∨ s.cap = 5 → s.flag Reg.ACQ_CTRL 30 = false →
     s.rd Reg.ACQ_PRE + s.rd Reg.ACQ_POST + 1 ≤ s.ringCap →
     let low := if s.flag Reg.ACQ_CTRL 29 then s.rd64 Reg.ACQ_ARM_ECN_LO else 0
     ∃ t, exec (.arm init) s = .next t ∧
       t = { s.atBlock Reg.ACQ_CTRL with csr := t.csr, faults := t.faults, tx := t.tx, acq := { s.acq with
         run := { s.acq.run with cap := 1 }, binds := s.acq.binds ++ [{ kind := .arm low }] } } ∧
       s.keepsRegs t [Reg.ACQ_CTRL]) ∧
   (∀ (s : State) (init : Initiator), s.serves init Reg.ACQ_CTRL → s.cap ≠ 0 → s.flag Reg.ACQ_CTRL 31 = false →
     ∃ t, exec (.disarm init) s = .next t ∧
       t = { s.atBlock Reg.ACQ_CTRL with csr := t.csr, faults := t.faults, tx := t.tx, acq := { s.acq with
         binds := s.acq.binds ++ [{ kind := .disarm }] } } ∧
       s.keepsRegs t [Reg.ACQ_CTRL]) ∧
   (∀ (s : State) (pin u : Nat), s.acq.pulses.get (fun _ => none) pin = some u → u ≤ s.now →
     exec (.pulseEnd pin) s = .next { s with acq := { s.acq with pulses := s.acq.pulses.set (fun _ => none) pin none } }) ∧
   (∀ (s : State) (init : Initiator) (b : Nat), b ≤ 4 → s.serves init (blockBase b + 4) →
     let seq := s.fld (blockBase b) 0 16
     ((s.resBlock b).wait = none →
       ∃ t, exec (.resAck init b seq) s = .next t ∧ t = { s.atBlock (blockBase b + 4) with csr := t.csr } ∧
         t.flag (blockBase b) 31 = false ∧ s.keepsRegs t [blockBase b, blockBase b + 4]) ∧
     (∀ q l x, (s.resBlock b).wait = some (q, l, x) →
       ∃ t, exec (.resAck init b seq) s = .next t ∧ t.rd (blockBase b) = (2 ^ 31 + x + q) % 2 ^ 32 ∧
         (t.resBlock b).wait = none ∧ s.keepsMemories t)) ∧
   (∀ (s : State) (init : Initiator) (m : Nat), s.serves init (Reg.MEAS_CFG m) → m < 4 →
     s.flag (Reg.MEAS_CFG m) 31 = false →
     ∃ t, exec (.measEnable init m) s = .next t ∧
       t = { s.atBlock (Reg.MEAS_CFG m) with csr := t.csr, acq := t.acq, faults := t.faults, tx := t.tx,
                                             rc := { s.rc with unsealed := t.rc.unsealed } } ∧
       t.flag (Reg.MEAS_CFG m) 31 = true ∧ t.acq.run.meas.get (fun _ => none) m = none ∧ (t.resBlock m).seq = 0 ∧
       t.acq.binds = s.acq.binds.filter (fun b => b.kind ≠ .meas m) ++ [{ kind := .meas m }] ∧
       s.keepsRegs t [Reg.MEAS_CFG m])) ∧
  ((∀ (s : State) (init : Initiator), s.serves init Reg.DSP_CTRL → s.flag Reg.DSP_CTRL 30 = false →
     ∃ t, exec (.dspGo init) s = .next t ∧
       t = { s.atBlock Reg.DSP_CTRL with csr := t.csr, acq := { s.acq with dsp := { s.acq.dsp with
         index := 0, addr := s.rd64 Reg.DSP_CHAIN_LO % 2 ^ 40, bexp := 0, mx := none, sat := false } } } ∧
       t.flag Reg.DSP_CTRL 30 = true ∧ s.keepsRegs t [Reg.DSP_CTRL]) ∧
   (∀ (s s1 : State) (m : Map Byte), s.flag Reg.DSP_CTRL 30 = true → s.memRead .acq s.acq.dsp.addr 64 = (false, m, s1) →
     let x := dspDesc (natOfBytes (bytesOfMap m 64))
     let r := DspRun.run ⟨s1, s1.acq.dsp, false⟩ x
     (x.invalid = true → ∃ t, exec .dspDescriptor s = .next t ∧ t.flag Reg.DSP_CTRL 30 = false ∧
       t.flag Reg.ACQ_INT_STAT 5 = true ∧ t.acq = s1.acq ∧ t.ddr = s1.ddr ∧ t.spad = s1.spad) ∧
     (x.invalid = false → r.bad = false →
       ∃ t, exec .dspDescriptor s = .next t ∧
         t.acq.dsp = { r.d with index := r.d.index + 1, addr := r.d.addr + 64 } ∧ t.ddr = r.s.ddr ∧ t.spad = r.s.spad ∧
         (x.last = false → t = { r.s with acq := t.acq, freeCount := r.s.freeCount + 1 }) ∧
         (x.last = true → t.flag Reg.DSP_CTRL 30 = false ∧ t.flag Reg.ACQ_INT_STAT 4 = true))))

/-- A discipline edge stamps TB0, applies the step that SET_AT_EDGE has armed, steps TB0 on a large error and otherwise
sets a rate within 200 ppm; an edge at the moment of SET_NOW is stamped and not used; a missing edge unlocks; SET_NOW
steps at once and TB0_ADJ adds to the slew (R336, R337, R348). A due timer, no lower one being due, fires: it is counted
and signalled, and stops or takes its next time; PULSE pulses the pins it names that are outputs, ARM arms the capture,
and COMMAND issues the command it holds (R345-R347). -/
def Obligations.Tb0AndTimers : Prop :=
  ((∀ (s : State) (pin : Option Nat) (rising : Bool), s.isDiscipline pin rising = true →
     let p := s.edgePeriod
     let near := (s.time.tb0 + p / 2) / p * p
     let err := ((s.time.tb0 : Int) - near).natAbs
     let n := if err < 100 then s.time.edges + 1 else 0
     ∃ t, exec (.disciplineEdge pin rising) s = .next t ∧
       t = { s with csr := t.csr, time := t.time, faults := t.faults, tx := t.tx, freeCount := t.freeCount } ∧
       t.rd64 Reg.TB0_EDGE_LO = s.time.tb0 % 2 ^ 64 ∧ t.time.lastEdge = s.time.clock ∧ t.time.clock = s.time.clock ∧
       (s.time.setAt = some s.time.clock → t.time.tb0 = s.time.tb0 ∧ t.time.rate = s.time.rate) ∧
       (s.time.setAt ≠ some s.time.clock → s.flag Reg.TB0_STAT 30 = true → t.time.tb0 = s.rd64 Reg.TB0_SET_LO ∧ t.flag Reg.TB0_STAT 30 = false ∧
         t.flag Reg.TB0_STAT 31 = false ∧ t.flag Reg.TIME_INT_STAT 0 = true) ∧
       (s.time.setAt ≠ some s.time.clock → s.flag Reg.TB0_STAT 30 = false → s.fld Reg.TB0_CFG 16 16 * 1000 < err →
         t.time.tb0 = near % 2 ^ 64 ∧ t.flag Reg.TB0_STAT 31 = false ∧ t.flag Reg.TIME_INT_STAT 0 = true) ∧
       (s.time.setAt ≠ some s.time.clock → s.flag Reg.TB0_STAT 30 = false → err ≤ s.fld Reg.TB0_CFG 16 16 * 1000 →
         t.time.tb0 = s.time.tb0 ∧ -200000 ≤ t.time.rate ∧ t.time.rate ≤ 200000 ∧ t.time.edges = n ∧
         t.flag Reg.TB0_STAT 31 = (decide (4 ≤ n) || s.flag Reg.TB0_STAT 31)) ∧
       s.keepsRegs t [Reg.TB0_EDGE_LO, Reg.TB0_EDGE_LO + 4, Reg.TB0_STAT, Reg.TB0_RATE, Reg.TIME_INT_STAT]) ∧
   (∀ s : State, s.fld Reg.TB0_CFG 0 2 ≠ 0 → s.time.lostNoted = false →
     s.edgePeriod * 3 / 2 ≤ s.time.clock - s.time.lastEdge →
     ∃ t, exec .timeSyncLost s = .next t ∧
       t = { s with csr := t.csr, faults := t.faults, tx := t.tx, time := { s.time with lostNoted := true, edges := 0 } } ∧
       t.flag Reg.TB0_STAT 31 = false ∧ t.flag Reg.TIME_INT_STAT 1 = true ∧
       s.keepsRegs t [Reg.TB0_STAT, Reg.TIME_INT_STAT]) ∧
   (∀ (s : State) (init : Initiator), s.serves init Reg.TB0_CTRL →
     (∃ t, exec (.setNow init) s = .next t ∧
       t = { s.atBlock Reg.TB0_CTRL with csr := t.csr, faults := t.faults, tx := t.tx, time := t.time } ∧
       t.time.tb0 = s.rd64 Reg.TB0_SET_LO ∧ t.time.clock = s.time.clock ∧ t.time.edges = 0 ∧
       t.flag Reg.TB0_STAT 31 = false ∧ t.flag Reg.TIME_INT_STAT 0 = true ∧
       s.keepsRegs t [Reg.TB0_CTRL, Reg.TB0_STAT, Reg.TIME_INT_STAT]) ∧
     (∃ t, exec (.setAtEdge init) s = .next t ∧ t = { s.atBlock Reg.TB0_CTRL with csr := t.csr } ∧ t.flag Reg.TB0_STAT 30 = true ∧
       s.keepsRegs t [Reg.TB0_CTRL, Reg.TB0_STAT]) ∧
     (∀ v, v < 2 ^ 32 → ∃ t, exec (.tb0Adj init v) s = .next t ∧
       t = { s.atBlock Reg.TB0_ADJ with csr := t.csr, time := { s.time with slew := s.time.slew + fieldInt true 32 v * 10 ^ 9 } } ∧
       s.keepsRegs t [Reg.TB0_ADJ]))) ∧
  (∀ (s : State) (k : Nat), k < 8 → s.timerDue k = true → (∀ j, j < k → s.timerDue j = false) →
     s.time.late = [] → s.time.skip = [] →
     let p := s.time.tmrPeriod.get (fun _ => 0) k
     let act := s.fld (Reg.TMR_CFG k) 28 2
     let fired (t : State) : Prop :=
       t.fld (Reg.TMR_STAT k) 16 16 = satAdd 65535 (s.fld (Reg.TMR_STAT k) 16 16) 1 ∧
         t.flag Reg.TIME_INT_STAT (8 + k) = true ∧ (p = 0 → t.flag (Reg.TMR_CFG k) 31 = false) ∧
         (p ≠ 0 → t.timerTime k = (s.timerTime k + p) % 2 ^ 64 ∧ t.flag (Reg.TMR_CFG k) 31 = true)
     let pulsed (j : Nat) : Prop := if j < 8 then s.flag (Reg.TMR_CFG k) (16 + j) = true ∧ s.flag (Reg.ACQ_TRIGIO j) 0 = true
       else j = 8 ∧ s.flag (Reg.TMR_CFG k) 15 = true
     (act = 0 →
       ∃ t, exec (.timerPulse k) s = .next t ∧ fired t ∧
         t = { s with csr := t.csr, time := t.time, tx := t.tx, acq := { s.acq with pulses := t.acq.pulses } } ∧
         ∀ j, (pulsed j → t.acq.pulses.get (fun _ => none) j = some (s.now + s.fld Reg.ACQ_OUT_CFG 0 20)) ∧
           (¬ pulsed j → t.acq.pulses.get (fun _ => none) j = s.acq.pulses.get (fun _ => none) j)) ∧
     (act = 1 → s.cap = 0 ∨ s.cap = 4 ∨ s.cap = 5 → s.flag Reg.ACQ_CTRL 30 = false →
       s.rd Reg.ACQ_PRE + s.rd Reg.ACQ_POST + 1 ≤ s.ringCap →
       ∃ t, exec (.timerArm k) s = .next t ∧ fired t ∧ t.cap = 1 ∧
         t = { s with csr := t.csr, time := t.time, faults := t.faults, tx := t.tx, acq := t.acq }) ∧
     (act = 2 → s.fld (Reg.TMR_CMD k) 0 8 = 1 →
       s.cmdLegal 1 (decide (s.fld (Reg.TMR_CMD k) 8 16 % 2 = 1)) = true →
       ∃ t, exec (.timerCommand k) s = .next t ∧ fired t ∧ t.rc.state = .loading ∧ t.fld Reg.CMD_STATUS 28 4 = 2 ∧
         s.keepsMemories t))

/-- The four sets of a time exchange, each good, with the right CRC-16 and of the tree's master, on an UP system port of
a device that is not in FATAL: the parent begins with SYNC and FOLLOW_UP, the child answers with DELAY_REQ, the parent
with DELAY_RESP, and the child's servo acquires, no part being overdue; a SYNC that finds an exchange unfinished counts
it lost. A bad set is counted and does nothing; a port whose peer is down takes none (R224, R339, R340, R342). An
exchange whose part is missing at its bound is dropped and counted; a servo, of a device that is no root, without an
exchange for 8 intervals goes to HOLDOVER; TB1 returns to A once A has been LOCKED for a second (R340, R342, R343). -/
def Obligations.TimeExchangesAndServos : Prop :=
  (∀ (s : State) (x : ExchSet), x.tree < 2 →
     let k := x.port * 2 + x.tree
     let m := s.masterOf x.tree
     let takes : Prop := s.upSystem x.port = true ∧ (s.link x.port).peerDown = false ∧ s.rc.state ≠ .fatal
     let onTime : Prop := s.endExch x.port x.tree = s
     let crcOf (typ : Nat) := crc16 (exchBytes typ x.tree x.seq x.master x.stamp)
     (∀ frac, x.port ∈ s.children x.tree → takes → s.time.exchP.get (fun _ => none) k = none → onTime →
       s.time.dueAt.get (fun _ => 0) k + 1000 * 2 ^ s.fld Reg.TB1_CFG 8 4 ≤ s.time.clock →
       let q := s.time.seqs.get (fun _ => 0) k
       ∃ t stamp, exec (.exchangeDue x.port x.tree frac) s = .next t ∧
         t = { s with time := t.time, freeCount := s.freeCount + 1, lines := t.lines,
                      tx := s.tx ++ [.exch x.port 1 x.tree q m 0, .exch x.port 2 x.tree q m stamp] } ∧
         t.time.exchP.get (fun _ => none) k =
           some { seq := q, began := s.time.clock, asym := s.asym x.port false } ∧
         t.time.seqs.get (fun _ => 0) k = (q + 1) % 256 ∧ t.time.tb0 = s.time.tb0 ∧ t.time.exchC = s.time.exchC) ∧
     (¬ takes → ∀ c ∈ [Instr.sync x, .followUp x, .delayReq x, .delayResp x], exec c s = .next s) ∧
     (takes → ∀ (typ : Nat) (c : Instr), (typ, c) ∈ [(1, Instr.sync x), (2, .followUp x), (3, .delayReq x), (4, .delayResp x)] →
       x.bad = true ∨ x.crc ≠ crcOf typ →
       ∃ t, exec c s = .next t ∧ t = { s with csr := t.csr } ∧
         t.rd Reg.EXCH_ERR = satAdd (2 ^ 32 - 1) (s.rd Reg.EXCH_ERR) 1 ∧ s.keepsRegs t [Reg.EXCH_ERR]) ∧
     (takes → x.bad = false → x.master = m → onTime →
       (x.crc = crcOf 1 → s.fromParent x.tree x.port = true → (s.time.exchC.get (fun _ => none) x.tree).isSome →
         ∃ t e, exec (.sync x) s = .next t ∧ t = { s with time := t.time, csr := t.csr } ∧
           t.time.exchC.get (fun _ => none) x.tree = some e ∧ e.port = x.port ∧ e.seq = x.seq ∧ e.t1 = none ∧
           t.rd Reg.EXCH_LOST = satAdd (2 ^ 32 - 1) (s.rd Reg.EXCH_LOST) 1 ∧ s.keepsRegs t [Reg.EXCH_LOST]) ∧
       (x.crc = crcOf 1 → s.fromParent x.tree x.port = true → s.time.exchC.get (fun _ => none) x.tree = none →
         ∃ t e, exec (.sync x) s = .next t ∧ t = { s with time := t.time } ∧
           t.time.exchC.get (fun _ => none) x.tree = some e ∧ e.port = x.port ∧ e.seq = x.seq ∧ e.t1 = none ∧
           e.began = s.time.clock ∧ t.time.exchP = s.time.exchP ∧ t.time.tb0 = s.time.tb0) ∧
       (∀ e, x.crc = crcOf 2 → s.fromParent x.tree x.port = true →
         s.time.exchC.get (fun _ => none) x.tree = some e → e.port = x.port → e.seq = x.seq → e.t1 = none →
         ∃ t e', exec (.followUp x) s = .next t ∧
           t = { s with time := t.time, freeCount := s.freeCount + 1, lines := t.lines,
                        tx := s.tx ++ [.exch x.port 3 x.tree x.seq m 0] } ∧
           t.time.exchC.get (fun _ => none) x.tree = some e' ∧ e'.t1.isSome ∧ e'.t2 = e.t2 ∧ e'.seq = e.seq ∧
           t.time.tb0 = s.time.tb0) ∧
       (∀ e, x.crc = crcOf 3 → s.time.exchP.get (fun _ => none) k = some e → e.seq = x.seq →
         ∃ t stamp, exec (.delayReq x) s = .next t ∧
           t = { s with time := t.time, freeCount := s.freeCount + 1, lines := t.lines,
                        tx := s.tx ++ [.exch x.port 4 x.tree x.seq m stamp] } ∧
           t.time.exchP.get (fun _ => none) k = none ∧ t.time.tb0 = s.time.tb0) ∧
       (∀ e t1, x.crc = crcOf 4 → s.time.exchC.get (fun _ => none) x.tree = some e → e.t1 = some t1 → e.port = x.port →
         e.seq = x.seq → s.rc.state ≠ .idle → s.isMaster x.tree = false → s.isRoot x.tree = false → (s.servo x.tree).known = false →
         (s.servo x.tree).state = 0 →
         ∃ t, exec (.delayResp x) s = .next t ∧
           t = { s with csr := t.csr, time := t.time, faults := t.faults, tx := t.tx, freeCount := s.freeCount + 3 } ∧
           t.time.exchC.get (fun _ => none) x.tree = none ∧ (t.servo x.tree).known = true ∧
           (t.servo x.tree).state = 1 ∧ (t.servo x.tree).last = s.time.clock ∧ t.time.tb0 = s.time.tb0))) ∧
  ((∀ (s : State) (port tree : Nat), tree < 2 →
     let lost (t : State) : Prop := t = { s with csr := t.csr, time := t.time } ∧
       t.rd Reg.EXCH_LOST = satAdd (2 ^ 32 - 1) (s.rd Reg.EXCH_LOST) 1 ∧ s.keepsRegs t [Reg.EXCH_LOST] ∧
       t.time.tb0 = s.time.tb0
     (∀ e, s.time.exchP.get (fun _ => none) (port * 2 + tree) = some e → e.began + 4000 ≤ s.time.clock →
       ∃ t, exec (.exchLost port tree true) s = .next t ∧ lost t ∧
         t.time.exchP.get (fun _ => none) (port * 2 + tree) = none) ∧
     (∀ e, s.time.exchC.get (fun _ => none) tree = some e → e.port = port →
       e.began + (if e.t1 = none then 1000 else 4000) ≤ s.time.clock →
       ∃ t, exec (.exchLost port tree false) s = .next t ∧ lost t ∧ t.time.exchC.get (fun _ => none) tree = none)) ∧
   (∀ (s : State) (k : Nat), k < 2 → s.rc.state ≠ .idle → s.notRoot → (s.servo k).state = 1 ∨ (s.servo k).state = 2 →
     (s.servo k).last + 8000 * 2 ^ s.fld Reg.TB1_CFG 8 4 ≤ s.time.clock →
     ∃ t, exec (.servoHoldover k) s = .next t ∧ (t.servo k).state = 3 ∧ (t.servo k).est = (s.servo k).est ∧
       t.servo (1 - k) = s.servo (1 - k) ∧ t = { s with csr := t.csr, time := t.time, faults := t.faults, tx := t.tx }) ∧
   (∀ s : State, s.fld Reg.TB1_CFG 0 2 = 0 → s.time.target = 1 → s.servoState 0 = 2 →
     (∃ a, s.time.aLocked = some a ∧ a + 10 ^ 9 ≤ s.time.clock) →
     ∃ t, exec .tb1TargetReturn s = .next t ∧ t.time.target = 0 ∧ t.flag Reg.TIME_INT_STAT 2 = true ∧
       t.time.tb1Locked = true ∧ (s.notRoot → t.time.servoA = s.time.servoA ∧ t.time.servoB = s.time.servoB) ∧
       t = { s with csr := t.csr, time := t.time, faults := t.faults, tx := t.tx }))

/-! ## Badger, dispatcher, mailboxes and caches (chapter 14) -/

/-- TAKE and TRYTAKE retire with the token of the selected task in their destination, or wait, or take 0; READY queues
an idle task, DONE ends a run, DEFER delays a task by ticks, and with no core waiting nothing else moves; a custom-0
word that spells none of the eight raises the illegal-instruction exception (R357-R367). Where that exception goes is
open (log 8). The tick counts microseconds and readies a task whose deadline has come; a hold ends after AFF_TICKS; a
write of POLICY, served, moves the dispatcher to ORDERLY, which ends every hold, and back, which clears the causes
(R360, R361, R367). -/
def Obligations.DispatcherOperationsAndTicks : Prop :=
  (∀ (s : State) (d : CoreInst) (u : Nat), u < 1024 →
     let k := d.core
     let after := (d.pc + 4) % 2 ^ 64
     let rd := bits d.word.toNat 7 5
     let stays (t : State) : Prop := ∀ v, v ≠ u → t.task v = s.task v
     let alone (t : State) : Prop := ∀ j, j ≠ k → t.core j = s.core j
     let idle : Prop := ∀ j, j < 8 → (s.core j).state ≠ 2
     (s.select k = some u → (s.dom (74 + k)).level = 0 → (s.dom (74 + k)).goal = none →
       ∀ c, (c = Instr.take d ∧ s.executes d .take) ∨ (c = .tryTake d ∧ s.executes d .tryTake) → ∃ t, exec c s = .next t ∧
         t = { s with badger := t.badger, power := t.power, bus := { data := s.taskToken u, err := false } } ∧
         t.core k = { s.core k with task := some u, rd := rd, x := (t.core k).x, pc := after } ∧
         (∀ r, (t.core k).x.get (fun _ => 0) r =
           if r = rd ∧ rd ≠ 0 then BitVec.ofNat 64 (s.taskToken u) else (s.core k).x.get (fun _ => 0) r) ∧
         t.task u = { s.task u with state := 4, core := k, held := none } ∧ stays t ∧ alone t ∧
         t.badger.ready = s.badger.ready.filter (· ≠ u)) ∧
     (s.select k = none → s.executes d .take →
       ∃ t, exec (.take d) s = .next t ∧ t = { s.touch (74 + k) with badger := { s.badger with cores := t.badger.cores } } ∧
         t.core k = { s.core k with state := 2, since := s.now, rd := rd, pc := d.pc % 2 ^ 64 } ∧ alone t) ∧
     (s.select k = none → s.executes d .tryTake →
       ∃ t, exec (.tryTake d) s = .next t ∧ t = { s.touch (74 + k) with
           badger := { s.badger with cores := t.badger.cores }, bus := { data := 0, err := false } } ∧
         t.core k = { s.core k with rd := rd, x := (t.core k).x, pc := after } ∧
         (rd ≠ 0 → (t.core k).x.get (fun _ => 0) rd = 0) ∧ alone t) ∧
     (s.executes d .ready → instTask d = u →
       (s.taskState u = 1 → idle →
         ∃ t, exec (.ready d) s = .next t ∧ t = { s.touch (74 + k) with badger := t.badger } ∧ (t.task u).state = 2 ∧
           stays t ∧ alone t ∧ t.core k = { s.core k with pc := after } ∧ t.badger.ready = s.badger.ready ++ [u]) ∧
       (s.taskState u = 4 →
         ∃ t, exec (.ready d) s = .next t ∧ t = { s.touch (74 + k) with
             badger := { s.badger with tasks := t.badger.tasks, cores := t.badger.cores } } ∧
           t.core k = { s.core k with pc := after } ∧ alone t ∧ t.task u = { s.task u with pending := true } ∧ stays t)) ∧
     (∀ init, s.serves init Reg.DISP_READY → s.taskState u = 1 → idle →
       ∃ t, exec (.dispReady init u) s = .next t ∧ t = { s.atBlock Reg.DISP_READY with csr := t.csr, badger := t.badger } ∧
         (t.task u).state = 2 ∧ stays t ∧ t.badger.ready = s.badger.ready ++ [u] ∧ t.badger.cores = s.badger.cores ∧
         s.keepsRegs t [Reg.DISP_READY]) ∧
     (s.executes d .done → instTask d = u → s.taskState u = 4 → (s.task u).core = k → (s.task u).pending = false →
       ∃ t, exec (.done d) s = .next t ∧ t = { s.touch (74 + k) with
           badger := { s.badger with tasks := t.badger.tasks, cores := t.badger.cores } } ∧
         t.task u = { s.task u with state := 1, last := some k, pending := false } ∧ stays t ∧ alone t ∧
         (t.core k).task ≠ some u ∧ (t.core k).pc = after) ∧
     (s.executes d .defer_ → instTask d = u →
       s.taskState u = 1 ∨ s.taskState u = 3 ∨ (s.taskState u = 4 ∧ (s.task u).core = k) →
       let n := instReg d 20 d.rs2 % 2 ^ 32
       n ≠ 0 →
       ∃ t, exec (.defer_ d) s = .next t ∧ t = { s.touch (74 + k) with badger := t.badger } ∧ (t.task u).state = 3 ∧
         (t.task u).deadline = s.badger.tick + n ∧ stays t ∧ alone t ∧ (t.core k).pc = after ∧
         t.badger.delayed = s.badger.delayed.filter (· ≠ u) ++ [u]) ∧
     (k < 8 → (s.core k).state = 1 → bits d.word.toNat 0 7 = 0x0B → dvorbeng d.word = none →
       ∀ c ∈ [Instr.take d, .tryTake d, .ready d, .done d, .defer_ d, .clean d, .cinv d, .cflush d],
         ∃ t, exec c s = .next t ∧ alone t ∧
           t = { s.touch (74 + k) with badger := { s.badger with cores := t.badger.cores }, freeCount := s.freeCount + 1 } ∧
           t.core k = { s.core k with
             pc := (t.core k).pc, machine := true, mcause := 2, mepc := d.pc % 2 ^ 64, mtval := d.word.toNat })) ∧
  (∀ s : State, (∀ j, j < 8 → (s.core j).state ≠ 2) →
     (s.badger.tickAt + 1000 ≤ s.now → (∀ u ∈ s.badger.delayed, s.badger.tick + 1 < (s.task u).deadline) →
       exec .dispTick s = .next { s with badger := { s.badger with
         tick := s.badger.tick + 1, tickAt := s.badger.tickAt + 1000 } }) ∧
     (∀ u, s.badger.tickAt + 1000 ≤ s.now → s.badger.delayed = [u] → (s.task u).deadline ≤ s.badger.tick + 1 →
       ∃ t, exec .dispTick s = .next t ∧ t = { s with badger := t.badger } ∧ t.badger.tick = s.badger.tick + 1 ∧
         (t.task u).state = 2 ∧ t.badger.delayed = [] ∧ t.badger.ready = s.badger.ready ++ [u]) ∧
     (∀ u h, (s.task u).held = some h → h + s.fld Reg.DISP_CTRL 8 8 ≤ s.badger.tick →
       ∃ t, exec (.holdExpiry u) s = .next t ∧ t = { s with badger := { s.badger with tasks := t.badger.tasks } } ∧
         t.task u = { s.task u with held := none } ∧ ∀ v, v ≠ u → t.task v = s.task v) ∧
     (∀ init, s.serves init Reg.DISP_CTRL → s.badger.ready = [] →
       (s.orderly = false → ∃ t, exec (.policy init 1) s = .next t ∧ t.orderly = true ∧
         t = { s.atBlock Reg.DISP_CTRL with
           csr := t.csr, faults := t.faults, tx := t.tx, badger := { s.badger with tasks := t.badger.tasks } } ∧
         (∀ u, t.task u = { s.task u with held := none }) ∧ s.keepsRegs t [Reg.DISP_CTRL]) ∧
       (s.orderly = true → ∃ t, exec (.policy init 0) s = .next t ∧ t.orderly = false ∧
         t = { s.atBlock Reg.DISP_CTRL with csr := t.csr, faults := t.faults, tx := t.tx } ∧ t.fld Reg.DISP_STAT 29 3 = 0 ∧
         s.keepsRegs t [Reg.DISP_CTRL, Reg.DISP_STAT])))

/-- The Warden resets a core: its caches and its task are lost, its epoch advances, it starts at its boot address if RUN
is 1, and the dispatcher is ORDERLY; RUN = 1 releases a core, RUN = 0 resets it (R355, R356, R364). The writes are
served. A write of WORD fills its mailbox with the sender and its epoch, a second one marking a collision; the
receiver's read empties it; a write of STATUS clears what its bits name (R370-R373). The window is reached. -/
def Obligations.CoreResetsAndMailboxes : Prop :=
  (∀ (s : State) (k : Nat), s.serves (.core 0) (Reg.BG_CORE_CTRL k) → 0 < k → k < 8 →
     let runs := s.flag (Reg.BG_CORE_CTRL k) 30
     let wiped (t : State) (run : Bool) : Prop :=
       t.core k = { epoch := ((s.core k).epoch + 1) % 256, state := if run then 1 else 0, pc := s.bootPc k } ∧
         t.orderly = true ∧ t.flag Reg.DISP_STAT 29 = true ∧ t.flag (Reg.BG_CORE_CTRL k) 30 = run ∧
         (∀ a, k * 2 ^ 34 ≤ a → a < (k + 1) * 2 ^ 34 → t.badger.icache.get (fun _ => none) a = none ∧
           t.badger.dcache.get (fun _ => none) a = none) ∧ k ∉ t.dbg.halted ∧ s.keepsMemories t
     (∃ t, exec (.coreReset (.core 0) k) s = .next t ∧ wiped t runs) ∧
     (runs = true → ∃ t, exec (.coreRun (.core 0) k false) s = .next t ∧ wiped t false) ∧
     (runs = false → s.flag (Reg.BG_CORE_CTRL k) 31 = false →
       ∃ t, exec (.coreRun (.core 0) k true) s = .next t ∧
         t = { s with csr := t.csr, faults := t.faults, tx := t.tx, power := t.power, bus := { data := 0 },
                      badger := { s.badger with cores := t.badger.cores } } ∧
         t.core k = { s.core k with state := 1, pc := s.bootPc k, machine := true } ∧
         (∀ j, j ≠ k → t.core j = s.core j) ∧ t.flag (Reg.BG_CORE_CTRL k) 30 = true ∧
         s.keepsRegs t [Reg.BG_CORE_CTRL k])) ∧
  (∀ (s : State) (who : Initiator) (m : Nat) (w : W64), m < 64 → s.isolated 10 = false → s.hostDeaf who = false →
     let b := s.mbox m
     let others (t : State) : Prop := ∀ j, j ≠ m → t.mbox j = s.mbox j
     (s.receiverDown m = false →
       ∃ t, exec (.wordWrite who m w) s = .next t ∧ t.bus = { data := 0, err := false } ∧ others t ∧
         t.mbox m = { b with word := w, full := true, sender := agentOf who, senderEpoch := s.epochOf (agentOf who),
                             collision := b.collision || b.full } ∧
         t.fld (Reg.MB_COUNT m) 0 16 = satAdd 65535 (s.fld (Reg.MB_COUNT m) 0 16) 1 ∧ s.keepsMemories t) ∧
     (agentOf who = s.receiver m → b.full = true →
       ∃ t, exec (.wordRead who m) s = .next t ∧ others t ∧ t.mbox m = { b with full := false } ∧
         t = { s with badger := { s.badger with boxes := t.badger.boxes }, bus := { data := b.word.toNat, err := false } }) ∧
     (∃ t, exec (.statusWrite who m w) s = .next t ∧ others t ∧
       t.mbox m = { b with collision := b.collision && !w.toNat.testBit 62, lost := b.lost && !w.toNat.testBit 61,
                           lostCount := if w.toNat.testBit 60 then 0 else b.lostCount } ∧
       t = { s with badger := { s.badger with boxes := t.badger.boxes }, bus := { data := 0, err := false } }))

/-- CLEAN writes a dirty line back, CFLUSH also drops it, CINV drops it without a write; a store hits its line and makes
it dirty, a load that misses brings the line in from DDR and returns its bytes, a corrected error is counted, and
FENCE.I empties the instruction cache (R353, R354, R357). -/
def Obligations.CacheLinesMoveAsTold : Prop :=
  ∀ (s : State) (k addr r : Nat) (x : CacheLine), k < 8 → (s.core k).state = 1 → addr < 2 ^ 38 →
    let line := addr / 64 * 64
    let key := lineKey k addr
    let held := s.badger.dcache.get (fun _ => none) key
    let plain (bit : Nat) : Prop := s.plainAccess (.core k) line 64 r ∧ (s.rd (Reg.CR_REG_RIGHTS r)).testBit bit = true
    let others (t : State) : Prop := ∀ q, q ≠ key → t.badger.dcache.get (fun _ => none) q = s.badger.dcache.get (fun _ => none) q
    let written (t : State) : Prop := ∀ a, t.ddr.get (fun _ => 0) a =
      if line ≤ a ∧ a < line + 64 then x.data.get (fun _ => 0) (a - line) else s.ddr.get (fun _ => 0) a
    let retires (t : State) (d : CoreInst) : Prop :=
      t.core k = { s.core k with pc := (d.pc + 4) % 2 ^ 64 } ∧ ∀ j, j ≠ k → t.core j = s.core j
    (∀ d : CoreInst, d.core = k → instAddr d = addr → held = some x → x.dirty = true → plain (2 * (3 + k) + 1) →
      s.ddr.wf (fun _ => 0) = true →
      ∀ c, (c = Instr.clean d ∧ s.executes d .clean) ∨ (c = .cflush d ∧ s.executes d .cflush) →
        ∃ t, exec c s = .next t ∧ written t ∧ others t ∧ retires t d ∧
          t = { s with ddr := t.ddr, power := t.power,
                       badger := { s.badger with dcache := t.badger.dcache, cores := t.badger.cores } } ∧
          t.badger.dcache.get (fun _ => none) key = if c = Instr.clean d then some { x with dirty := false } else none) ∧
    (∀ d : CoreInst, d.core = k → instAddr d = addr → s.executes d .cinv →
      ∃ t, exec (.cinv d) s = .next t ∧ retires t d ∧ t = { s.touch (74 + k) with badger := { s.badger with
        dcache := s.badger.dcache.set (fun _ => none) key none, cores := t.badger.cores } }) ∧
    (∀ l e i, held = some x → addr % 64 + l.length ≤ 64 →
      ∃ t y, exec (.cacheLineCheck ⟨k, .store l, addr, e, i, none⟩) s = .next t ∧ others t ∧
        t = { s with badger := { s.badger with dcache := t.badger.dcache }, bus := { data := 0, err := false } } ∧
        t.badger.dcache.get (fun _ => none) key = some y ∧ y.dirty = true ∧
        ∀ j, y.data.get (fun _ => 0) j = if addr % 64 ≤ j ∧ j < addr % 64 + l.length then l.getD (j - addr % 64) 0
          else x.data.get (fun _ => 0) j) ∧
    (∀ n i, held = none → plain (2 * (3 + k)) → s.ddr.wf (fun _ => 0) = true → addr % 64 + n ≤ 64 →
      (s.badger.dcache.range (k * 2 ^ 34) ((k + 1) * 2 ^ 34)).length < 512 →
      ∃ t y, exec (.cacheLineCheck ⟨k, .load n, addr, none, i, none⟩) s = .next t ∧ others t ∧
        t = { s with power := t.power, badger := { s.badger with dcache := t.badger.dcache },
                     bus := { data := natOfBytes ((List.range n).map fun j => s.ddr.get (fun _ => 0) (addr + j)), err := false } } ∧
        t.badger.dcache.get (fun _ => none) key = some y ∧ y.dirty = false ∧
        ∀ j, j < 64 → y.data.get (fun _ => 0) j = s.ddr.get (fun _ => 0) (line + j)) ∧
    (∀ n i, held = some x → addr % 64 + n ≤ 64 →
      ∃ t, exec (.cacheLineCheck ⟨k, .load n, addr, none, i, some false⟩) s = .next t ∧
        t = { s with csr := t.csr, faults := t.faults, tx := t.tx, bus := t.bus } ∧
        t.bus = { data := natOfBytes ((List.range n).map fun j => x.data.get (fun _ => 0) (addr % 64 + j)), err := false } ∧
        t.fld Reg.BG_CACHE_CNT 0 16 = satAdd 65535 (s.fld Reg.BG_CACHE_CNT 0 16) 1 ∧ t.flag Reg.DISP_INT_STAT 3 = true ∧
        s.keepsRegs t [Reg.BG_CACHE_CNT, Reg.DISP_INT_STAT]) ∧
    (∀ i, exec (.cacheLineCheck ⟨k, .fence, addr, none, i, none⟩) s = .next s ∧
      ∃ t, exec (.cacheLineCheck ⟨k, .fenceI, addr, none, i, none⟩) s = .next t ∧
        t = { s with badger := { s.badger with icache := t.badger.icache } } ∧
        ∀ q, k * 2 ^ 34 ≤ q → q < (k + 1) * 2 ^ 34 → t.badger.icache.get (fun _ => none) q = none)

/-! ## Lanes and the system network (chapters 06 and 07) -/

/-- TRAIN begins a first training of a SYSTEM port, with TSEQ1 on its enabled lanes that offers those with symbol lock;
256 valid TSEQ1 make a lane ready, the masks of TSEQ2 give the agreed set, and deskew brings the port UP with the lowest
lanes of its width; a training that lasts 1 ms fails; a TSEQ1 on an UP port starts a retraining; DOWN takes the port
down (R174, R177, R179, R180). What lanes show: coding errors are counted, and more than 32 in an interval, or markers
missed, fail an active lane of an UP port, which is mapped out while a retraining becomes due; LOS, LOL and symbol lock
show in LANE_STAT; PLL unlock is FATAL and every port is down; ERR_INJECT and CNT_CLR act on a lane in test, which
transmits as many bits as it receives, and whose checker counts each bit under lock (R175, R181, R182, R187-R190, R194).
-/
def Obligations.PortsTrainAndLanesShow : Prop :=
  (∀ (s : State) (p : Nat), p < 8 → s.role p = 0 → s.inTest p = false → s.rc.state ≠ .fatal →
     let lanes := (List.range 8).map fun n => Reg.LANE_STAT p n
     let off : Prop := s.isUp p = false ∧ s.training p = false
     let only (t : State) : Prop := ∀ q, q ≠ p → t.prt q = s.prt q ∧ t.link q = s.link q
     let rate := s.fld (Reg.PORT_CFG p) 16 3
     let tseqs (t : State) (typ mask : Nat) : List TxItem :=
       ((List.range 8).filter fun n => (t.usable p).testBit n).map fun n =>
         .tseq p n (tseqBytes typ n mask 0 rate s.devId p ++ [tseqSum typ n mask 0 rate s.devId p])
     let good (x : Tseq) (typ : Nat) : Prop := x.port = p ∧ x.lane < 8 ∧
       x.sum = tseqSum typ x.num x.mask x.role x.rate x.device x.peerPort
     let stillOffers (x : Tseq) : Prop := (s.prt p).offered &&& (255 - x.mask % 256) &&& s.usable p = 0
     (∀ init, s.serves init (Reg.PORT_CTRL p) → s.rd (Reg.PORT_CTRL p) = 0 → off →
       ∃ t, exec (.train init p) s = .next t ∧ only t ∧
         t = { s.atBlock (Reg.PORT_CTRL p) with csr := t.csr, links := t.links, ports := t.ports, time := t.time,
                                                lines := t.lines, tx := s.tx ++ tseqs t 1 (t.locked p) } ∧
         t.training p = true ∧ t.isUp p = false ∧ t.mappedOut p = 0 ∧ (t.prt p).first = true ∧
         (t.prt p).since = s.now ∧ (t.link p).replay = [] ∧ (t.link p).expSeq = 0 ∧ (t.link p).nextSeq = 0 ∧
         s.keepsRegs t (lanes ++ [Reg.PORT_CTRL p, Reg.PORT_STAT p])) ∧
     (∀ init, s.serves init (Reg.PORT_CTRL p) → s.rd (Reg.PORT_CTRL p) = 0 → s.preRun = true ∨ s.rc.state = .halted →
       ∃ t, exec (.down init p) s = .next t ∧ only t ∧
         t = { s.atBlock (Reg.PORT_CTRL p) with csr := t.csr, ports := t.ports, time := t.time } ∧ t.prt p = {} ∧
         t.isUp p = false ∧ t.training p = false ∧ s.keepsRegs t (lanes ++ [Reg.PORT_CTRL p, Reg.PORT_STAT p])) ∧
     (∀ x : Tseq, good x 1 → s.isUp p = true → stillOffers x →
       ∃ t, exec (.tseq1 x) s = .next t ∧ t.isUp p = false ∧ t.training p = true ∧ (t.prt p).since = s.now ∧ only t) ∧
     (∀ x : Tseq, good x 1 → s.isUp p = false → s.training p = true →
       (s.usable p).testBit x.lane = true → x.rate = rate → x.role = 0 → x.num = x.lane → stillOffers x →
       let n := (s.prt p).counts.get (fun _ => 0) x.lane
       let offered := x.mask % 256
       let ready := (s.prt p).ready ||| 2 ^ x.lane
       (n < 255 → ∃ t, exec (.tseq1 x) s = .next t ∧ only t ∧ t = { s with ports := t.ports } ∧
         (t.prt p).counts.get (fun _ => 0) x.lane = n + 1 ∧ (t.prt p).offered = offered ∧
         (t.prt p).ready = (s.prt p).ready) ∧
       (n = 255 →
         ∃ t, exec (.tseq1 x) s = .next t ∧ only t ∧ (t.prt p).ready = ready ∧
           t = { s with csr := t.csr, freeCount := t.freeCount, ports := t.ports,
                        tx := s.tx ++ tseqs s 2 (ready &&& offered) } ∧
           s.keepsRegs t [Reg.LANE_RXEQ p x.lane] ∧
           (s.flag (Reg.LANE_RXEQ p x.lane) 31 = true → t.csr = s.csr ∧ t.freeCount = s.freeCount))) ∧
     (∀ x : Tseq, good x 2 → s.training p = true →
       ∃ t, exec (.tseq2 x) s = .next t ∧ only t ∧ t = { s with ports := t.ports } ∧
         t.prt p = { s.prt p with agreed := (s.prt p).ready &&& (s.prt p).offered &&& x.mask &&& s.usable p
                                  peer := x.peerPort % 8 * 2 ^ 13 + x.device % 2 ^ 13 }) ∧
     (s.training p = true → 2 ≤ popcount (s.prt p).agreed → (s.prt p).agreed < 256 →
       let w := widthOf (popcount (s.prt p).agreed)
       ∃ t, exec (.portUp p) s = .next t ∧
         t = { s with csr := t.csr, links := t.links, ports := t.ports, faults := t.faults, tx := t.tx } ∧
         (∀ q, q ≠ p → t.prt q = s.prt q) ∧
         t.isUp p = true ∧ t.training p = false ∧ t.fld (Reg.PORT_STAT p) 24 4 = w ∧
         t.fld (Reg.PORT_STAT p) 8 8 = (s.prt p).agreed ∧ t.fld (Reg.PORT_STAT p) 16 8 = lowest w (s.prt p).agreed ∧
         t.rd (Reg.PORT_PEER p) = (2 ^ 31 + (s.prt p).peer) % 2 ^ 32 ∧
         t.flag Reg.LANES_INT_STAT 0 = true ∧ (t.link p).resend = (s.link p).replay.length ∧
         s.keepsRegs t (lanes ++ [Reg.PORT_STAT p, Reg.PORT_PEER p, Reg.LANES_INT_STAT])) ∧
     (s.training p = true → (s.prt p).since + 1000000 ≤ s.now → (s.prt p).first = true → (s.prt p).failNoted = false →
       ∃ t m, exec (.laneTrainFail p) s = .next t ∧ only t ∧
         t = { s with csr := t.csr, ports := t.ports, faults := t.faults, tx := s.tx ++ m ++ tseqs s 1 (s.locked p) } ∧
         t.prt p = { first := true, since := s.now, failNoted := true } ∧ t.flag Reg.LANES_INT_STAT 3 = true ∧
         s.keepsRegs t [Reg.LANES_INT_STAT])) ∧
  (∀ (s : State) (p n : Nat), p < 8 → n < 8 →
     let stat := Reg.LANE_STAT p n
     let test := Reg.LANE_TEST p n
     let bitsAt := Reg.LANE_BITS_LO p n
     let errsAt := Reg.LANE_ERRS_LO p n
     let counters := [test, bitsAt, bitsAt + 4, errsAt, errsAt + 4]
     let had := (s.line p).viol.get (fun _ => (0, 0)) n
     let total (k : Nat) := if had.1 = 0 ∨ had.2 + s.deskewNs p ≤ s.now then k else had.1 + k
     let failing (f : LaneFault) : Prop :=
       match f with | .violations a b => 0 < a + b ∧ 32 < total (a + b) | .marker k m => 64 < k ∨ 2 ≤ m | _ => False
     (∀ a b, total (a + b) ≤ 32 →
       ∃ t, exec (.laneFailure p n (.violations a b)) s = .next t ∧ t = { s with csr := t.csr, lines := t.lines } ∧
       t.fld (Reg.LANE_CV p n) 16 16 = satAdd 65535 (s.fld (Reg.LANE_CV p n) 16 16) a ∧
       t.fld (Reg.LANE_CV p n) 0 16 = satAdd 65535 (s.fld (Reg.LANE_CV p n) 0 16) b ∧
       s.keepsRegs t [Reg.LANE_CV p n]) ∧
     (∀ f, failing f → s.role p = 0 → s.isUp p = true → (s.link p).peerDown = false →
       (s.usable p).testBit n = true → s.flag (Reg.PORT_STAT p) (8 + n) = true → s.flag (Reg.PORT_STAT p) (16 + n) = true →
       2 < popcount (s.fld (Reg.PORT_STAT p) 8 8 &&& s.usable p) →
       ∃ t, exec (.laneFailure p n f) s = .next t ∧ t.flag (Reg.PORT_STAT p) n = true ∧ (t.prt p).due.isSome = true ∧
         t = { s with csr := t.csr, ports := t.ports, lines := t.lines } ∧
         s.keepsRegs t [Reg.LANE_CV p n, Reg.PORT_STAT p, Reg.PORT_EVENTS p]) ∧
     (s.isUp p = false → s.training p = false →
       (∃ t, exec (.los p n true) s = .next t ∧ t = { s with csr := t.csr } ∧ t.flag stat 31 = true ∧
         (s.flag stat 31 = false → t.flag stat 28 = true) ∧ s.keepsRegs t [stat]) ∧
       (∃ t, exec (.lol p n true) s = .next t ∧ t = { s with csr := t.csr } ∧ t.flag stat 30 = true ∧
         (s.flag stat 30 = false → t.flag stat 27 = true) ∧ s.keepsRegs t [stat]) ∧
       (∀ b, ∃ t, exec (.symbolLock p n false b) s = .next t ∧
         t = { s with csr := t.csr, tx := t.tx, shale := { s.shale with eprLock := t.shale.eprLock } } ∧ t.eprShown ∧
         t.flag stat 29 = false ∧ s.keepsRegs t [stat] ∧ (s.eprShown → s.role p ≠ 1 → t.tx = s.tx))) ∧
     (∃ t, exec (.los p n false) s = .next t ∧ t = { s with csr := t.csr } ∧ t.flag stat 31 = false ∧
       s.keepsRegs t [stat]) ∧
     (∃ t, exec (.lol p n false) s = .next t ∧ t = { s with csr := t.csr } ∧ t.flag stat 30 = false ∧
       s.keepsRegs t [stat]) ∧
     (∀ b, ∃ t, exec (.symbolLock p n true b) s = .next t ∧
       t = { s with csr := t.csr, freeCount := t.freeCount, tx := t.tx,
                    shale := { s.shale with epr := t.shale.epr, eprLock := t.shale.eprLock } } ∧ t.eprShown ∧
       t.flag stat 29 = true ∧ t.flag stat 26 = b ∧ s.keepsRegs t [stat, Reg.LANE_RXEQ p n]) ∧
     (∃ t, exec .lanePllLock s = .next t ∧ t = { s with csr := t.csr } ∧ t.flag Reg.LANES_PLL 31 = true ∧
       s.keepsRegs t [Reg.LANES_PLL]) ∧
     (s.flag Reg.LANES_PLL 31 = true →
       ∃ t, exec .lanePllUnlock s = .next t ∧ t.flag Reg.LANES_PLL 31 = false ∧ t.flag Reg.LANES_PLL 30 = true ∧
         t.rc.state = .fatal ∧ (∀ q, q < 8 → t.isUp q = false ∧ t.training q = false) ∧
         t.flag Reg.LANES_INT_STAT 4 = true ∧ s.keepsMemories t) ∧
     (s.testable p n = true → s.flag test 18 = false → s.flag test 31 = false → ∀ init, s.serves init test →
       (∃ t, exec (.errInject init p n) s = .next t ∧ .bitError p n ∈ t.tx ∧ (t.test p n).inject = true ∧
         t = { s.atBlock test with csr := t.csr, faults := t.faults, tx := t.tx, tests := t.tests } ∧
         s.keepsRegs t [test]) ∧
       (∃ t, exec (.cntClr init p n) s = .next t ∧
         t = { s.atBlock test with csr := t.csr, faults := t.faults, tx := t.tx, tests := t.tests } ∧
         t.rd64 bitsAt = 0 ∧ t.rd64 errsAt = 0 ∧ t.flag test 30 = false ∧ s.keepsRegs t counters)) ∧
     (∀ line : List Bool, s.testable p n = true →
       ∃ t out, exec (.chkLock p n line) s = .next t ∧ out.length = line.length ∧
         t = { s with csr := t.csr, freeCount := t.freeCount, tests := t.tests, tx := s.tx ++ [.laneBits p n out] } ∧
         s.keepsRegs t counters ∧ (s.flag test 16 = false → t.csr = s.csr) ∧
         (s.fld test 24 3 = 3 → (s.test p n).inject = false → out = line)) ∧
     (∀ b : Bool, s.testable p n = true → s.flag test 16 = true → s.flag test 30 = true → s.fld test 24 3 = 0 →
       (s.test p n).ref.length = (prbsTaps (s.fld test 20 2)).2 → s.rd64 bitsAt < 2 ^ 48 - 1 → s.rd64 errsAt < 2 ^ 48 - 1 →
       ∃ t, exec (.chkLock p n [b]) s = .next t ∧ t.rd64 bitsAt = s.rd64 bitsAt + 1 ∧
         t.rd64 errsAt = s.rd64 errsAt +
           (if (b != s.flag test 29) = prbsNext (s.fld test 20 2) (s.test p n).ref then 0 else 1)))

/-- FRAME: its columns are decoded, which restarts the idle time of the port's domain. A good frame of the expected SEQ
enters the receive buffer and is acknowledged, a duplicate is acknowledged again, any other is counted and asked for
again, once; a port that is not open takes none; symbols of a SHALE port go to Shale (R173, R202, R205, R224).
RECEIVE_WORD: the receive path of a SYSTEM port drops a stale word, stores the bits of an accepted one in the inbox, or
relays it, and with no word does nothing (R204, R205, R209). -/
def Obligations.FramesEnterTheReceivePath : Prop :=
  (∀ (s u : State) (f : RxFrame) (x : RxParsed), s.linkOpen f.port 0 = true → s.rc.state ≠ .fatal →
    (s.touch (65 + f.port)).rxFrame f false = (x, u) →
    let p := f.port
    let l := u.link p
    let only (t : State) : Prop := ∀ q, q ≠ p → t.link q = s.link q
    let acks (t : State) (seq lim : Nat) : Prop :=
      t = { u with links := t.links, lines := t.lines, tx := u.tx ++ [.set p 0 1 u.net.gen (.ack seq lim)] }
    (u.isUp p = true →
      u = { s.touch (65 + p) with csr := u.csr, lines := u.lines, ports := u.ports } ∧
      s.keepsRegs u ((List.range 8).map (Reg.LANE_CV p) ++ [Reg.PORT_STAT p, Reg.PORT_EVENTS p])) ∧
    (x.good = true → x.seq = l.expSeq → u.isUp p = true →
      ∃ t fr lim, exec (.frame f) s = .next t ∧ only t ∧ acks t (((x.seq + 1) % 256 + 255) % 256) lim ∧
        (t.link p).rx = l.rx ++ [fr] ∧ (t.link p).expSeq = (x.seq + 1) % 256 ∧ (t.link p).nakSent = false ∧
        fr.words.map (·.word) = x.words.map (·.1) ∧
        fr.words.map (·.slot) = (List.range x.words.length).map (x.slot + ·) ∧
        ∀ w ∈ fr.words, w.port = p ∧ w.cycle = x.cycle ∧ w.gen = x.gen) ∧
    (x.good = true → x.seq ≠ l.expSeq → within (x.seq + 1) l.expSeq 64 = true → u.isUp p = true →
      ∃ t lim, exec (.frame f) s = .next t ∧ only t ∧ t.link p = { l with limitTold := lim } ∧
        acks t ((l.expSeq + 255) % 256) lim) ∧
    (x.good = false ∨ (x.seq ≠ l.expSeq ∧ within (x.seq + 1) l.expSeq 64 = false) → u.isUp p = true →
      ∃ t, exec (.frame f) s = .next t ∧ t.link p = { l with nakSent := true } ∧
        t.rd (Reg.FRAME_ERR p) = satAdd (2 ^ 32 - 1) (u.rd (Reg.FRAME_ERR p)) 1 ∧
        u.keepsRegs t [Reg.FRAME_ERR p, Reg.LINK_NAKS p] ∧
        (l.nakSent = true → t = { u with csr := t.csr }) ∧
        (l.nakSent = false →
          t = { u with csr := t.csr, links := t.links, lines := t.lines,
                       tx := u.tx ++ [.set p 0 1 u.net.gen (.nak l.expSeq)] }))) ∧
  (∀ (s : State) (f : RxFrame), s.role f.port ≠ 1 → s.linkOpen f.port 0 = false → exec (.frame f) s = .next s) ∧
  (∀ (s : State) (f : RxFrame), f.port = 6 ∨ f.port = 7 → s.role f.port = 1 →
    ∃ t, exec (.frame f) s = .next t ∧
      t = { s with csr := t.csr, lines := t.lines, freeCount := t.freeCount, tx := t.tx,
                   shale := { s.shale with epr := t.shale.epr } } ∧
      s.keepsRegs t ((List.range 8).map (Reg.LANE_CV f.port))) ∧
  (∀ (s : State) (p : Nat), p < 8 → s.rc.state ≠ .fatal → s.role p ≠ 2 → s.nextRx p = none →
    exec (.receiveWord p none) s = .next s) ∧
  (∀ (s : State) (p : Nat) (w : SlotWord), p < 8 → s.rc.state ≠ .fatal → s.role p ≠ 2 → s.nextRx p = some w →
    (s.accepts w.gen w.cycle = false →
      ∃ t, exec (.receiveWord p none) s = .next t ∧
        t = { s with csr := t.csr, links := t.links, lines := t.lines, tx := t.tx } ∧
        t.rd (Reg.STALE_DROP p) = satAdd (2 ^ 32 - 1) (s.rd (Reg.STALE_DROP p)) 1 ∧
        s.keepsRegs t [Reg.STALE_DROP p]) ∧
    (∀ c d, s.accepts w.gen w.cycle = true → s.recvTo w.cycle w.port w.slot = some ⟨some (c, d), none⟩ →
      s.enabled c = true → s.held = [] →
      (∀ i, i < 64 → w.mask.getLsbD i = true → s.judgeArrival c (d * 64 + i) (w.cycle % 4) = .stored) →
      ∃ t, exec (.receiveWord p none) s = .next t ∧
        t = { s with links := t.links, lines := t.lines, tx := t.tx, inbox := t.inbox } ∧
        (∀ i, i < 64 → w.mask.getLsbD i = true → t.entries c (d * 64 + i) =
          (s.entries c (d * 64 + i)).filter (fun x => x.1 ≠ w.cycle % 4) ++ [(w.cycle % 4, w.word.getLsbD i)]) ∧
        ∀ q, (∀ i, i < 64 → w.mask.getLsbD i = true → q ≠ c * 2048 + (d * 64 + i)) →
          t.inbox.get (fun _ => []) q = s.inbox.get (fun _ => []) q) ∧
    (∀ q k, s.accepts w.gen w.cycle = true → s.recvTo w.cycle w.port w.slot = some ⟨none, some (q, k)⟩ →
      s.fld (Reg.PORT_CFG q) 12 2 = 0 → s.framerFull q = false →
      ∃ t, exec (.receiveWord p none) s = .next t ∧ t = { s with links := t.links, lines := t.lines, tx := t.tx } ∧
        (t.link q).framer = (s.link q).framer ++ [{ w with port := q, slot := k, own := false }]))

/-- FORERUNNER_FRAME: a good frame of the expected SEQ, whose words there is room for, enters the ingress buffer and is
acknowledged; its cycle is the lowest of its CYCLE bits at or above that of the frame before. RECEIVE_WORD on a
FORERUNNER port relays a word of that buffer, or leaves one of a cycle above the next but one where it is. 256 INITs
with the right sum bring the port UP, at width 8 (R191, R225, R226, R228). -/
def Obligations.ForerunnerPortsInterwork : Prop :=
  (∀ (s u : State) (f : RxFrame) (x : RxParsed), s.linkOpen f.port 2 = true → s.rxFrame f true = (x, u) →
    x.good = true → x.seq = (u.link f.port).expSeq → (u.link f.port).frRecv.length + x.words.length ≤ 16384 →
    ∃ t ws, exec (.forerunnerFrame f) s = .next t ∧
      t = { u with csr := t.csr, links := t.links, lines := t.lines, tx := t.tx } ∧
      (t.link f.port).frRecv = (u.link f.port).frRecv ++ ws ∧ ws.map (·.word) = x.words.map (·.1) ∧
      (∀ w ∈ ws, w.cycle = (t.link f.port).frCycle) ∧
      (t.link f.port).expSeq = (x.seq + 1) % 256 ∧ (t.link f.port).frCycle % 4 = x.cycle % 4 ∧
      (u.link f.port).frCycle ≤ (t.link f.port).frCycle ∧
      t.rd (Reg.FR_WORDS f.port) = satAdd (2 ^ 32 - 1) (u.rd (Reg.FR_WORDS f.port)) x.words.length ∧
      u.keepsRegs t [Reg.FR_WORDS f.port]) ∧
  (∀ (s : State) (f : RxFrame), s.linkOpen f.port 2 = false → exec (.forerunnerFrame f) s = .next s) ∧
  (∀ (s : State) (p : Nat) (w : SlotWord), p < 8 → s.rc.state ≠ .fatal → s.role p = 2 →
    (s.link p).frRecv[(s.link p).frDone]? = some w →
    (s.rc.ecn + 2 < w.cycle → exec (.receiveWord p none) s = .next s) ∧
    (∀ q k, w.cycle ≤ s.rc.ecn + 2 → s.recvTo w.cycle w.port w.slot = some ⟨none, some (q, k)⟩ →
      s.fld (Reg.PORT_CFG q) 12 2 = 0 → s.framerFull q = false →
      ∃ t, exec (.receiveWord p none) s = .next t ∧ t = { s with links := t.links } ∧
        (t.link p).frDone = (s.link p).frDone + 1 ∧
        (t.link q).framer = (s.link q).framer ++ [{ w with port := q, slot := k, own := false }])) ∧
  (∀ (s : State) (p id peer sum : Nat), p < 8 → s.role p = 2 → s.training p = true → s.inTest p = false →
    s.usable p = 255 →
    let i : Instr := .init p id peer sum
    (sum ≠ frSeqSum 1 id peer → exec i s = .next s) ∧
    (sum = frSeqSum 1 id peer → (s.link p).frInit < 255 → ∃ t, exec i s = .next t ∧ t = { s with links := t.links } ∧
      t.link p = { s.link p with frInit := (s.link p).frInit + 1 } ∧ ∀ q, q ≠ p → t.link q = s.link q) ∧
    (sum = frSeqSum 1 id peer → 255 ≤ (s.link p).frInit → ∃ t, exec i s = .next t ∧ t.isUp p = true ∧
      t.rd (Reg.PORT_PEER p) = 2 ^ 31 + peer % 8 * 2 ^ 13 + id % 2 ^ 13 ∧
      t = { s with csr := t.csr, links := t.links, ports := t.ports, faults := t.faults, tx := t.tx }))

/-- A framed word goes out under the next SEQ and stays in the replay buffer until an ACK covers it; NAK and the timeout
send what was sent and is unacknowledged again, and count it, but not what still waits for credit; ACKs and watermarks
repeat every 1 µs; a silent tree link is recorded (R200-R203, R215, R220). -/
def Obligations.LinksRetryAndRepeat : Prop :=
  (∀ (s : State) (p : Nat), s.linkOpen p 0 = true → s.rc.state ≠ .fatal →
    let l := s.link p
    let only (t : State) : Prop := ∀ q, q ≠ p → t.link q = s.link q
    let hears (h : SetHdr) (m : Msg) : Prop := h.port = p ∧ h.tree = 0 ∧ h.bad = false ∧ h.crc = m.crc 0 h.gen
    (∀ w, l.resend = 0 → l.framer = [w] → l.replay.length < 64 → within l.nextSeq l.limitSeq 128 = true →
      let f : Frame := { seq := l.nextSeq, full := w.full, gen := w.gen, cycle := w.cycle, words := [w] }
      ∃ t, exec (.frameTransmit p none) s = .next t ∧ only t ∧
        t = { s.touch (65 + p) with links := t.links, lines := t.lines, tx := s.tx ++ [.frame p f false] } ∧
        (t.link p).replay = l.replay ++ [{ f with sent := true }] ∧ (t.link p).framer = [] ∧
        (t.link p).nextSeq = (l.nextSeq + 1) % 256 ∧ (t.link p).resend = 0) ∧
    (∀ f rest, l.replay = f :: rest → l.resend = l.replay.length → f.sent = true →
      ∃ t, exec (.frameTransmit p none) s = .next t ∧ only t ∧
        t = { s.touch (65 + p) with links := t.links, lines := t.lines, tx := s.tx ++ [.frame p f true] } ∧
        t.link p = { l with resend := l.resend - 1 }) ∧
    (∀ h f rest j lim, l.replay = f :: rest → f.seq < 256 → j < l.replay.length → l.replay.length ≤ 64 → lim < 256 →
      hears h (.ack ((f.seq + j) % 256) lim) →
      ∃ t, exec (.ack h ((f.seq + j) % 256) lim) s = .next t ∧ only t ∧ t = { s with links := t.links } ∧
        (t.link p).replay = l.replay.drop (j + 1) ∧ (t.link p).ackedSeq = (f.seq + j) % 256 ∧
        (t.link p).limitSeq = lim ∧ (t.link p).lastAck = s.now) ∧
    (∀ f rest, l.replay = f :: rest → f.seq < 256 → f.sent = true → f.retries < s.fld (Reg.LINK_CFG p) 0 4 →
      let again (t : State) : Prop := only t ∧ t = { s with csr := t.csr, links := t.links } ∧
        (t.link p).replay = { f with retries := f.retries + 1 } :: rest ∧
        (t.link p).resend = max l.resend l.replay.length ∧
        t.rd (Reg.LINK_RETRIES p) = satAdd (2 ^ 32 - 1) (s.rd (Reg.LINK_RETRIES p)) 1 ∧
        s.keepsRegs t [Reg.LINK_RETRIES p]
      (∀ h, hears h (.nak f.seq) → l.nakSeen ≠ some f.seq → ∃ t, exec (.nak h f.seq) s = .next t ∧ again t) ∧
      (l.lastAck + 100 * s.fld (Reg.LINK_CFG p) 8 8 ≤ s.now →
        ∃ t, exec (.replayTimeout p) s = .next t ∧ again t)) ∧
    (∀ f rest, l.replay = f :: rest → f.sent = false →
      (∀ h, f.seq < 256 → hears h (.nak f.seq) → l.nakSeen ≠ some f.seq →
        ∃ t, exec (.nak h f.seq) s = .next t ∧ only t ∧ t = { s with links := t.links } ∧
          t.link p = { l with nakSeen := some f.seq }) ∧
      ((∀ g ∈ rest, g.sent = false) → exec (.replayTimeout p) s = .next s)) ∧
    (l.sentAck + 1000 ≤ s.now → ∃ t lim, exec (.ackTimer p) s = .next t ∧ only t ∧
      t = { s with links := t.links, lines := t.lines,
                   tx := s.tx ++ [.set p 0 1 s.net.gen (.ack ((l.expSeq + 255) % 256) lim)] } ∧
      (t.link p).sentAck = s.now)) ∧
  (∀ (s : State) (a b : Nat), s.rc.state ≠ .fatal → s.net.repeatAt + 1000 ≤ s.now → s.notRoot → s.net.repeats = [] →
    s.net.lastSealUp = 0 → s.net.sentUp.get (fun _ => 0) 0 = a + 1 → s.net.sentUp.get (fun _ => 0) 1 = b + 1 →
    (∀ k, k < 2 → s.isUp (s.parent k) = true ∧ (s.link (s.parent k)).peerDown = false) →
    ∃ t, exec .repeatTimer s = .next t ∧ t = { s with
      lines := t.lines
      net := { s.net with repeatAt := s.now }
      tx := s.tx ++ [.set (s.parent 0) 1 2 s.net.gen (.committed a), .set (s.parent 1) 2 2 s.net.gen (.committed b)] }) ∧
  (∀ (s : State) (p k : Nat), p < 8 → k < 2 → s.rc.state ≠ .idle → s.rc.state ≠ .fatal → s.treeLink k p = true →
    (if k = 0 then (s.link p).heardA else (s.link p).heardB) + 4000 ≤ s.now →
    s.flag Reg.TREE_STAT (16 + 8 * k + p) = false →
    ∃ t, exec (.netTreeSilent p k) s = .next t ∧ t = { s with csr := t.csr, faults := t.faults, tx := t.tx } ∧
      t.flag Reg.TREE_STAT (16 + 8 * k + p) = true ∧ t.flag Reg.NET_INT_STAT 2 = true ∧
      s.keepsRegs t [Reg.TREE_STAT, Reg.NET_INT_STAT])

/-- DEVICE_DOWN marks the peer down and halts the device: at once where it is loaded or paused, once its clusters have
reached a step boundary where cycles run, and not at all in IDLE, LOADING and HALTED. A HALT sequence on a FORERUNNER
port is reported up both trees, or a root acts on it at once (R133, R224, R225, R228, R240). LOAD begins a map load,
here with no domain that has to wake, and its end fills the shadow bank, or, on an error response, records it and leaves
no shadow ready; SWAP_NOW exchanges the banks, and MAP_SWAP_ECN_HI arms the swap at E (R210, R211). -/
def Obligations.PeersGoDownAndMapsSwap : Prop :=
  ((∀ (s : State) (h : SetHdr) (ecn dev reason : Nat), h.tree = 0 → h.bad = false →
     h.crc = (Msg.deviceDown ecn dev reason).crc 0 h.gen → (s.link h.port).peerDown = false → s.rc.state ≠ .fatal →
     ∃ t, exec (.deviceDown h ecn dev reason) s = .next t ∧ (t.link h.port).peerDown = true ∧
       t.flag Reg.NET_INT_STAT 0 = true ∧
       (s.rc.state = .loaded ∨ s.rc.state = .paused → s.acted (.systemHalt 0 0) s.net.gen = false →
         t.rc.state = .halted ∧ t.rc.cmd = none ∧ (s.rc.state = .loaded → t.rd64 Reg.HALT_ECN_LO = 0)) ∧
       (s.live = true → s.acted (.systemHalt 0 0) s.net.gen = false →
         t.rc = { s.rc with halting := true }) ∧
       (s.rc.state = .idle ∨ s.rc.state = .loading ∨ s.rc.state = .halted →
         t = { s with csr := t.csr, links := t.links, faults := t.faults, tx := t.tx } ∧
           s.keepsRegs t [Reg.NET_INT_STAT])) ∧
   (∀ (s : State) (p id : Nat), s.linkOpen p 2 = true → s.rc.state ≠ .fatal →
     s.acted (.systemHalt 0 0) s.net.gen = false →
     let i : Instr := .netFrHalt p id (frSeqSum 6 (id % 256) (id / 256))
     (s.notRoot →
       ∃ t, exec i s = .next t ∧
         t = { s with csr := t.csr, faults := t.faults, tx := t.tx, lines := t.lines,
                      net := { s.net with repeats := t.net.repeats } } ∧
         (∀ k, k < 2 → (s.isUp (s.parent k) = true → (s.link (s.parent k)).peerDown = false →
           TxItem.set (s.parent k) (k + 1) 2 s.net.gen (.haltReport s.devId) ∈ t.tx) ∧
           (k, Msg.haltReport s.devId) ∈ t.net.repeats) ∧ s.keepsRegs t []) ∧
     (¬ s.notRoot → ∃ t, exec i s = .next t ∧ (s.live = true → t.rc.halting = true) ∧
       (s.rc.state = .loaded ∨ s.rc.state = .paused → t.rc.state = .halted)))) ∧
  ((∀ (s : State) (init : Initiator), s.net.busy = false → s.net.armed = none → s.net.retiring = none →
     s.rc.variant = false → s.serves init Reg.MAP_CTRL →
     ∃ t, exec (.load init) s = .next t ∧ t.awake ∧ s.keepsRegs t [Reg.MAP_CTRL] ∧
       t = { s with csr := t.csr, net := { s.net with busy := true, shadowReady := false }, power := t.power,
                    bus := { data := 0 } }) ∧
   (∀ (s u v w : State) (a b c : Map W32), s.net.busy = true → s.readMap Reg.MAP_SEND_BASE (s.nClusters * 4096) = (.ok a, u) →
     u.readMap Reg.MAP_RECV_BASE 65536 = (.ok b, v) → v.readMap Reg.MAP_RELAY_BASE 16384 = (.ok c, w) →
     (w.assemblyWords a).length ≤ 16384 →
     ∃ t, exec .mapLoadDone s = .next t ∧ t.flag Reg.NET_INT_STAT 4 = true ∧
       t = { w with csr := t.csr, tx := t.tx, net := { w.net with
         shadow := { send := a, recv := b, relay := c }, busy := false, shadowReady := true } }) ∧
   (∀ (s u : State) (x : Nat), s.net.busy = true → s.readMap Reg.MAP_SEND_BASE (s.nClusters * 4096) = (.error x, u) →
     ∃ t, exec .mapLoadDone s = .next t ∧ t.net.busy = false ∧ t.net.shadowReady = false ∧ t.rc.mapErr = true ∧
       t.flag Reg.MAP_CTRL 25 = true ∧ t.flag Reg.NET_INT_STAT 3 = true ∧ t.net.active = u.net.active) ∧
   (∀ (s : State) (init : Initiator), s.serves init Reg.MAP_CTRL → s.preRun = true → s.net.shadowReady = true →
     ∃ t, exec (.swapNow init) s = .next t ∧ t = { s.atBlock Reg.MAP_CTRL with csr := t.csr, tx := t.tx, net := { s.net with
         active := s.net.shadow, shadow := s.net.active, activeBank := 1 - s.net.activeBank, armed := none
         shadowReady := false } } ∧
       t.flag Reg.NET_INT_STAT 5 = true ∧ s.keepsRegs t [Reg.MAP_CTRL, Reg.NET_INT_STAT]) ∧
   (∀ (s : State) (init : Initiator) (v : Nat), v < 2 ^ 32 → s.net.shadowReady = true → s.net.armed = none →
     s.preRun = true → s.serves init Reg.MAP_SWAP_ECN_HI →
     ∃ t, exec (.mapSwapEcnHi init v) s = .next t ∧
       t = { s.atBlock Reg.MAP_SWAP_ECN_HI with csr := t.csr, net := { s.net with armed := some (s.rd Reg.MAP_SWAP_ECN_LO + 2 ^ 32 * v) } } ∧
       s.keepsRegs t [Reg.MAP_SWAP_ECN_HI]))

/-! ## Shale (chapter 11) -/

/-- SH_LOAD begins a load when none runs: CHAIN waits for its header; a FLASH load whose preamble and header pass holds
all of Shale, lets CFG_DONE read low and clears the configuration (R290-R294, R297). A frame record of a FLASH load that
passes its checks is written to its frame, and the last one lets CFG_DONE go and begins the release, or its wait for
CFG_DONE; one that fails ends the load, as does an error of the source, and a zone that was being written then holds
undefined content but for the frames that the load has written (R294-R296). -/
def Obligations.ShaleLoadsItsFrames : Prop :=
  (∀ (s : State) (init : Initiator) (flash : List Byte), s.serves init Reg.SH_LOAD_CTRL →
     s.flag Reg.SH_LOAD_STAT 31 = false → s.shale.load = none →
     let a := s.rd64 Reg.SH_LOAD_ADDR_LO
     let f (off n : Nat) : Nat := natOfBytes ((flash.drop off).take n)
     (∃ t, exec (.shLoad init 2 flash) s = .next t ∧ t.flag Reg.SH_LOAD_STAT 31 = true ∧
       t.fld Reg.SH_LOAD_STAT 0 16 = 0 ∧ s.keepsRegs t [Reg.SH_LOAD_CTRL, Reg.SH_LOAD_STAT] ∧
       t = { s.atBlock Reg.SH_LOAD_CTRL with
                    csr := t.csr
                    shale := { s.shale with load := some { src := 2, phase := 1, addr := a }
                                            chainBuf := [], chainAt := s.now, chainOwn := false } }) ∧
     (80 ≤ flash.length → f 0 4 = 0x50464853 → f 13 3 = crc32 (flash.take 13) % 2 ^ 24 → f 4 1 ≤ 2 →
       s.headerCheck ((flash.drop 16).take 64) = none → f 24 1 = 0 →
       s.rc.state ≠ .running → s.rc.state ≠ .replaying → s.rc.state ≠ .fatal →
       ∃ t, exec (.shLoad init 0 flash) s = .next t ∧
         t = { s.atBlock Reg.SH_LOAD_CTRL with csr := t.csr, shale := t.shale, faults := t.faults, tx := t.tx } ∧
         (∃ x, t.shale.load = some x ∧ x.src = 0 ∧ x.phase = 2 ∧ x.zone = none ∧ x.next = 0 ∧ x.count = f 28 4 ∧
           x.addr = a % 2 ^ 32) ∧
         (t.shale.preamble = { cmd := f 6 1, dummy := f 7 1, first := f 8 4, chain := f 12 1 }) ∧
         (∀ i, t.cfgFrame i = 0) ∧ t.shState = 1 ∧ (∀ k, k < 8 → t.zoneStat k = 1) ∧
         t.flag Reg.SH_STATUS 28 = false ∧ t.shale.cfgReleased = false ∧
         (∀ k, k < 4 → t.flag Reg.SH_IO_STAT (8 * k + 7) = false) ∧
         t.shale.holds.get holdAtReset 8 = { resets := true, writes := true, outputs := true } ∧
         t.flag Reg.SH_LOAD_STAT 31 = true)) ∧
  (∀ (s : State) (x : ShLoad), s.shale.load = some x →
     let fails (t : State) : Prop :=
       t.shale = { s.shale with load := none, lost := t.shale.lost, frames := t.shale.frames } ∧
       t = { s with csr := t.csr, shale := t.shale, faults := t.faults, tx := t.tx, freeCount := s.freeCount + 1 } ∧
       (∀ k, x.phase = 2 → x.zone = some k → t.shale.lost.get (fun _ => none) k = some s.freeCount ∧
         (∀ j, j ≠ k → t.shale.lost.get (fun _ => none) j = s.shale.lost.get (fun _ => none) j) ∧
         ((∀ i ∈ x.done, frameZone i = some k) → s.shale.lost.get (fun _ => none) k = none →
           ∀ j, j ∈ x.done ∨ frameZone j ≠ some k → t.cfgFrame j = s.cfgFrame j)) ∧
       (x.zone = none ∨ x.phase ≠ 2 → t.shale.frames = s.shale.frames ∧ t.shale.lost = s.shale.lost) ∧
       t.flag Reg.SH_LOAD_STAT 31 = false ∧ t.flag Reg.SH_LOAD_STAT 29 = true ∧ t.flag Reg.SH_INT_STAT 1 = true ∧
       (x.phase = 2 → x.zone = none → t.shState = 5) ∧
       s.keepsRegs t [Reg.SH_LOAD_STAT, Reg.SH_ZONE_STAT, Reg.SH_STATUS, Reg.SH_INT_STAT]
     (∀ (data again : List Byte) (i : Nat), x.src = 0 → x.phase = 2 → x.next < 17173 → x.again = false →
       s.flag Reg.SH_SCRUB_CFG 30 = false →
       let r := if (frameRec data).good then frameRec data else frameRec again
       (checkFrame x.zone r = none → frameIndex r.fa = some i →
         let y := { x with next := x.next + 1, done := if x.done.contains i then x.done else i :: x.done }
         ∃ t, exec (.frameRecord data again) s = .next t ∧ t = { s with csr := t.csr, shale := t.shale, tx := t.tx } ∧
           t.cfgFrame i = r.data ∧ (∀ j, j ≠ i → t.cfgFrame j = s.cfgFrame j) ∧
           t.fld Reg.SH_LOAD_STAT 0 16 = x.next + 1 ∧
           s.keepsRegs t [Reg.SH_LOAD_STAT, Reg.SH_LOOP_STAT, Reg.SH_STATUS] ∧
           (x.next + 1 ≠ x.count → t.shale.load = some y) ∧
           (x.next + 1 = x.count → x.zone = none → t.shale.cfgReleased = true) ∧
           (x.next + 1 = x.count → x.sync = false → x.zone = none → t.shState = 3 ∧
             t.shale.load = some { y with phase := 4, steps := seqSteps x.seq, since := s.now }) ∧
           (x.next + 1 = x.count → x.sync = true → s.flag Reg.SH_STATUS 28 = false → x.zone = none → t.shState = 2 ∧
             t.shale.load = some { y with phase := 3 })) ∧
       (checkFrame x.zone r ≠ none → ∃ t, exec (.frameRecord data again) s = .next t ∧ fails t)) ∧
     (x.phase ≤ 2 → x.again = false → (x.src = 2 → s.shale.chainAt + 1000000 ≤ s.now) →
       ∃ t, exec .shSourceError s = .next t ∧ fails t))

/-- CFG_DONE shows in SH_STATUS as it reads, high once this device has let it go, and ends the wait of a load for it;
the release then locks, opens the outputs, lets block memory be written and ends the resets, after which Shale is
CONFIGURED (R294, R298, R299). -/
def Obligations.ShaleIsReleased : Prop :=
  ∀ s : State,
    (∃ t, exec (.cfgDone false) s = .next t ∧ t = { s with csr := t.csr } ∧ t.flag Reg.SH_STATUS 28 = false ∧
      s.keepsRegs t [Reg.SH_STATUS]) ∧
    (s.shale.cfgReleased = true →
      (s.shale.load = none → ∃ t, exec (.cfgDone true) s = .next t ∧ t = { s with csr := t.csr } ∧
        t.flag Reg.SH_STATUS 28 = true ∧ s.keepsRegs t [Reg.SH_STATUS]) ∧
      (∀ x, s.shale.load = some x → x.phase = 3 → x.zone = none → x.again = false →
        ∃ t, exec (.cfgDone true) s = .next t ∧ t.flag Reg.SH_STATUS 28 = true ∧ t.shState = 3 ∧
          s.keepsRegs t [Reg.SH_STATUS] ∧
          t = { s with csr := t.csr, shale := { s.shale with
            load := some { x with phase := 4, steps := seqSteps x.seq, since := s.now } } })) ∧
    (∀ (x : ShLoad) (supplies : List Nat), s.shale.load = some x → x.phase = 4 → x.zone = none → x.again = false →
      s.shale.exit = none → x.steps = [1, 2, 3, 4] → s.loopsOn &&& (255 - s.fld Reg.SH_LOOP_STAT 0 8) = 0 →
      ∃ t, exec (.releaseSequence supplies) s = .next t ∧
        t = { s with csr := t.csr, shale := t.shale, faults := t.faults, tx := t.tx, freeCount := s.freeCount + 1 } ∧
        t.shale.load = none ∧ t.shale.frames = s.shale.frames ∧ t.shState = 4 ∧ (∀ k, k < 8 → t.zoneStat k = 2) ∧
        t.flag Reg.SH_LOAD_STAT 31 = false ∧ t.flag Reg.SH_LOAD_STAT 30 = true ∧ t.flag Reg.SH_INT_STAT 0 = true ∧
        (let h := t.shale.holds.get holdAtReset 8; h.resets = false ∧ h.writes = false ∧ h.outputs = false) ∧
        (∀ k, k < 4 → (t.flag Reg.SH_IO_STAT (8 * k + 7) = true ↔
          supplies.getD k 3 % 4 = fbits (s.cfgFrame (17152 + 3 * k)) 0 2 ∧ supplies.getD k 3 % 4 ≠ 3)) ∧
        s.keepsRegs t ([Reg.SH_IO_STAT, Reg.SH_ZONE_STAT, Reg.SH_STATUS, Reg.SH_LOAD_STAT, Reg.SH_INT_STAT] ++
          (List.range 128).map Reg.VREF_STAT))

/-- On the configuration chain the device keeps the first bitstream, from the first symbol to the last, and passes every
symbol after it on; the device with CHAIN_FIRST, booting from FLASH, passes on, of its flash, the CHAIN_COUNT - 1
bitstreams after its own (R293, R456). That each bitstream stands between the two symbols is DEDUCED (log 18). The
scrubber reads the next frame when it is due: a good one changes nothing else, a single wrong bit is corrected and
counted, another error whose CRC-32 is wrong is, without gold, counted, recorded once and left (R301, R302). Loops
within their limits lock, and lose lock, a released bank's supply leaves its range, and accesses of the register window
appear to Shale, and read what it answers, or 0 where it does not answer (R282, R287, R488). -/
def Obligations.ChainScrubberLoopsAndWindow : Prop :=
  (∀ (s : State) (c : ChainSym),
     let head : Prop := s.fuses.straps.chainFirst = true ∧ s.fuses.straps.bootMode = 0
     let passed (t : State) : Prop := t = { s with tx := s.tx ++ [.chain c], lines := t.lines, shale := t.shale }
     (head → s.flag Reg.SH_FLASH_STAT 31 = true →
       (s.shale.chainOpen = true → c ≠ .first → ∃ t, exec (.chainByte c) s = .next t ∧ passed t ∧
         t.shale = { s.shale with chainOpen := c != .last }) ∧
       (s.shale.chainOpen = false → c = .first → s.shale.chainSent + 1 < s.shale.preamble.chain →
         ∃ t, exec (.chainByte c) s = .next t ∧ passed t ∧
           t.shale = { s.shale with chainOpen := true, chainSent := s.shale.chainSent + 1 }) ∧
       (s.shale.chainOpen = false → c ≠ .first ∨ s.shale.preamble.chain ≤ s.shale.chainSent + 1 →
         exec (.chainByte c) s = .next s)) ∧
     (¬ head → s.shale.chainOwn = true →
       ∃ t, exec (.chainByte c) s = .next t ∧ passed t ∧ t.shale = s.shale) ∧
     (s.shale.chainOwn = false → ¬ head →
       (exec (.chainByte .first) s = .next { s with shale := { s.shale with chainAt := s.now, chainBuf := [] } }) ∧
       (exec (.chainByte .last) s = .next { s with shale := { s.shale with chainAt := s.now, chainOwn := true } }) ∧
       (∀ b, s.shale.load = none → exec (.chainByte (.byte b)) s =
         .next { s with shale := { s.shale with chainAt := s.now, chainBuf := s.shale.chainBuf ++ [b] } }))) ∧
  (∀ (s : State), s.flag Reg.SH_SCRUB_CFG 31 = true → s.shale.scrubOn = true →
     let i := s.nextScrub s.shale.scrubPos
     i < 17173 → s.shale.passAt * 12565 + scrubRank i * (s.fld Reg.SH_SCRUB_CFG 0 10 * 1000000) ≤ s.now * 12565 →
     i ∉ s.shale.bad →
     let after := { s.shale with scrubPos := i + 1 }
     let stored := (s.shale.guards.get (fun _ => guardOf 0) i).crc
     (exec (.scrubFrame none none) s = .next { s with shale := after }) ∧
     (∃ t, exec (.scrubFrame (some none) none) s = .next t ∧
       t = { s with csr := t.csr, faults := t.faults, tx := t.tx, shale := after } ∧
       t.fld Reg.SH_SCRUB_CNT 24 8 = satAdd 255 (s.fld Reg.SH_SCRUB_CNT 24 8) 1 ∧ t.flag Reg.SH_INT_STAT 2 = true ∧
       s.keepsRegs t [Reg.SH_SCRUB_CNT, Reg.SH_INT_STAT]) ∧
     (∀ d : BitVec 2048, crc32 (bytesOfNat d.toNat 256) = stored →
       exec (.scrubFrame (some (some d)) none) s = .next { s with shale := after }) ∧
     (∀ d : BitVec 2048, crc32 (bytesOfNat d.toNat 256) ≠ stored → s.flag Reg.SH_SCRUB_CFG 30 = false →
       ∃ t, exec (.scrubFrame (some (some d)) none) s = .next t ∧
       t = { s with csr := t.csr, faults := t.faults, tx := t.tx,
                    shale := { after with frames := t.shale.frames, bad := i :: s.shale.bad } } ∧
       t.cfgFrame i = d ∧ (∀ j, j ≠ i → t.cfgFrame j = s.cfgFrame j) ∧
       t.fld Reg.SH_SCRUB_CNT 8 8 = satAdd 255 (s.fld Reg.SH_SCRUB_CNT 8 8) 1 ∧ t.flag Reg.SH_INT_STAT 3 = true ∧
       s.keepsRegs t [Reg.SH_SCRUB_CNT, Reg.SH_INT_STAT])) ∧
  ((∀ (s : State) (j pinHz : Nat), j < 8 →
     (s.loopOn j = true → s.loopLegal pinHz j = true → (s.dom 106).level < 2 →
       ∃ t, exec (.loopLock j pinHz) s = .next t ∧ t = { s with csr := t.csr } ∧
       t.flag Reg.SH_LOOP_STAT j = true ∧ (∀ i, i ≠ j → t.flag Reg.SH_LOOP_STAT i = s.flag Reg.SH_LOOP_STAT i) ∧
       s.keepsRegs t [Reg.SH_LOOP_STAT]) ∧
     (s.loopLegal pinHz j = false → exec (.loopLock j pinHz) s = .next s) ∧
     (s.flag Reg.SH_LOOP_STAT j = true → ∃ t, exec (.shLoopLost j) s = .next t ∧
       t = { s with csr := t.csr, faults := t.faults, tx := t.tx } ∧
       t.flag Reg.SH_LOOP_STAT j = false ∧ t.flag Reg.SH_LOOP_STAT (8 + j) = true ∧ t.flag Reg.SH_INT_STAT 4 = true ∧
       s.keepsRegs t [Reg.SH_LOOP_STAT, Reg.SH_INT_STAT])) ∧
   (∀ (s : State) (k : Nat), k < 4 → s.flag Reg.SH_IO_STAT (8 * k + 7) = true →
     ∃ t, exec (.vddioExcursion k) s = .next t ∧ t = { s with csr := t.csr, faults := t.faults, tx := t.tx } ∧
       t.flag Reg.SH_IO_STAT (8 * k + 7) = false ∧ t.fld Reg.SH_IO_STAT (8 * k + 5) 2 = 3 ∧
       s.keepsRegs t [Reg.SH_IO_STAT]) ∧
   (∀ (s : State) (a : RegAcc), inWindow a.off = true → a.width = 32 → a.off % 4 = 0 → s.reachable a →
     (∀ v, s.windowOpen = true → exec (.registerWindowAccess a none v) s =
       .next { s.atBlock a.off (v % 2 ^ 32) with tx := s.tx ++ [.shWindow (a.off % 2 ^ 16) none] }) ∧
     (∀ w v, s.windowOpen = true → exec (.registerWindowAccess a (some w) v) s =
       .next { s.atBlock a.off with tx := s.tx ++ [.shWindow (a.off % 2 ^ 16) (some (w % 2 ^ 32))] }) ∧
     (∀ w, ∃ t, exec (.shWinNoResponse a w) s = .next t ∧
       t = { s.atBlock a.off with csr := t.csr, faults := t.faults, tx := t.tx } ∧
       (s.windowOpen = true → .shWindow (a.off % 2 ^ 16) (w.map (· % 2 ^ 32)) ∈ t.tx) ∧
       t.flag Reg.SH_INT_STAT 5 = true ∧ s.keepsRegs t [Reg.SH_INT_STAT])))

/-! ## Power (chapter 18) -/

/-- A domain idle for the times of POW_CFG is given the deepest state that its tolerance and its condition permit as its
goal, RUNCTL, which has no ring stop, entering at once; a wake brings a domain back to RUN and counts the exit
(R437-R440). A write of POW_LTR clamps its field to a second; with no domain that has to wake nothing else follows
(R440). -/
def Obligations.DomainsEnterAndLeaveLowPower : Prop :=
  ((∀ (s : State) (d : Nat), s.domPresent d = true → s.portFollows d = false → (s.dom d).goal = none →
     let idle := s.now - (s.dom d).idle
     let ret := s.fld Reg.POW_CFG 16 16 * 1000
     let off := ret + s.fld Reg.POW_CFG 0 16 * 1000000
     let takes (g : Nat) : Prop :=
       (domStops d ≠ [] → (∀ stop, (stop, d) ∉ s.ring.fences) →
         ∃ t, exec (.domainIdleExpiry d) s = .next t ∧
           t = { s with power := { s.power with doms := t.power.doms } } ∧ t.dom d = { s.dom d with goal := some g } ∧
           ∀ e, e ≠ d → t.dom e = s.dom e) ∧
       (d = 64 → ∃ t, exec (.domainIdleExpiry d) s = .next t ∧ t.dom d = { s.dom d with level := g, goal := none } ∧
         t = { s with power := { s.power with doms := t.power.doms }
                      rc := { s.rc with latch := if g = 3 then [] else s.rc.latch } })
     (s.domCap d = 3 → off ≤ idle → (s.dom d).level < 3 → takes 3) ∧
     (s.domCap d = 2 → s.retainOk d = true → ret ≤ idle → (s.dom d).level < 2 → takes 2)) ∧
   (∀ (s : State) (d : Nat), d = 64 ∨ 73 ≤ d → d < 111 → (s.dom d).level ≠ 0 →
     ∃ t, exec (.domainWake d) s = .next t ∧ s.keepsMemories t ∧
       t.dom d = { level := 0, idle := s.now, goal := none } ∧ (∀ e, e ≠ d → t.dom e = s.dom e) ∧
       t.fld (Reg.POW_DOM_STAT d) 0 16 = satAdd 65535 (s.fld (Reg.POW_DOM_STAT d) 0 16) 1)) ∧
  (∀ (s : State) (init : Initiator) (g v : Nat), g < 8 → s.serves init (Reg.POW_LTR g) →
     ∃ t, exec (.powLtr init g v) s = .next t ∧ t = { s.atBlock (Reg.POW_LTR g) with csr := t.csr, faults := t.faults, tx := t.tx } ∧
       t.fld (Reg.POW_LTR g) 0 20 = min 1000000 (bits v 0 20) ∧ s.keepsRegs t [Reg.POW_LTR g])

/-- The regulator link: enabling it reads VOUT_MODE and tells the regulator its transition rate; a poll, every 10 µs or
1 ms after a failure, first makes what is owed; a reading of READ_VOUT in Linear16 and READ_IOUT in Linear11 shows
voltage, current and the power averaged over 100 µs, and adds to the energy; an alert and a failed transaction are
signalled, and a failure makes the reading stale (R441, R442). How a reading is rounded, and that a negative current
counts as none, is the model's choice (log 28). -/
def Obligations.RegulatorLinkReadsAndReports : Prop :=
  ∀ s : State,
    let failed (t : State) (c : Nat) : Prop :=
      t.power.pmbusFail = true ∧ t.power.stale = true ∧ t.power.failedAt = s.now ∧ t.power.samples = [] ∧
        (pmbusSetup (c % 256) = true → c % 256 ∈ t.power.owed) ∧ t.flag Reg.POW_INT_STAT 0 = true
    (∀ init, s.serves init Reg.PMBUS_CFG → s.flag Reg.AVS_CFG 31 = false →
      (∀ mode, s.flag Reg.PMBUS_CFG 31 = false →
        ∃ t m, exec (.pmbusEn init (some mode)) s = .next t ∧ t.flag Reg.PMBUS_CFG 31 = true ∧
          t = { s.atBlock Reg.PMBUS_CFG with csr := t.csr, faults := t.faults, tx := s.tx ++ m ++ [.pmbus 0x27 500]
                                             power := { s.power with pmbusFail := false, stale := true, samples := [], polledAt := s.now
                                                                     owed := [], voutExp := mode % 32 } } ∧
          s.keepsRegs t [Reg.PMBUS_CFG]) ∧
      (s.flag Reg.PMBUS_CFG 31 = false →
        ∃ t, exec (.pmbusEn init none) s = .next t ∧ t.flag Reg.PMBUS_CFG 31 = true ∧ failed t 0x20 ∧
          t = { s.atBlock Reg.PMBUS_CFG with csr := t.csr, faults := t.faults, tx := t.tx, power := t.power } ∧
          s.keepsRegs t [Reg.PMBUS_CFG, Reg.POW_INT_STAT]) ∧
      (∀ mode, s.flag Reg.PMBUS_CFG 31 = true →
        ∃ t, exec (.pmbusEn init mode) s = .next t ∧ s.keepsRegs t [Reg.PMBUS_CFG] ∧
          t = { s.atBlock Reg.PMBUS_CFG with csr := t.csr, faults := t.faults, tx := t.tx })) ∧
    (s.flag Reg.PMBUS_CFG 31 = true →
      let due : Prop := (if s.power.pmbusFail then s.power.failedAt + 1000000 else s.power.polledAt + 10000) ≤ s.now
      (∀ mode vout iout, due → s.power.owed = [] →
        let times (m e : Nat) : Nat := if e < 16 then m * 2 ^ e else m / 2 ^ (32 - e)
        let mv := times (vout % 2 ^ 16 * 1000) s.power.voutExp
        let ca := if bits iout 10 1 = 1 then 0 else times (bits iout 0 10 * 100) (bits iout 11 5)
        let samples := (s.now, mv * ca / 100) :: s.power.samples.filter (fun e => s.now < e.1 + 100000)
        let p := min (2 ^ 20 - 1) ((samples.map (·.2)).sum / samples.length + s.fld Reg.POW_AUX 0 7 * 1000)
        ∃ t, exec (.pmbusPoll mode (some (vout, iout))) s = .next t ∧
          t = { s with csr := t.csr, power := { s.power with stale := false, pmbusFail := false, samples := samples
                                                             polledAt := s.now
                                                             energyRest := (s.power.energyRest + p) % 100 } } ∧
          t.fld Reg.AVS_STAT 12 10 = min mv 1023 ∧ t.fld Reg.POW_ICORE 0 16 = min ca 65535 ∧
          t.fld Reg.POW_NOW 0 20 = p ∧
          t.rd64 Reg.ENERGY_LO = (s.rd64 Reg.ENERGY_LO + (s.power.energyRest + p) / 100) % 2 ^ 64 ∧
          s.keepsRegs t [Reg.AVS_STAT, Reg.POW_ICORE, Reg.POW_NOW, Reg.ENERGY_LO, Reg.ENERGY_HI]) ∧
      (∀ reading, due → s.power.owed = [0x20] →
        (∀ mode, ∃ t, exec (.pmbusPoll (some mode) (some reading)) s = .next t ∧ .pmbus 0x27 500 ∈ t.tx ∧
          t.power.voutExp = mode % 32 ∧ t.power.owed = [] ∧ t.power.stale = false) ∧
        (∃ t, exec (.pmbusPoll none (some reading)) s = .next t ∧ failed t 0x20 ∧
          t = { s with csr := t.csr, faults := t.faults, tx := t.tx, power := t.power } ∧
          s.keepsRegs t [Reg.POW_INT_STAT])) ∧
      (∀ w, ∃ t, exec (.powPmbusAlert (some w)) s = .next t ∧
        t = { s with csr := t.csr, faults := t.faults, tx := t.tx } ∧ t.flag Reg.POW_INT_STAT 1 = true ∧
        s.keepsRegs t [Reg.POW_INT_STAT]) ∧
      (∀ c, ∃ t, exec (.powPmbusError c) s = .next t ∧ failed t c ∧
        t = { s with csr := t.csr, faults := t.faults, tx := t.tx, power := t.power } ∧
        s.keepsRegs t [Reg.POW_INT_STAT]))

/-- The decision of a 10 µs interval: the thermal level follows the hottest sensor, and the level in force is the larger
of the two; with power above the cap the voltage falls 5 mV first, written to the regulator; with the regulator link off
the cap level falls by 1 and the voltage holds (R441, R443-R445). -/
def Obligations.PowerDecisionSetsTheThrottle : Prop :=
  ∀ (s : State) (maxPs : Nat), s.power.decidedAt + 10000 ≤ s.now →
    let therm := s.fld Reg.THROT_STAT 23 3
    let cap := s.fld Reg.THROT_STAT 26 3
    (∃ t, exec (.powerDecision maxPs) s = .next t ∧ t.power.decidedAt = s.now ∧
      t.fld Reg.THROT_STAT 29 3 = max (t.fld Reg.THROT_STAT 26 3) (t.fld Reg.THROT_STAT 23 3) ∧
      (∀ n (x : Int), s.hottest = some (n, x) →
        let limit : Int := s.fld Reg.THERM_CFG 16 8 * 4
        t.fld Reg.THROT_STAT 23 3 = if limit ≤ x then min 7 (therm + 1) else if x < limit - 12 then therm - 1 else therm) ∧
      (s.flag Reg.PMBUS_CFG 31 = true → s.power.stale = false →
        s.fld Reg.POW_CAP 0 9 * 1000 < s.fld Reg.POW_NOW 0 20 →
        (s.flag Reg.AVS_CFG 31 = true → s.flag Reg.AVS_CFG 30 = false ∨ cap ≠ 0 → s.fld Reg.AVS_CFG 10 10 < s.vcore →
          s.vcore < 1024 → t.fld Reg.AVS_STAT 22 10 = s.vcore - 5 ∧ t.fld Reg.THROT_STAT 26 3 = cap ∧
          .pmbus 0x21 (mvLinear16 s.power.voutExp (s.vcore - 5)) ∈ t.tx) ∧
        (s.flag Reg.AVS_CFG 31 = false → t.fld Reg.THROT_STAT 26 3 = min 7 (cap + 1) ∧ t.vcore = s.vcore)) ∧
      s.keepsRegs t [Reg.THROT_STAT, Reg.AVS_STAT, Reg.POW_INT_STAT]) ∧
    (s.flag Reg.PMBUS_CFG 31 = false → s.flag Reg.AVS_CFG 31 = false → s.hottest = none →
      ∃ t, exec (.powerDecision maxPs) s = .next t ∧ t.fld Reg.THROT_STAT 26 3 = cap - 1 ∧
        t.fld Reg.THROT_STAT 23 3 = therm ∧
        t = { s with csr := t.csr
                     power := { s.power with decidedAt := s.now, overOn := false, unreachNoted := false } } ∧
        s.keepsRegs t [Reg.THROT_STAT])

/-- A sensor's reading shows with the hottest sensor's; one out of range marks the sensor not valid and is signalled
once; one at CRIT_C sets the thermal level to 7 and is FATAL (R445, R446). A pin's threshold moves one code toward the
centre, at most once a millisecond; a DDR subchannel is retrained when its interval is over (R447, R448). -/
def Obligations.SensorsThresholdsAndDdrTraining : Prop :=
  (∀ (s : State) (n : Nat) (temp : Int), n < 16 →
     let crit : Int := s.fld Reg.THERM_CFG 24 8 * 4
     let others : Prop := ∀ m, m < 16 → m ≠ n → s.flag (Reg.THERM_SENSOR m) 31 = true → s.sensorTemp m < crit
     (-160 ≤ temp → temp ≤ 600 → others → temp < crit →
       ∃ t, exec (.sensorReading n temp) s = .next t ∧ t = { s with csr := t.csr } ∧
         t.flag (Reg.THERM_SENSOR n) 31 = true ∧ t.sensorTemp n = temp ∧ t.flag Reg.THERM_FAULT n = false ∧
         (∀ m x, t.hottest = some (m, x) → t.fld Reg.THERM_STAT 28 4 = m ∧ t.fld Reg.THERM_STAT 0 16 = satField 16 x) ∧
         s.keepsRegs t [Reg.THERM_SENSOR n, Reg.THERM_FAULT, Reg.THERM_STAT]) ∧
     (temp < -160 ∨ 600 < temp → others → (∃ m, m < 16 ∧ m ≠ n ∧ s.flag Reg.THERM_FAULT m = false) →
       n ∉ s.power.sensorNoted →
       ∃ t, exec (.sensorReading n temp) s = .next t ∧
         t = { s with csr := t.csr, faults := t.faults, tx := t.tx
                      power := { s.power with sensorNoted := n :: s.power.sensorNoted } } ∧
         t.flag (Reg.THERM_SENSOR n) 31 = false ∧ t.flag Reg.THERM_FAULT n = true ∧ t.flag Reg.POW_INT_STAT 5 = true ∧
         s.keepsRegs t [Reg.THERM_SENSOR n, Reg.THERM_FAULT, Reg.THERM_STAT, Reg.POW_INT_STAT]) ∧
     (-160 ≤ temp → temp ≤ 600 → crit ≤ temp → s.critical = false →
       ∃ t, exec (.sensorReading n temp) s = .next t ∧ t.rc.state = .fatal ∧ t.fld Reg.THROT_STAT 23 3 = 7 ∧
         s.keepsMemories t)) ∧
  ((∀ (s : State) (pin centre : Nat), s.adapts pin = true → s.flag (Reg.VREF_STAT pin) 31 = false → centre ≤ 63 →
     let code := s.fld (Reg.VREF_STAT pin) 0 6
     code ≠ centre →
     (s.power.vrefMoved.get (fun _ => 0) pin = 0 ∨ s.power.vrefMoved.get (fun _ => 0) pin - 1 + 1000000 ≤ s.now) →
     let c := if code < centre then code + 1 else code - 1
     ∃ t, exec (.vrefStep pin centre) s = .next t ∧ t.fld (Reg.VREF_STAT pin) 0 6 = c ∧
       t.flag (Reg.VREF_STAT pin) 30 = true ∧ (c = 0 ∨ c = 63 → t.flag (Reg.VREF_STAT pin) 29 = true) ∧
       t = { s with csr := t.csr, power := { s.power with vrefMoved := t.power.vrefMoved } } ∧
       t.power.vrefMoved.get (fun _ => 0) pin = s.now + 1 ∧ s.keepsRegs t [Reg.VREF_STAT pin]) ∧
   (∀ (s : State) (sub : Nat) (temp : Int), s.flag Reg.DDR_RETRAIN 31 = true → sub < 8 →
     s.fld Reg.DDR_RETRAIN 0 10 * 1000000 ≤ s.now - s.power.ddrAt.get (fun _ => 0) sub →
     ∃ t, exec (.ddrRetrain sub temp) s = .next t ∧ t.power.ddrAt.get (fun _ => 0) sub = s.now ∧
       t.power.ddrCount = s.power.ddrCount + 1 ∧
       t = { s with power := { s.power with ddrAt := t.power.ddrAt, ddrTemp := t.power.ddrTemp, ddrCount := t.power.ddrCount } }))

/-! ## Resets, boot, the TAP and registers (chapters 01, 02, 19 and 20) -/

/-- The resets of the card: COLD leaves what State.reset has but for DDR, the TAP, the PERST_N pin, the rails and the
fuses; SYSTEM keeps TIME but for the servos, the fault ring, BAR2_CTRL and DDR, every other register taking its reset
value; a low rail holds the device in a COLD reset without DEVICE_DOWN (R451, R452, R454, R487). PERST_N and FLR clear
the EN of the DMA channels and the MSI-X table and advance the host reset epoch, which a COLD or SYSTEM reset in
progress leaves at 0; PERST_N takes the link down and BAR2_CTRL to its reset value as well, and 80 ms after its
deassertion LOCK is set (R371, R452, R453). -/
def Obligations.ResetsKeepWhatTheirScopeLeaves : Prop :=
  (∀ (s : State) (straps : Straps),
     let cold (t : State) (low : Bool) : Prop :=
       t = { State.reset with
               pending := s.pending, ddr := s.ddr, tx := t.tx, lines := t.lines, freeCount := s.freeCount
               fuses := { s.dbg.fuses.getD s.fuses with straps := straps }
               crypt := s.crypt.stored
               dbg := { ir := s.dbg.ir, boundary := s.dbg.boundary }
               host := { perst := s.host.perst, released := if s.host.perst then none else some 0 }
               boot := { low := low } }
     let sys (t : State) (cause : Nat) (straps : Straps) : Prop :=
       t.boot = { inReset := true, cause := cause } ∧ t.fuses = { s.fuses with straps := straps } ∧
         t.ddr = s.ddr ∧ (s.boot.announce = none → t.faults = s.faults) ∧
         t.time = { s.time with servoA := t.time.servoA, servoB := t.time.servoB } ∧ t.pending = s.pending ∧
         t.host = { s.host with keep := [] } ∧
         t.dbg = { ir := s.dbg.ir, boundary := s.dbg.boundary, fuses := s.dbg.fuses } ∧
         t.rc = State.reset.rc ∧ t.clusters = [] ∧ t.imem = [] ∧ t.banks = [] ∧ t.inbox = [] ∧ t.dmb = [] ∧ t.acc = [] ∧
         t.shale = State.reset.shale ∧ t.crypt.keys = [] ∧ t.spad = State.reset.spad ∧ t.links = [] ∧
         (∀ off, t.rd off = if off / 0x10_0000 = 0x0A ∨ off / 0x10_0000 = 0x12 ∨ off = Reg.BAR2_CTRL then s.rd off
           else (regReset t.fuses off).toNat) ∧
         (∀ d, d < 111 → t.dom d = { level := 0, idle := s.now, goal := none })
     (∃ t m, exec (.coldRstN straps) s = .next t ∧ cold t s.boot.low ∧ t.tx = s.tx ++ m) ∧
     (∃ t, exec (.sysRstN straps) s = .next t ∧ sys t 1 straps) ∧
     (∀ init v, s.serves init Reg.DEV_RST → s.boot.inReset = false →
       (bits v 24 8 = 0xA5 → v.testBit 0 = true → init = .core 0 ∨ init = .hostMmio → bits v 1 23 = 0 →
         ∃ t, exec (.devRst init v) s = .next t ∧ sys t 2 s.fuses.straps) ∧
       (bits v 24 8 ≠ 0xA5 ∨ v.testBit 0 = false ∨ (init ≠ .core 0 ∧ init ≠ .hostMmio) →
         ∃ t, exec (.devRst init v) s = .next t ∧ s.keepsRegs t [] ∧
           t = { s.atBlock Reg.DEV_RST with csr := t.csr, faults := t.faults, tx := t.tx })) ∧
     (∀ vaux vcore vlane, vaux < 1620 ∨ vcore < 500 ∨ vlane < 780 →
       ∃ t, exec (.supplyMonitor vaux vcore vlane straps) s = .next t ∧ cold t true ∧ t.tx = s.tx) ∧
     (∀ vaux vcore vlane, 1620 ≤ vaux → 500 ≤ vcore → 780 ≤ vlane → s.boot.low = true →
       ∃ t, exec (.supplyMonitor vaux vcore vlane straps) s = .next t ∧ cold t false ∧ t.tx = s.tx)) ∧
  (∀ s : State,
     let hostReset (t : State) : Prop :=
       (∀ k, k < 8 → t.flag (Reg.DMA_CFG k) 31 = false) ∧
         (∀ v j, v < 64 → j < 4 → t.rd (Reg.MSIX_TABLE v j) = (regReset s.fuses (Reg.MSIX_TABLE v j)).toNat) ∧
         t.badger = (if s.boot.begun = true ∧ s.boot.inReset = false
           then { s.badger with hostEpoch := (s.badger.hostEpoch + 1) % 256 } else s.badger) ∧ s.keepsMemories t ∧ t.rc = s.rc ∧
         t.time = s.time
     (s.host.perst = false → ∃ t, exec (.perstN true) s = .next t ∧ hostReset t ∧
       t.rd Reg.BAR2_CTRL = (regReset s.fuses Reg.BAR2_CTRL).toNat ∧
       t.host = { s.host with
         up := false, width := 0, rate := 0, d3hot := false, perst := true, released := none, maxPayload := 128
         maxRead := 512, ecrcGen := false, ecrcCheck := false, aspmL1 := false, aerAbort := false }) ∧
     (s.host.perst = true → ∃ t, exec (.perstN false) s = .next t ∧ t.flag Reg.DEV_INT_STAT 1 = true ∧
       t = { s with csr := t.csr, faults := t.faults, tx := t.tx
                    host := { s.host with perst := false, released := some s.now } } ∧
       s.keepsRegs t [Reg.DEV_INT_STAT]) ∧
     (s.host.up = true → ∃ t, exec .flr s = .next t ∧ hostReset t ∧ t.flag Reg.DEV_INT_STAT 2 = true ∧
       t.host = { s.host with
         d3hot := false, maxPayload := 128, maxRead := 512, ecrcGen := false, ecrcCheck := false, aspmL1 := false
         aerAbort := false } ∧ t.rd Reg.BAR2_CTRL = s.rd Reg.BAR2_CTRL) ∧
     (∀ at_, s.host.released = some at_ → at_ + 80000000 ≤ s.now → s.flag Reg.BAR2_CTRL 31 = false →
       ∃ t, exec .lockTimeout s = .next t ∧ t = { s with csr := t.csr } ∧ t.flag Reg.BAR2_CTRL 31 = true ∧
         t.fld Reg.BAR2_CTRL 0 6 = s.fld Reg.BAR2_CTRL 0 6 ∧ s.keepsRegs t [Reg.BAR2_CTRL]))

/-- The end of a reset starts the Warden in the boot ROM, which opens BAR2 unless it boots from flash, DEV_RESET waiting
to be the first record; the straps of a reset by DEV_RST are sampled then; DDR training shows in BOOT_STAT; a fetched
image is placed in SP0-SP3 and verified, and then run, or the host is served with the number of the check that failed;
the boot ROM that serves the host waits for a word in MB00, and then takes SP0-SP3 back (R452, R455-R457, R459, R460).
-/
def Obligations.BootRunsItsOrder : Prop :=
  ∀ s : State,
    (∀ straps, s.boot.begun = false → s.boot.low = false →
      ∃ t r, exec (.boot straps) s = .next t ∧
        t.boot = { s.boot with begun := true, inReset := false, announce := some r } ∧
        r.cls = cInfo ∧ r.code = 0x1001 ∧ r.detail = s.boot.cause % 2 ^ 32 ∧
        t.fuses = { s.fuses with straps := if s.boot.cause = 2 then straps else s.fuses.straps } ∧
        (t.core 0).pc = 0x40_4000_0000 ∧ t.fld Reg.BOOT_STAT 29 3 = 1 ∧ t.flag Reg.DISP_INT_STAT 1 = true ∧
        t.spad.mem = s.spad.mem ∧ t.ddr = s.ddr ∧ t.rc.state = s.rc.state ∧
        (t.bootMode ≠ 0 → s.flag Reg.BAR2_CTRL 31 = false →
          t.flag Reg.BAR2_CTRL 31 = true ∧ t.flag Reg.BAR2_CTRL 24 = true ∧ t.fld Reg.BAR2_CTRL 0 6 = 0x22)) ∧
    (s.boot.begun = true → s.boot.trained = false → ∀ good,
      (s.boot.image = none → ∃ t, exec (.ddrTrainingDone good) s = .next t ∧ t.flag Reg.BOOT_STAT 28 = good ∧
        t = { s with csr := t.csr, faults := t.faults, tx := t.tx, boot := { s.boot with trained := true } } ∧
        s.keepsRegs t [Reg.BOOT_STAT]) ∧
      (∀ key svn entry, s.boot.image = some (key, svn, entry) → ∃ t, exec (.ddrTrainingDone good) s = .next t ∧
        t.flag Reg.BOOT_STAT 28 = good ∧ t.fld Reg.BOOT_STAT 29 3 = 3 ∧ (t.core 0).pc = 0x40_1000_0100 + entry ∧
        t.boot = { s.boot with trained := true, image := none } ∧ s.keepsRegs t [Reg.BOOT_STAT])) ∧
    (∀ l : List Byte, s.boot.begun = true → s.fld Reg.BOOT_STAT 29 3 = 1 → s.bootMode = 0 →
      s.spad.soft = [] → s.spad.bad = [] →
      let placed := { s with spad := { s.spad with
        mem := s.spad.mem.setAll (fun _ => 0) ((List.range (min l.length (2 ^ 20))).zip l) } }
      ∃ t, exec (.imageFetchDone (some l)) s = .next t ∧ t.spad.mem = placed.spad.mem ∧ t.ddr = s.ddr ∧
        match placed.verifyImage with
        | .ok (key, svn, entry) =>
          if s.boot.trained then t.fld Reg.BOOT_STAT 29 3 = 3 ∧ (t.core 0).pc = 0x40_1000_0100 + entry
          else t.fld Reg.BOOT_STAT 29 3 = 2 ∧ t.boot.image = some (key, svn, entry)
        | .error n => t.fld Reg.BOOT_STAT 29 3 = 4 ∧ t.fld Reg.BOOT_STAT 0 3 = n) ∧
    (∀ image, s.boot.begun = true → s.boot.taking = false →
      s.fld Reg.BOOT_STAT 29 3 = 4 ∨ (s.fld Reg.BOOT_STAT 29 3 = 1 ∧ s.bootMode ≠ 0) →
      ((s.mbox 0).full = false → exec (.imageFetchDone image) s = .next s) ∧
      ((s.mbox 0).full = true → ∃ t, exec (.imageFetchDone image) s = .next t ∧ t.boot = { s.boot with taking := true } ∧
        (t.mbox 0).full = false ∧ t.spad.mem = s.spad.mem ∧ t.ddr = s.ddr))

/-- IDCODE reads the identity of the part and changes nothing but the instruction that the TAP holds (R7). -/
def Obligations.IdcodeReadsThePart : Prop :=
  ∀ s : State, exec .idcode s = .next { s with
    dbg := { s.dbg with ir := 0x02 }
    bus := { data := if s.fuses.is9416 then 0x1941_6647 else 0x1940_8647 } }

/-- The TAP's instructions: the three that place the device in test run in IDLE and FATAL only, and BYPASS is loaded
instead elsewhere; SAMPLE/PRELOAD and BYPASS always run; unlisted codes act as BYPASS; test-logic reset loads IDCODE
(R461). FUSE_PROG sets bits of its slot, never clears one, and its fuses wait for the next COLD reset; it needs level
ALL or blank slots. A change of DBG_AUTH.LEVEL by the Warden is recorded, and a lowering resumes the cores that the
debug path has halted and advances the debug epoch (R461, R463). -/
def Obligations.TapInstructionsAndFuses : Prop :=
  (∀ s : State,
     let test (c : Instr) (dbg' : Debug) (bus' : Bus) : Prop :=
       ∃ t, exec c s = .next t ∧ t.dbg = dbg' ∧ t.bus = bus' ∧ t.orderly = true ∧ t.flag Reg.DISP_STAT 30 = true ∧
         s.keepsMemories t
     let turnedAway (c : Instr) : Prop :=
       ∃ t, exec c s = .next t ∧ t = { s with csr := t.csr, faults := t.faults, tx := t.tx, dbg := { s.dbg with ir := 0xFF } } ∧
         s.keepsRegs t []
     (∀ pins data, s.rc.state = .idle ∨ s.rc.state = .fatal →
       test (.extest pins data) { s.dbg with ir := 0, boundary := data } { data := pins } ∧
       test .highz { s.dbg with ir := 3 } s.bus ∧ test .clamp { s.dbg with ir := 4 } s.bus) ∧
     (∀ pins data, s.rc.state ≠ .idle → s.rc.state ≠ .fatal →
       turnedAway (.extest pins data) ∧ turnedAway .highz ∧ turnedAway .clamp) ∧
     (∀ pins data, exec (.samplePreload pins data) s =
       .next { s with dbg := { s.dbg with ir := 1, boundary := data }, bus := { data := pins } }) ∧
     (∀ code, code < 256 → code ∉ [0x00, 0x01, 0x02, 0x03, 0x04, 0x10, 0x11, 0x18] →
       exec (.bypass code) s = .next { s with dbg := { s.dbg with ir := 0xFF } }) ∧
     exec .testLogicReset s = .next { s with dbg := { s.dbg with ir := 0x02 } }) ∧
  (∀ s : State,
     (∀ slot (hash : BitVec 384) revoke svn,
       (s.fld Reg.DBG_AUTH 0 2 = 2 ∨ s.fuses.keyHash = [] →
         let old := s.dbg.fuses.getD s.fuses
         ∃ f, exec (.fuseProg slot hash revoke svn) s = .next { s with dbg := { s.dbg with ir := 0x18, fuses := some f } } ∧
           f.keyHash.get (fun _ => 0) (slot % 4) = old.keyHash.get (fun _ => 0) (slot % 4) ||| hash ∧
           (∀ k, k ≠ slot % 4 → f.keyHash.get (fun _ => 0) k = old.keyHash.get (fun _ => 0) k) ∧
           f.revoked = old.revoked ||| revoke % 16 ∧ f.svnMin = max old.svnMin (min svn 63) ∧
           f = { old with keyHash := f.keyHash, revoked := f.revoked, svnMin := f.svnMin }) ∧
       (s.fld Reg.DBG_AUTH 0 2 ≠ 2 → s.fuses.keyHash ≠ [] →
         ∃ t, exec (.fuseProg slot hash revoke svn) s = .next t ∧ s.keepsRegs t [] ∧
           t = { s with csr := t.csr, faults := t.faults, tx := t.tx, dbg := { s.dbg with ir := 0xFF } })) ∧
     (∀ level, s.serves (.core 0) Reg.DBG_AUTH → level < 3 →
       ∃ t, exec (.dbgAuthChanged (.core 0) level) s = .next t ∧ t.fld Reg.DBG_AUTH 0 2 = level ∧ t.ddr = s.ddr ∧
         (level < s.fld Reg.DBG_AUTH 0 2 → t.dbg.halted = [] ∧ t.badger.dbgEpoch = (s.badger.dbgEpoch + 1) % 256 ∧
           ∀ k ∈ s.dbg.halted, (t.core k).state = 1) ∧
         (s.fld Reg.DBG_AUTH 0 2 ≤ level → t.badger = s.badger ∧ t.dbg = s.dbg)) ∧
     (∀ init level, s.serves init Reg.DBG_AUTH → init ≠ .core 0 → ∃ t, exec (.dbgAuthChanged init level) s = .next t ∧
       t = { s.atBlock Reg.DBG_AUTH with csr := t.csr, faults := t.faults, tx := t.tx } ∧ s.keepsRegs t []))

/-- DBG_REQ captures a fresh challenge and shifts the response in; a debug access beyond its reach reads 0 with an
error; one within it reads DDR, or, at every level, DEVICE_ID (R462, R463). -/
def Obligations.DebugPathReachesWhatItsLevelGrants : Prop :=
  ∀ s : State,
    (∀ response : BitVec 512, let chal := (Config.random s.freeCount).toNat
      ∃ t, exec (.dbgReq response) s = .next t ∧ t.rd64 Reg.DBG_CHAL_LO = chal % 2 ^ 64 ∧
        (∀ w, w < 16 → t.rd (Reg.DBG_RESP w) = bits response.toNat (32 * w) 32) ∧ t.flag Reg.DBG_AUTH 31 = true ∧
        t.flag Reg.DEV_INT_STAT 0 = true ∧
        t = { s with csr := t.csr, faults := t.faults, tx := t.tx, freeCount := s.freeCount + 1
                     dbg := { s.dbg with ir := 0x10 }, bus := { data := chal % 2 ^ 64 } } ∧
        s.keepsRegs t ([Reg.DBG_CHAL_LO, Reg.DBG_CHAL_HI, Reg.DBG_AUTH, Reg.DEV_INT_STAT] ++
          (List.range 16).map Reg.DBG_RESP)) ∧
    (∀ core write addr data md halt,
      let dbg' := { s.dbg with ir := 0x11, core := core % 8 }
      (s.dbgReach (s.fld Reg.DBG_AUTH 0 2) addr = false →
        exec (.dbgAccess core write addr data md halt) s = .next { s with
          bus := { data := 0, err := true }
          dbg := if write then dbg' else { dbg' with data := 0, err := true } }) ∧
      (∀ r, s.fld Reg.DBG_AUTH 0 2 ≠ 0 → addr + 4 ≤ 2 ^ 38 → s.plainAccess .debug addr 4 r → s.ddr.wf (fun _ => 0) = true →
        (s.rd (Reg.CR_REG_RIGHTS r)).testBit (2 * Initiator.num .debug) = true → s.fld Reg.DBG_AUTH 0 2 ≤ 2 →
        let v := natOfBytes ((List.range 4).map fun k => s.ddr.get (fun _ => 0) (addr + k))
        ∃ t, exec (.dbgAccess core false addr data md halt) s = .next t ∧
          t = { s with power := t.power, bus := { data := v, err := false }, dbg := { dbg' with data := v, err := false } })) ∧
    (∀ core data md halt, s.serves .debug Reg.DEVICE_ID →
      ∃ t, exec (.dbgAccess core false 0x40_0000_0000 data md halt) s = .next t ∧
        t.bus = { data := ((if s.fuses.is9416 then 0x9416 else 0x9408) * 2 ^ 16 + s.fuses.tempGrade * 2 ^ 12 +
          s.fuses.revMajor * 2 ^ 8 + s.fuses.revMinor * 2 ^ 4) % 2 ^ 32, err := false } ∧
        t.dbg = { s.dbg with ir := 0x11, core := core % 8, data := t.bus.data, err := false } ∧
        t = { s with bus := t.bus, dbg := t.dbg })

/-- The record that enters the fault ring takes FAULT_WPOS modulo 256, which then advances, and sets the cause of its
class; a record that it overwrites is counted. It is DEV_RESET after a reset, then the oldest record of the
lowest-numbered source; while a reset lasts none enters (R455, R471). -/
def Obligations.FaultRingTakesRecordsInOrder : Prop :=
  ∀ s : State,
    let enters (r : Record) (t : State) : Prop :=
      exec .faultRecordWrite s = .next t ∧ t.faults.ring.get (fun _ => none) (s.faults.wpos % 256) = some r ∧
        (∀ p, p ≠ s.faults.wpos % 256 → t.faults.ring.get (fun _ => none) p = s.faults.ring.get (fun _ => none) p) ∧
        t.faults.wpos = (s.faults.wpos + 1) % 2 ^ 32 ∧ t.flag Reg.FAULT_INT_STAT r.cls = true ∧
        (let full := (s.faults.ring.get (fun _ => none) (s.faults.wpos % 256)).isSome
         t.rd Reg.FAULT_OVERWRITES = if full then satAdd (2 ^ 32 - 1) (s.rd Reg.FAULT_OVERWRITES) 1
           else s.rd Reg.FAULT_OVERWRITES) ∧ s.keepsRegs t [Reg.FAULT_OVERWRITES]
    (s.boot.begun = false → exec .faultRecordWrite s = .next s) ∧
    (s.boot.begun = true →
      (∀ r, s.boot.announce = some r → r.cls < 8 →
        ∃ t, enters r t ∧ t.faults.queues = s.faults.queues ∧
          t = { s with csr := t.csr, faults := t.faults, tx := t.tx, boot := { s.boot with announce := none } }) ∧
      (∀ src r rest others, s.boot.announce = none → s.faults.queues = (src, r :: rest) :: others → r.cls < 8 →
        ∃ t, enters r t ∧ t = { s with csr := t.csr, faults := t.faults, tx := t.tx }) ∧
      (s.boot.announce = none → s.faults.queues = [] → exec .faultRecordWrite s = .next s))

/-- A register write sets an RW field, as clamped, clears the W1C bits written 1, and leaves an RO field; a write
narrower than 32 bits or misaligned is ignored; no other register changes (R9, R10, R25). A read of an RC register
returns it and leaves 0; a read of a _LO register latches its _HI register, which reads as latched; a read of TB0_LO
latches the seven values that belong with it (R9, R334, R511). -/
def Obligations.RegisterAccessFollowsItsCodes : Prop :=
  (∀ (s : State) (a : RegAcc) (v : Nat), s.reachable a →
     let wrote (off : Nat) (holds : State → Prop) : Prop := a.off = off → a.width = 32 →
       ∃ t, exec (.registerWrite a v) s = .next t ∧ holds t ∧
         t = { s.atBlock off with csr := t.csr, faults := t.faults, tx := t.tx } ∧ s.keepsRegs t [off]
     wrote Reg.POW_CAP (fun t => t.fld Reg.POW_CAP 0 9 = max 90 (min 300 (bits v 0 9))) ∧
     wrote Reg.POW_INT_STAT (fun t => ∀ i, i < 6 → t.flag Reg.POW_INT_STAT i = (s.flag Reg.POW_INT_STAT i && !v.testBit i)) ∧
     wrote Reg.THERM_FAULT (fun t => t.fld Reg.THERM_FAULT 0 16 = s.fld Reg.THERM_FAULT 0 16) ∧
     (inWindow a.off = false → a.off < 2 ^ 26 → (a.width = 8 ∨ a.width = 16 ∨ (a.width = 32 ∧ a.off % 4 ≠ 0)) →
       ∃ t, exec (.registerWrite a v) s = .next t ∧ s.keepsRegs t [] ∧
         t = { s.atBlock a.off with csr := t.csr, faults := t.faults, tx := t.tx })) ∧
  (∀ (s : State) (a : RegAcc), s.reachable a → a.width = 32 →
     (∀ off, off ∈ [Reg.FAULT_DROPPED, Reg.FAULT_OVERWRITES] → a.off = off →
       ∀ err, ∃ t, exec (.rcRead a err) s = .next t ∧ t = { s.atBlock off (s.rd off) with csr := t.csr } ∧ t.rd off = 0 ∧
         ∀ o, o ≠ off → t.rd o = s.rd o) ∧
     (∀ off, off ∈ [Reg.ENERGY_LO, Reg.SNAP_BASE_LO, Reg.SPOOR_WRITE_POS_LO] →
       (a.off = off → ∃ t, exec (.loReadLatch a) s = .next t ∧ t.latchOf (off + 4) = s.rd (off + 4) ∧
         (∀ o, o ≠ off + 4 → t.latchOf o = s.latchOf o) ∧
         t = { s.atBlock off (s.rd off) with latchHi := t.latchHi }) ∧
       (a.off = off + 4 → exec (.loReadLatch a) s = .next (s.atBlock (off + 4) (s.latchOf (off + 4))))) ∧
     (a.off = Reg.TB0_LO → ∃ t, exec (.loReadLatch a) s = .next t ∧
       t = { s.atBlock Reg.TB0_LO (s.tb0 % 2 ^ 32) with latchHi := t.latchHi } ∧
       t.latchOf Reg.TB0_HI = s.tb0 / 2 ^ 32 % 2 ^ 32 ∧ t.latchOf Reg.TB0_EPOCH = s.tb0 / 2 ^ 32 % 2 ^ 32 ∧
       t.latchOf Reg.TB1_LO = s.time.tb1 % 2 ^ 32 ∧ t.latchOf Reg.TB1_HI = s.time.tb1 / 2 ^ 32 % 2 ^ 32 ∧
       t.latchOf Reg.TB1_EPOCH = s.time.tb1 / 2 ^ 32 % 2 ^ 32 ∧
       t.latchOf Reg.TB2_LO = s.latestBegun % 2 ^ 32 ∧ t.latchOf Reg.TB2_HI = s.latestBegun / 2 ^ 32 % 2 ^ 32))

/-- An access through BAR2 reaches DDR at DDR_BASE, and the scratchpads in the top 4 MiB of an enabled aperture; during
a SYSTEM reset it reads 0 and writes nothing (R28, R454). -/
def Obligations.Bar2ReachesDdrAndScratchpads : Prop :=
  (∀ (s : State) (off n : Nat) (data : Option (List Byte)), s.boot.inReset = true → off + n ≤ 2 ^ s.fld Reg.BAR2_CTRL 0 6 →
    exec (.bar2Access off n data) s = .next { s with bus := { data := 0 } }) ∧
  ∀ (s : State) (off n : Nat), s.boot.inReset = false →
    let size := 2 ^ s.fld Reg.BAR2_CTRL 0 6
    let top := if s.flag Reg.BAR2_CTRL 24 then size - 2 ^ 22 else size
    (∀ r, off + n ≤ top →
      let addr := s.fld Reg.BAR2_CTRL 8 8 * 2 ^ 30 + off
      s.plainAccess .hostMmio addr n r → s.ddr.wf (fun _ => 0) = true →
      ((s.rd (Reg.CR_REG_RIGHTS r)).testBit (2 * Initiator.hostMmio.num) = true →
        ∃ t, exec (.bar2Access off n none) s = .next t ∧ t = { s with power := t.power, bus := {
          data := natOfBytes ((List.range n).map fun k => s.ddr.get (fun _ => 0) (addr + k)), err := false } }) ∧
      (∀ l : List Byte, l.length = n →
        (s.rd (Reg.CR_REG_RIGHTS r)).testBit (2 * Initiator.hostMmio.num + 1) = true →
        ∃ t, exec (.bar2Access off n (some l)) s = .next t ∧
          t = { s with power := t.power, ddr := t.ddr, bus := { data := 0, err := false } } ∧
          ∀ a, t.ddr.get (fun _ => 0) a =
            if addr ≤ a ∧ a < addr + n then l.getD (a - addr) 0 else s.ddr.get (fun _ => 0) a)) ∧
    (∀ k o, s.flag Reg.BAR2_CTRL 24 = true → 2 ^ 22 ≤ size → k < 16 → 0 < n → o + n ≤ 2 ^ 18 →
      off = top + k * 2 ^ 18 + o → s.isolated (32 + k) = false → s.spadGate .hostMmio k = .reaches →
      s.spad.bad = [] → s.spad.soft = [] → s.spad.mem.wf (fun _ => 0) = true →
      exec (.bar2Access off n none) s = .next { s.touch (82 + k) with bus := {
        data := natOfBytes ((List.range n).map fun j => s.spad.mem.get (fun _ => 0) (k * 2 ^ 18 + o + j)), err := false } } ∧
      (∀ l : List Byte, l.length = n →
        ∃ t, exec (.bar2Access off n (some l)) s = .next t ∧
          t = { s.touch (82 + k) with spad := { s.spad with mem := t.spad.mem }, bus := { data := 0, err := false } } ∧
          ∀ a, t.spad.mem.get (fun _ => 0) a =
            if k * 2 ^ 18 + o ≤ a ∧ a < k * 2 ^ 18 + o + n then l.getD (a - (k * 2 ^ 18 + o)) 0
            else s.spad.mem.get (fun _ => 0) a))
end

