-- ==== Sys2Proof/Laws/Map.lean ====
section
/-!
SUPPORT. The laws of the sparse store: a read after a write, and the canonical form kept by every operation.
-/

namespace Sys2Proof.Map

variable {α : Type}

theorem get_insert_same (d : Nat → α) (m : Map α) (k : Nat) (v : α) : (insert m k v).get d k = v := by
  induction m with
  | nil => simp [insert, get]
  | cons e m ih => obtain ⟨j, w⟩ := e; unfold insert; split_ifs with h1 h2 <;> simp_all [get]

theorem get_insert_other (d : Nat → α) (m : Map α) (k j : Nat) (v : α) (h : j ≠ k) :
    (insert m k v).get d j = m.get d j := by
  induction m with
  | nil => simp [insert, get, h]
  | cons e m ih =>
    obtain ⟨i, w⟩ := e; unfold insert
    split_ifs with h1 h2
    · subst h1; simp [get, h]
    · simp [get, h]
    · simp [get, ih]

theorem get_filter (d : Nat → α) (m : Map α) (p : Nat → Bool) (k : Nat) :
    Map.get d (m.filter fun e => p e.1) k = if p k then m.get d k else d k := by
  induction m with
  | nil => simp [get]
  | cons e m ih =>
    obtain ⟨j, w⟩ := e
    by_cases hj : p j = true <;> by_cases hk : k = j <;> simp_all [get]

theorem get_erase_same (d : Nat → α) (m : Map α) (k : Nat) : (erase m k).get d k = d k := by
  have := get_filter d m (fun j => decide (j ≠ k)) k
  simpa [erase] using this

theorem get_erase_other (d : Nat → α) (m : Map α) (k j : Nat) (h : j ≠ k) : (erase m k).get d j = m.get d j := by
  have := get_filter d m (fun j => decide (j ≠ k)) j
  simpa [erase, h] using this

theorem get_range (d : Nat → α) (m : Map α) (lo hi k : Nat) :
    (range m lo hi).get d k = if lo ≤ k ∧ k < hi then m.get d k else d k := by
  have := get_filter d m (fun j => decide (lo ≤ j) && decide (j < hi)) k
  simpa [range] using this

theorem get_without (d : Nat → α) (m : Map α) (lo hi k : Nat) :
    (without m lo hi).get d k = if lo ≤ k ∧ k < hi then d k else m.get d k := by
  have := get_filter d m (fun j => !(decide (lo ≤ j) && decide (j < hi))) k
  rw [without, this]
  by_cases h1 : lo ≤ k <;> by_cases h2 : k < hi <;> simp [h1, h2]

variable [DecidableEq α]

/-- A read after a write to the same key gives the value written, whatever the list. -/
@[simp] theorem get_set_same (d : Nat → α) (m : Map α) (k : Nat) (v : α) : (set d m k v).get d k = v := by
  unfold set; split_ifs with h
  · rw [get_erase_same, h]
  · exact get_insert_same d m k v

/-- A write leaves every other key alone. -/
theorem get_set_other (d : Nat → α) (m : Map α) (k j : Nat) (v : α) (h : j ≠ k) : (set d m k v).get d j = m.get d j := by
  unfold set; split_ifs
  · exact get_erase_other d m k j h
  · exact get_insert_other d m k j v h

theorem get_set (d : Nat → α) (m : Map α) (k j : Nat) (v : α) :
    (set d m k v).get d j = if j = k then v else m.get d j := by
  split_ifs with h
  · subst h; simp
  · exact get_set_other d m k j v h

/-! ## The canonical form -/

/-- The canonical form as a rising list without default entries. -/
theorem wf_iff (d : Nat → α) (m : Map α) :
    m.wf d = true ↔ (m.Pairwise fun e f => e.1 < f.1) ∧ ∀ e ∈ m, e.2 ≠ d e.1 := by
  induction m with
  | nil => simp [wf]
  | cons e m ih =>
    obtain ⟨k, v⟩ := e
    cases m with
    | nil => simp [wf]
    | cons f m =>
      obtain ⟨j, w⟩ := f
      simp only [wf, Bool.and_eq_true, decide_eq_true_eq, ih, List.pairwise_cons, List.mem_cons]
      constructor
      · rintro ⟨⟨h1, h2⟩, ⟨h3, h4⟩, h5⟩
        refine ⟨⟨?_, h3, h4⟩, ?_⟩
        · rintro e (rfl | he)
          · exact h2
          · exact h2.trans (h3 e he)
        · rintro e (rfl | he)
          · exact h1
          · exact h5 e he
      · rintro ⟨⟨h1, h3, h4⟩, h5⟩
        exact ⟨⟨h5 _ (.inl rfl), h1 _ (.inl rfl)⟩, ⟨h3, h4⟩, fun e he => h5 e (.inr he)⟩

theorem wf_filter (d : Nat → α) (m : Map α) (p : Nat × α → Bool) (h : m.wf d = true) :
    Map.wf d (m.filter p) = true := by
  rw [wf_iff] at h ⊢
  exact ⟨h.1.filter p, fun e he => h.2 e (List.mem_filter.1 he).1⟩

theorem wf_erase (d : Nat → α) (m : Map α) (k : Nat) (h : m.wf d = true) : (erase m k).wf d = true := wf_filter d m _ h

theorem wf_range (d : Nat → α) (m : Map α) (lo hi : Nat) (h : m.wf d = true) : (range m lo hi).wf d = true :=
  wf_filter d m _ h

theorem wf_without (d : Nat → α) (m : Map α) (lo hi : Nat) (h : m.wf d = true) : (without m lo hi).wf d = true :=
  wf_filter d m _ h

omit [DecidableEq α] in
theorem mem_insert (m : Map α) (k : Nat) (v : α) (e : Nat × α) (h : e ∈ insert m k v) : e = (k, v) ∨ e ∈ m := by
  induction m with
  | nil => simpa [insert] using h
  | cons f m ih =>
    obtain ⟨j, w⟩ := f
    unfold insert at h
    split_ifs at h with h1 h2
    · rcases List.mem_cons.1 h with h | h <;> simp [h]
    · rcases List.mem_cons.1 h with h | h <;> simp_all
    · rcases List.mem_cons.1 h with h | h
      · simp [h]
      · rcases ih h with h | h <;> simp [h]

theorem wf_insert (d : Nat → α) (m : Map α) (k : Nat) (v : α) (hv : v ≠ d k) (h : m.wf d = true) :
    (insert m k v).wf d = true := by
  rw [wf_iff] at h ⊢
  induction m with
  | nil => simpa [insert] using hv
  | cons f m ih =>
    obtain ⟨j, w⟩ := f
    obtain ⟨h1, h2⟩ := h
    rw [List.pairwise_cons] at h1
    unfold insert
    split_ifs with e1 e2
    · subst e1
      refine ⟨List.pairwise_cons.2 ⟨h1.1, h1.2⟩, ?_⟩
      rintro e he
      rcases List.mem_cons.1 he with he | he
      · subst he; exact hv
      · exact h2 e (List.mem_cons_of_mem _ he)
    · refine ⟨List.pairwise_cons.2 ⟨?_, List.pairwise_cons.2 h1⟩, ?_⟩
      · rintro e he
        rcases List.mem_cons.1 he with he | he
        · subst he; exact e2
        · exact lt_trans e2 (h1.1 e he)
      · rintro e he
        rcases List.mem_cons.1 he with he | he
        · subst he; exact hv
        · exact h2 e he
    · have hr := ih ⟨h1.2, fun e he => h2 e (List.mem_cons_of_mem _ he)⟩
      refine ⟨List.pairwise_cons.2 ⟨?_, hr.1⟩, ?_⟩
      · intro e he
        rcases mem_insert m k v e he with rfl | he
        · show j < k; omega
        · exact h1.1 e he
      · intro e he
        rcases List.mem_cons.1 he with rfl | he
        · exact h2 _ List.mem_cons_self
        · exact hr.2 e he

/-- A write keeps the canonical form. -/
theorem wf_set (d : Nat → α) (m : Map α) (k : Nat) (v : α) (h : m.wf d = true) : (set d m k v).wf d = true := by
  unfold set; split_ifs with hv
  · exact wf_erase d m k h
  · exact wf_insert d m k v hv h

/-- So do the writes of a list. -/
theorem wf_setAll (d : Nat → α) (l : List (Nat × α)) (m : Map α) (h : m.wf d = true) : (setAll d m l).wf d = true := by
  unfold setAll
  induction l generalizing m with
  | nil => exact h
  | cons e l ih => exact ih _ (wf_set d m e.1 e.2 h)

end Sys2Proof.Map
end

