-- ==== Sys2Proof/Laws/State.lean ====
section
/-!
SUPPORT. What each update of the state leaves and sets, one lemma per field: no later proof unfolds a record update.
-/

namespace Sys2Proof.Machine

variable (s : State)

/-! ## wr -/

@[simp] theorem wr_pending (off v : Nat) : (s.wr off v).pending = s.pending := rfl
@[simp] theorem wr_fuses (off v : Nat) : (s.wr off v).fuses = s.fuses := rfl
@[simp] theorem wr_csr (off v : Nat) : (s.wr off v).csr = s.csr.set (regReset s.fuses) off (BitVec.ofNat 32 v) := rfl
@[simp] theorem wr_latchHi (off v : Nat) : (s.wr off v).latchHi = s.latchHi := rfl
@[simp] theorem wr_ddr (off v : Nat) : (s.wr off v).ddr = s.ddr := rfl
@[simp] theorem wr_bus (off v : Nat) : (s.wr off v).bus = s.bus := rfl
@[simp] theorem wr_tx (off v : Nat) : (s.wr off v).tx = s.tx := rfl
@[simp] theorem wr_faults (off v : Nat) : (s.wr off v).faults = s.faults := rfl
@[simp] theorem wr_rc (off v : Nat) : (s.wr off v).rc = s.rc := rfl
@[simp] theorem wr_clusters (off v : Nat) : (s.wr off v).clusters = s.clusters := rfl
@[simp] theorem wr_imem (off v : Nat) : (s.wr off v).imem = s.imem := rfl
@[simp] theorem wr_banks (off v : Nat) : (s.wr off v).banks = s.banks := rfl
@[simp] theorem wr_inbox (off v : Nat) : (s.wr off v).inbox = s.inbox := rfl
@[simp] theorem wr_held (off v : Nat) : (s.wr off v).held = s.held := rfl
@[simp] theorem wr_probes (off v : Nat) : (s.wr off v).probes = s.probes := rfl
@[simp] theorem wr_fabTrig (off v : Nat) : (s.wr off v).fabTrig = s.fabTrig := rfl
@[simp] theorem wr_dmb (off v : Nat) : (s.wr off v).dmb = s.dmb := rfl
@[simp] theorem wr_acc (off v : Nat) : (s.wr off v).acc = s.acc := rfl
@[simp] theorem wr_scrubPos (off v : Nat) : (s.wr off v).scrubPos = s.scrubPos := rfl
@[simp] theorem wr_stepped (off v : Nat) : (s.wr off v).stepped = s.stepped := rfl
@[simp] theorem wr_links (off v : Nat) : (s.wr off v).links = s.links := rfl
@[simp] theorem wr_lines (off v : Nat) : (s.wr off v).lines = s.lines := rfl
@[simp] theorem wr_net (off v : Nat) : (s.wr off v).net = s.net := rfl
@[simp] theorem wr_crypt (off v : Nat) : (s.wr off v).crypt = s.crypt := rfl
@[simp] theorem wr_spoor (off v : Nat) : (s.wr off v).spoor = s.spoor := rfl
@[simp] theorem wr_lynx (off v : Nat) : (s.wr off v).lynx = s.lynx := rfl
@[simp] theorem wr_ring (off v : Nat) : (s.wr off v).ring = s.ring := rfl
@[simp] theorem wr_spad (off v : Nat) : (s.wr off v).spad = s.spad := rfl
@[simp] theorem wr_acq (off v : Nat) : (s.wr off v).acq = s.acq := rfl
@[simp] theorem wr_time (off v : Nat) : (s.wr off v).time = s.time := rfl
@[simp] theorem wr_power (off v : Nat) : (s.wr off v).power = s.power := rfl
@[simp] theorem wr_badger (off v : Nat) : (s.wr off v).badger = s.badger := rfl
@[simp] theorem wr_ports (off v : Nat) : (s.wr off v).ports = s.ports := rfl
@[simp] theorem wr_tests (off v : Nat) : (s.wr off v).tests = s.tests := rfl
@[simp] theorem wr_shale (off v : Nat) : (s.wr off v).shale = s.shale := rfl
@[simp] theorem wr_dbg (off v : Nat) : (s.wr off v).dbg = s.dbg := rfl
@[simp] theorem wr_boot (off v : Nat) : (s.wr off v).boot = s.boot := rfl
@[simp] theorem wr_host (off v : Nat) : (s.wr off v).host = s.host := rfl
@[simp] theorem wr_freeCount (off v : Nat) : (s.wr off v).freeCount = s.freeCount := rfl

/-! ## setFld -/

@[simp] theorem setFld_pending (off l w v : Nat) : (s.setFld off l w v).pending = s.pending := rfl
@[simp] theorem setFld_fuses (off l w v : Nat) : (s.setFld off l w v).fuses = s.fuses := rfl
@[simp] theorem setFld_latchHi (off l w v : Nat) : (s.setFld off l w v).latchHi = s.latchHi := rfl
@[simp] theorem setFld_ddr (off l w v : Nat) : (s.setFld off l w v).ddr = s.ddr := rfl
@[simp] theorem setFld_bus (off l w v : Nat) : (s.setFld off l w v).bus = s.bus := rfl
@[simp] theorem setFld_tx (off l w v : Nat) : (s.setFld off l w v).tx = s.tx := rfl
@[simp] theorem setFld_faults (off l w v : Nat) : (s.setFld off l w v).faults = s.faults := rfl
@[simp] theorem setFld_rc (off l w v : Nat) : (s.setFld off l w v).rc = s.rc := rfl
@[simp] theorem setFld_clusters (off l w v : Nat) : (s.setFld off l w v).clusters = s.clusters := rfl
@[simp] theorem setFld_imem (off l w v : Nat) : (s.setFld off l w v).imem = s.imem := rfl
@[simp] theorem setFld_banks (off l w v : Nat) : (s.setFld off l w v).banks = s.banks := rfl
@[simp] theorem setFld_inbox (off l w v : Nat) : (s.setFld off l w v).inbox = s.inbox := rfl
@[simp] theorem setFld_held (off l w v : Nat) : (s.setFld off l w v).held = s.held := rfl
@[simp] theorem setFld_probes (off l w v : Nat) : (s.setFld off l w v).probes = s.probes := rfl
@[simp] theorem setFld_fabTrig (off l w v : Nat) : (s.setFld off l w v).fabTrig = s.fabTrig := rfl
@[simp] theorem setFld_dmb (off l w v : Nat) : (s.setFld off l w v).dmb = s.dmb := rfl
@[simp] theorem setFld_acc (off l w v : Nat) : (s.setFld off l w v).acc = s.acc := rfl
@[simp] theorem setFld_scrubPos (off l w v : Nat) : (s.setFld off l w v).scrubPos = s.scrubPos := rfl
@[simp] theorem setFld_stepped (off l w v : Nat) : (s.setFld off l w v).stepped = s.stepped := rfl
@[simp] theorem setFld_links (off l w v : Nat) : (s.setFld off l w v).links = s.links := rfl
@[simp] theorem setFld_lines (off l w v : Nat) : (s.setFld off l w v).lines = s.lines := rfl
@[simp] theorem setFld_net (off l w v : Nat) : (s.setFld off l w v).net = s.net := rfl
@[simp] theorem setFld_crypt (off l w v : Nat) : (s.setFld off l w v).crypt = s.crypt := rfl
@[simp] theorem setFld_spoor (off l w v : Nat) : (s.setFld off l w v).spoor = s.spoor := rfl
@[simp] theorem setFld_lynx (off l w v : Nat) : (s.setFld off l w v).lynx = s.lynx := rfl
@[simp] theorem setFld_ring (off l w v : Nat) : (s.setFld off l w v).ring = s.ring := rfl
@[simp] theorem setFld_spad (off l w v : Nat) : (s.setFld off l w v).spad = s.spad := rfl
@[simp] theorem setFld_acq (off l w v : Nat) : (s.setFld off l w v).acq = s.acq := rfl
@[simp] theorem setFld_time (off l w v : Nat) : (s.setFld off l w v).time = s.time := rfl
@[simp] theorem setFld_power (off l w v : Nat) : (s.setFld off l w v).power = s.power := rfl
@[simp] theorem setFld_badger (off l w v : Nat) : (s.setFld off l w v).badger = s.badger := rfl
@[simp] theorem setFld_ports (off l w v : Nat) : (s.setFld off l w v).ports = s.ports := rfl
@[simp] theorem setFld_tests (off l w v : Nat) : (s.setFld off l w v).tests = s.tests := rfl
@[simp] theorem setFld_shale (off l w v : Nat) : (s.setFld off l w v).shale = s.shale := rfl
@[simp] theorem setFld_dbg (off l w v : Nat) : (s.setFld off l w v).dbg = s.dbg := rfl
@[simp] theorem setFld_boot (off l w v : Nat) : (s.setFld off l w v).boot = s.boot := rfl
@[simp] theorem setFld_host (off l w v : Nat) : (s.setFld off l w v).host = s.host := rfl
@[simp] theorem setFld_freeCount (off l w v : Nat) : (s.setFld off l w v).freeCount = s.freeCount := rfl

/-! ## setFlag -/

@[simp] theorem setFlag_pending (off i : Nat) (b : Bool) : (s.setFlag off i b).pending = s.pending := rfl
@[simp] theorem setFlag_fuses (off i : Nat) (b : Bool) : (s.setFlag off i b).fuses = s.fuses := rfl
@[simp] theorem setFlag_latchHi (off i : Nat) (b : Bool) : (s.setFlag off i b).latchHi = s.latchHi := rfl
@[simp] theorem setFlag_ddr (off i : Nat) (b : Bool) : (s.setFlag off i b).ddr = s.ddr := rfl
@[simp] theorem setFlag_bus (off i : Nat) (b : Bool) : (s.setFlag off i b).bus = s.bus := rfl
@[simp] theorem setFlag_tx (off i : Nat) (b : Bool) : (s.setFlag off i b).tx = s.tx := rfl
@[simp] theorem setFlag_faults (off i : Nat) (b : Bool) : (s.setFlag off i b).faults = s.faults := rfl
@[simp] theorem setFlag_rc (off i : Nat) (b : Bool) : (s.setFlag off i b).rc = s.rc := rfl
@[simp] theorem setFlag_clusters (off i : Nat) (b : Bool) : (s.setFlag off i b).clusters = s.clusters := rfl
@[simp] theorem setFlag_imem (off i : Nat) (b : Bool) : (s.setFlag off i b).imem = s.imem := rfl
@[simp] theorem setFlag_banks (off i : Nat) (b : Bool) : (s.setFlag off i b).banks = s.banks := rfl
@[simp] theorem setFlag_inbox (off i : Nat) (b : Bool) : (s.setFlag off i b).inbox = s.inbox := rfl
@[simp] theorem setFlag_held (off i : Nat) (b : Bool) : (s.setFlag off i b).held = s.held := rfl
@[simp] theorem setFlag_probes (off i : Nat) (b : Bool) : (s.setFlag off i b).probes = s.probes := rfl
@[simp] theorem setFlag_fabTrig (off i : Nat) (b : Bool) : (s.setFlag off i b).fabTrig = s.fabTrig := rfl
@[simp] theorem setFlag_dmb (off i : Nat) (b : Bool) : (s.setFlag off i b).dmb = s.dmb := rfl
@[simp] theorem setFlag_acc (off i : Nat) (b : Bool) : (s.setFlag off i b).acc = s.acc := rfl
@[simp] theorem setFlag_scrubPos (off i : Nat) (b : Bool) : (s.setFlag off i b).scrubPos = s.scrubPos := rfl
@[simp] theorem setFlag_stepped (off i : Nat) (b : Bool) : (s.setFlag off i b).stepped = s.stepped := rfl
@[simp] theorem setFlag_links (off i : Nat) (b : Bool) : (s.setFlag off i b).links = s.links := rfl
@[simp] theorem setFlag_lines (off i : Nat) (b : Bool) : (s.setFlag off i b).lines = s.lines := rfl
@[simp] theorem setFlag_net (off i : Nat) (b : Bool) : (s.setFlag off i b).net = s.net := rfl
@[simp] theorem setFlag_crypt (off i : Nat) (b : Bool) : (s.setFlag off i b).crypt = s.crypt := rfl
@[simp] theorem setFlag_spoor (off i : Nat) (b : Bool) : (s.setFlag off i b).spoor = s.spoor := rfl
@[simp] theorem setFlag_lynx (off i : Nat) (b : Bool) : (s.setFlag off i b).lynx = s.lynx := rfl
@[simp] theorem setFlag_ring (off i : Nat) (b : Bool) : (s.setFlag off i b).ring = s.ring := rfl
@[simp] theorem setFlag_spad (off i : Nat) (b : Bool) : (s.setFlag off i b).spad = s.spad := rfl
@[simp] theorem setFlag_acq (off i : Nat) (b : Bool) : (s.setFlag off i b).acq = s.acq := rfl
@[simp] theorem setFlag_time (off i : Nat) (b : Bool) : (s.setFlag off i b).time = s.time := rfl
@[simp] theorem setFlag_power (off i : Nat) (b : Bool) : (s.setFlag off i b).power = s.power := rfl
@[simp] theorem setFlag_badger (off i : Nat) (b : Bool) : (s.setFlag off i b).badger = s.badger := rfl
@[simp] theorem setFlag_ports (off i : Nat) (b : Bool) : (s.setFlag off i b).ports = s.ports := rfl
@[simp] theorem setFlag_tests (off i : Nat) (b : Bool) : (s.setFlag off i b).tests = s.tests := rfl
@[simp] theorem setFlag_shale (off i : Nat) (b : Bool) : (s.setFlag off i b).shale = s.shale := rfl
@[simp] theorem setFlag_dbg (off i : Nat) (b : Bool) : (s.setFlag off i b).dbg = s.dbg := rfl
@[simp] theorem setFlag_boot (off i : Nat) (b : Bool) : (s.setFlag off i b).boot = s.boot := rfl
@[simp] theorem setFlag_host (off i : Nat) (b : Bool) : (s.setFlag off i b).host = s.host := rfl
@[simp] theorem setFlag_freeCount (off i : Nat) (b : Bool) : (s.setFlag off i b).freeCount = s.freeCount := rfl

/-! ## count -/

@[simp] theorem count_pending (off l w k : Nat) : (s.count off l w k).pending = s.pending := rfl
@[simp] theorem count_fuses (off l w k : Nat) : (s.count off l w k).fuses = s.fuses := rfl
@[simp] theorem count_latchHi (off l w k : Nat) : (s.count off l w k).latchHi = s.latchHi := rfl
@[simp] theorem count_ddr (off l w k : Nat) : (s.count off l w k).ddr = s.ddr := rfl
@[simp] theorem count_bus (off l w k : Nat) : (s.count off l w k).bus = s.bus := rfl
@[simp] theorem count_tx (off l w k : Nat) : (s.count off l w k).tx = s.tx := rfl
@[simp] theorem count_faults (off l w k : Nat) : (s.count off l w k).faults = s.faults := rfl
@[simp] theorem count_rc (off l w k : Nat) : (s.count off l w k).rc = s.rc := rfl
@[simp] theorem count_clusters (off l w k : Nat) : (s.count off l w k).clusters = s.clusters := rfl
@[simp] theorem count_imem (off l w k : Nat) : (s.count off l w k).imem = s.imem := rfl
@[simp] theorem count_banks (off l w k : Nat) : (s.count off l w k).banks = s.banks := rfl
@[simp] theorem count_inbox (off l w k : Nat) : (s.count off l w k).inbox = s.inbox := rfl
@[simp] theorem count_held (off l w k : Nat) : (s.count off l w k).held = s.held := rfl
@[simp] theorem count_probes (off l w k : Nat) : (s.count off l w k).probes = s.probes := rfl
@[simp] theorem count_fabTrig (off l w k : Nat) : (s.count off l w k).fabTrig = s.fabTrig := rfl
@[simp] theorem count_dmb (off l w k : Nat) : (s.count off l w k).dmb = s.dmb := rfl
@[simp] theorem count_acc (off l w k : Nat) : (s.count off l w k).acc = s.acc := rfl
@[simp] theorem count_scrubPos (off l w k : Nat) : (s.count off l w k).scrubPos = s.scrubPos := rfl
@[simp] theorem count_stepped (off l w k : Nat) : (s.count off l w k).stepped = s.stepped := rfl
@[simp] theorem count_links (off l w k : Nat) : (s.count off l w k).links = s.links := rfl
@[simp] theorem count_lines (off l w k : Nat) : (s.count off l w k).lines = s.lines := rfl
@[simp] theorem count_net (off l w k : Nat) : (s.count off l w k).net = s.net := rfl
@[simp] theorem count_crypt (off l w k : Nat) : (s.count off l w k).crypt = s.crypt := rfl
@[simp] theorem count_spoor (off l w k : Nat) : (s.count off l w k).spoor = s.spoor := rfl
@[simp] theorem count_lynx (off l w k : Nat) : (s.count off l w k).lynx = s.lynx := rfl
@[simp] theorem count_ring (off l w k : Nat) : (s.count off l w k).ring = s.ring := rfl
@[simp] theorem count_spad (off l w k : Nat) : (s.count off l w k).spad = s.spad := rfl
@[simp] theorem count_acq (off l w k : Nat) : (s.count off l w k).acq = s.acq := rfl
@[simp] theorem count_time (off l w k : Nat) : (s.count off l w k).time = s.time := rfl
@[simp] theorem count_power (off l w k : Nat) : (s.count off l w k).power = s.power := rfl
@[simp] theorem count_badger (off l w k : Nat) : (s.count off l w k).badger = s.badger := rfl
@[simp] theorem count_ports (off l w k : Nat) : (s.count off l w k).ports = s.ports := rfl
@[simp] theorem count_tests (off l w k : Nat) : (s.count off l w k).tests = s.tests := rfl
@[simp] theorem count_shale (off l w k : Nat) : (s.count off l w k).shale = s.shale := rfl
@[simp] theorem count_dbg (off l w k : Nat) : (s.count off l w k).dbg = s.dbg := rfl
@[simp] theorem count_boot (off l w k : Nat) : (s.count off l w k).boot = s.boot := rfl
@[simp] theorem count_host (off l w k : Nat) : (s.count off l w k).host = s.host := rfl
@[simp] theorem count_freeCount (off l w k : Nat) : (s.count off l w k).freeCount = s.freeCount := rfl

/-! ## wr64 -/

@[simp] theorem wr64_pending (off v : Nat) : (s.wr64 off v).pending = s.pending := rfl
@[simp] theorem wr64_fuses (off v : Nat) : (s.wr64 off v).fuses = s.fuses := rfl
@[simp] theorem wr64_latchHi (off v : Nat) : (s.wr64 off v).latchHi = s.latchHi := rfl
@[simp] theorem wr64_ddr (off v : Nat) : (s.wr64 off v).ddr = s.ddr := rfl
@[simp] theorem wr64_bus (off v : Nat) : (s.wr64 off v).bus = s.bus := rfl
@[simp] theorem wr64_tx (off v : Nat) : (s.wr64 off v).tx = s.tx := rfl
@[simp] theorem wr64_faults (off v : Nat) : (s.wr64 off v).faults = s.faults := rfl
@[simp] theorem wr64_rc (off v : Nat) : (s.wr64 off v).rc = s.rc := rfl
@[simp] theorem wr64_clusters (off v : Nat) : (s.wr64 off v).clusters = s.clusters := rfl
@[simp] theorem wr64_imem (off v : Nat) : (s.wr64 off v).imem = s.imem := rfl
@[simp] theorem wr64_banks (off v : Nat) : (s.wr64 off v).banks = s.banks := rfl
@[simp] theorem wr64_inbox (off v : Nat) : (s.wr64 off v).inbox = s.inbox := rfl
@[simp] theorem wr64_held (off v : Nat) : (s.wr64 off v).held = s.held := rfl
@[simp] theorem wr64_probes (off v : Nat) : (s.wr64 off v).probes = s.probes := rfl
@[simp] theorem wr64_fabTrig (off v : Nat) : (s.wr64 off v).fabTrig = s.fabTrig := rfl
@[simp] theorem wr64_dmb (off v : Nat) : (s.wr64 off v).dmb = s.dmb := rfl
@[simp] theorem wr64_acc (off v : Nat) : (s.wr64 off v).acc = s.acc := rfl
@[simp] theorem wr64_scrubPos (off v : Nat) : (s.wr64 off v).scrubPos = s.scrubPos := rfl
@[simp] theorem wr64_stepped (off v : Nat) : (s.wr64 off v).stepped = s.stepped := rfl
@[simp] theorem wr64_links (off v : Nat) : (s.wr64 off v).links = s.links := rfl
@[simp] theorem wr64_lines (off v : Nat) : (s.wr64 off v).lines = s.lines := rfl
@[simp] theorem wr64_net (off v : Nat) : (s.wr64 off v).net = s.net := rfl
@[simp] theorem wr64_crypt (off v : Nat) : (s.wr64 off v).crypt = s.crypt := rfl
@[simp] theorem wr64_spoor (off v : Nat) : (s.wr64 off v).spoor = s.spoor := rfl
@[simp] theorem wr64_lynx (off v : Nat) : (s.wr64 off v).lynx = s.lynx := rfl
@[simp] theorem wr64_ring (off v : Nat) : (s.wr64 off v).ring = s.ring := rfl
@[simp] theorem wr64_spad (off v : Nat) : (s.wr64 off v).spad = s.spad := rfl
@[simp] theorem wr64_acq (off v : Nat) : (s.wr64 off v).acq = s.acq := rfl
@[simp] theorem wr64_time (off v : Nat) : (s.wr64 off v).time = s.time := rfl
@[simp] theorem wr64_power (off v : Nat) : (s.wr64 off v).power = s.power := rfl
@[simp] theorem wr64_badger (off v : Nat) : (s.wr64 off v).badger = s.badger := rfl
@[simp] theorem wr64_ports (off v : Nat) : (s.wr64 off v).ports = s.ports := rfl
@[simp] theorem wr64_tests (off v : Nat) : (s.wr64 off v).tests = s.tests := rfl
@[simp] theorem wr64_shale (off v : Nat) : (s.wr64 off v).shale = s.shale := rfl
@[simp] theorem wr64_dbg (off v : Nat) : (s.wr64 off v).dbg = s.dbg := rfl
@[simp] theorem wr64_boot (off v : Nat) : (s.wr64 off v).boot = s.boot := rfl
@[simp] theorem wr64_host (off v : Nat) : (s.wr64 off v).host = s.host := rfl
@[simp] theorem wr64_freeCount (off v : Nat) : (s.wr64 off v).freeCount = s.freeCount := rfl

/-! ## setCl -/

@[simp] theorem setCl_pending (c : Nat) (v : Cluster) : (s.setCl c v).pending = s.pending := rfl
@[simp] theorem setCl_fuses (c : Nat) (v : Cluster) : (s.setCl c v).fuses = s.fuses := rfl
@[simp] theorem setCl_csr (c : Nat) (v : Cluster) : (s.setCl c v).csr = s.csr := rfl
@[simp] theorem setCl_latchHi (c : Nat) (v : Cluster) : (s.setCl c v).latchHi = s.latchHi := rfl
@[simp] theorem setCl_ddr (c : Nat) (v : Cluster) : (s.setCl c v).ddr = s.ddr := rfl
@[simp] theorem setCl_bus (c : Nat) (v : Cluster) : (s.setCl c v).bus = s.bus := rfl
@[simp] theorem setCl_tx (c : Nat) (v : Cluster) : (s.setCl c v).tx = s.tx := rfl
@[simp] theorem setCl_faults (c : Nat) (v : Cluster) : (s.setCl c v).faults = s.faults := rfl
@[simp] theorem setCl_rc (c : Nat) (v : Cluster) : (s.setCl c v).rc = s.rc := rfl
@[simp] theorem setCl_clusters (c : Nat) (v : Cluster) : (s.setCl c v).clusters = s.clusters.set (fun _ => {}) c v := rfl
@[simp] theorem setCl_imem (c : Nat) (v : Cluster) : (s.setCl c v).imem = s.imem := rfl
@[simp] theorem setCl_banks (c : Nat) (v : Cluster) : (s.setCl c v).banks = s.banks := rfl
@[simp] theorem setCl_inbox (c : Nat) (v : Cluster) : (s.setCl c v).inbox = s.inbox := rfl
@[simp] theorem setCl_held (c : Nat) (v : Cluster) : (s.setCl c v).held = s.held := rfl
@[simp] theorem setCl_probes (c : Nat) (v : Cluster) : (s.setCl c v).probes = s.probes := rfl
@[simp] theorem setCl_fabTrig (c : Nat) (v : Cluster) : (s.setCl c v).fabTrig = s.fabTrig := rfl
@[simp] theorem setCl_dmb (c : Nat) (v : Cluster) : (s.setCl c v).dmb = s.dmb := rfl
@[simp] theorem setCl_acc (c : Nat) (v : Cluster) : (s.setCl c v).acc = s.acc := rfl
@[simp] theorem setCl_scrubPos (c : Nat) (v : Cluster) : (s.setCl c v).scrubPos = s.scrubPos := rfl
@[simp] theorem setCl_stepped (c : Nat) (v : Cluster) : (s.setCl c v).stepped = s.stepped := rfl
@[simp] theorem setCl_links (c : Nat) (v : Cluster) : (s.setCl c v).links = s.links := rfl
@[simp] theorem setCl_lines (c : Nat) (v : Cluster) : (s.setCl c v).lines = s.lines := rfl
@[simp] theorem setCl_net (c : Nat) (v : Cluster) : (s.setCl c v).net = s.net := rfl
@[simp] theorem setCl_crypt (c : Nat) (v : Cluster) : (s.setCl c v).crypt = s.crypt := rfl
@[simp] theorem setCl_spoor (c : Nat) (v : Cluster) : (s.setCl c v).spoor = s.spoor := rfl
@[simp] theorem setCl_lynx (c : Nat) (v : Cluster) : (s.setCl c v).lynx = s.lynx := rfl
@[simp] theorem setCl_ring (c : Nat) (v : Cluster) : (s.setCl c v).ring = s.ring := rfl
@[simp] theorem setCl_spad (c : Nat) (v : Cluster) : (s.setCl c v).spad = s.spad := rfl
@[simp] theorem setCl_acq (c : Nat) (v : Cluster) : (s.setCl c v).acq = s.acq := rfl
@[simp] theorem setCl_time (c : Nat) (v : Cluster) : (s.setCl c v).time = s.time := rfl
@[simp] theorem setCl_power (c : Nat) (v : Cluster) : (s.setCl c v).power = s.power := rfl
@[simp] theorem setCl_badger (c : Nat) (v : Cluster) : (s.setCl c v).badger = s.badger := rfl
@[simp] theorem setCl_ports (c : Nat) (v : Cluster) : (s.setCl c v).ports = s.ports := rfl
@[simp] theorem setCl_tests (c : Nat) (v : Cluster) : (s.setCl c v).tests = s.tests := rfl
@[simp] theorem setCl_shale (c : Nat) (v : Cluster) : (s.setCl c v).shale = s.shale := rfl
@[simp] theorem setCl_dbg (c : Nat) (v : Cluster) : (s.setCl c v).dbg = s.dbg := rfl
@[simp] theorem setCl_boot (c : Nat) (v : Cluster) : (s.setCl c v).boot = s.boot := rfl
@[simp] theorem setCl_host (c : Nat) (v : Cluster) : (s.setCl c v).host = s.host := rfl
@[simp] theorem setCl_freeCount (c : Nat) (v : Cluster) : (s.setCl c v).freeCount = s.freeCount := rfl

/-! ## modCl -/

@[simp] theorem modCl_pending (c : Nat) (f : Cluster → Cluster) : (s.modCl c f).pending = s.pending := rfl
@[simp] theorem modCl_fuses (c : Nat) (f : Cluster → Cluster) : (s.modCl c f).fuses = s.fuses := rfl
@[simp] theorem modCl_csr (c : Nat) (f : Cluster → Cluster) : (s.modCl c f).csr = s.csr := rfl
@[simp] theorem modCl_latchHi (c : Nat) (f : Cluster → Cluster) : (s.modCl c f).latchHi = s.latchHi := rfl
@[simp] theorem modCl_ddr (c : Nat) (f : Cluster → Cluster) : (s.modCl c f).ddr = s.ddr := rfl
@[simp] theorem modCl_bus (c : Nat) (f : Cluster → Cluster) : (s.modCl c f).bus = s.bus := rfl
@[simp] theorem modCl_tx (c : Nat) (f : Cluster → Cluster) : (s.modCl c f).tx = s.tx := rfl
@[simp] theorem modCl_faults (c : Nat) (f : Cluster → Cluster) : (s.modCl c f).faults = s.faults := rfl
@[simp] theorem modCl_rc (c : Nat) (f : Cluster → Cluster) : (s.modCl c f).rc = s.rc := rfl
@[simp] theorem modCl_clusters (c : Nat) (f : Cluster → Cluster) : (s.modCl c f).clusters = s.clusters.set (fun _ => {}) c (f (s.cl c)) := rfl
@[simp] theorem modCl_imem (c : Nat) (f : Cluster → Cluster) : (s.modCl c f).imem = s.imem := rfl
@[simp] theorem modCl_banks (c : Nat) (f : Cluster → Cluster) : (s.modCl c f).banks = s.banks := rfl
@[simp] theorem modCl_inbox (c : Nat) (f : Cluster → Cluster) : (s.modCl c f).inbox = s.inbox := rfl
@[simp] theorem modCl_held (c : Nat) (f : Cluster → Cluster) : (s.modCl c f).held = s.held := rfl
@[simp] theorem modCl_probes (c : Nat) (f : Cluster → Cluster) : (s.modCl c f).probes = s.probes := rfl
@[simp] theorem modCl_fabTrig (c : Nat) (f : Cluster → Cluster) : (s.modCl c f).fabTrig = s.fabTrig := rfl
@[simp] theorem modCl_dmb (c : Nat) (f : Cluster → Cluster) : (s.modCl c f).dmb = s.dmb := rfl
@[simp] theorem modCl_acc (c : Nat) (f : Cluster → Cluster) : (s.modCl c f).acc = s.acc := rfl
@[simp] theorem modCl_scrubPos (c : Nat) (f : Cluster → Cluster) : (s.modCl c f).scrubPos = s.scrubPos := rfl
@[simp] theorem modCl_stepped (c : Nat) (f : Cluster → Cluster) : (s.modCl c f).stepped = s.stepped := rfl
@[simp] theorem modCl_links (c : Nat) (f : Cluster → Cluster) : (s.modCl c f).links = s.links := rfl
@[simp] theorem modCl_lines (c : Nat) (f : Cluster → Cluster) : (s.modCl c f).lines = s.lines := rfl
@[simp] theorem modCl_net (c : Nat) (f : Cluster → Cluster) : (s.modCl c f).net = s.net := rfl
@[simp] theorem modCl_crypt (c : Nat) (f : Cluster → Cluster) : (s.modCl c f).crypt = s.crypt := rfl
@[simp] theorem modCl_spoor (c : Nat) (f : Cluster → Cluster) : (s.modCl c f).spoor = s.spoor := rfl
@[simp] theorem modCl_lynx (c : Nat) (f : Cluster → Cluster) : (s.modCl c f).lynx = s.lynx := rfl
@[simp] theorem modCl_ring (c : Nat) (f : Cluster → Cluster) : (s.modCl c f).ring = s.ring := rfl
@[simp] theorem modCl_spad (c : Nat) (f : Cluster → Cluster) : (s.modCl c f).spad = s.spad := rfl
@[simp] theorem modCl_acq (c : Nat) (f : Cluster → Cluster) : (s.modCl c f).acq = s.acq := rfl
@[simp] theorem modCl_time (c : Nat) (f : Cluster → Cluster) : (s.modCl c f).time = s.time := rfl
@[simp] theorem modCl_power (c : Nat) (f : Cluster → Cluster) : (s.modCl c f).power = s.power := rfl
@[simp] theorem modCl_badger (c : Nat) (f : Cluster → Cluster) : (s.modCl c f).badger = s.badger := rfl
@[simp] theorem modCl_ports (c : Nat) (f : Cluster → Cluster) : (s.modCl c f).ports = s.ports := rfl
@[simp] theorem modCl_tests (c : Nat) (f : Cluster → Cluster) : (s.modCl c f).tests = s.tests := rfl
@[simp] theorem modCl_shale (c : Nat) (f : Cluster → Cluster) : (s.modCl c f).shale = s.shale := rfl
@[simp] theorem modCl_dbg (c : Nat) (f : Cluster → Cluster) : (s.modCl c f).dbg = s.dbg := rfl
@[simp] theorem modCl_boot (c : Nat) (f : Cluster → Cluster) : (s.modCl c f).boot = s.boot := rfl
@[simp] theorem modCl_host (c : Nat) (f : Cluster → Cluster) : (s.modCl c f).host = s.host := rfl
@[simp] theorem modCl_freeCount (c : Nat) (f : Cluster → Cluster) : (s.modCl c f).freeCount = s.freeCount := rfl

/-! ## setLink -/

@[simp] theorem setLink_pending (p : Nat) (v : Link) : (s.setLink p v).pending = s.pending := rfl
@[simp] theorem setLink_fuses (p : Nat) (v : Link) : (s.setLink p v).fuses = s.fuses := rfl
@[simp] theorem setLink_csr (p : Nat) (v : Link) : (s.setLink p v).csr = s.csr := rfl
@[simp] theorem setLink_latchHi (p : Nat) (v : Link) : (s.setLink p v).latchHi = s.latchHi := rfl
@[simp] theorem setLink_ddr (p : Nat) (v : Link) : (s.setLink p v).ddr = s.ddr := rfl
@[simp] theorem setLink_bus (p : Nat) (v : Link) : (s.setLink p v).bus = s.bus := rfl
@[simp] theorem setLink_tx (p : Nat) (v : Link) : (s.setLink p v).tx = s.tx := rfl
@[simp] theorem setLink_faults (p : Nat) (v : Link) : (s.setLink p v).faults = s.faults := rfl
@[simp] theorem setLink_rc (p : Nat) (v : Link) : (s.setLink p v).rc = s.rc := rfl
@[simp] theorem setLink_clusters (p : Nat) (v : Link) : (s.setLink p v).clusters = s.clusters := rfl
@[simp] theorem setLink_imem (p : Nat) (v : Link) : (s.setLink p v).imem = s.imem := rfl
@[simp] theorem setLink_banks (p : Nat) (v : Link) : (s.setLink p v).banks = s.banks := rfl
@[simp] theorem setLink_inbox (p : Nat) (v : Link) : (s.setLink p v).inbox = s.inbox := rfl
@[simp] theorem setLink_held (p : Nat) (v : Link) : (s.setLink p v).held = s.held := rfl
@[simp] theorem setLink_probes (p : Nat) (v : Link) : (s.setLink p v).probes = s.probes := rfl
@[simp] theorem setLink_fabTrig (p : Nat) (v : Link) : (s.setLink p v).fabTrig = s.fabTrig := rfl
@[simp] theorem setLink_dmb (p : Nat) (v : Link) : (s.setLink p v).dmb = s.dmb := rfl
@[simp] theorem setLink_acc (p : Nat) (v : Link) : (s.setLink p v).acc = s.acc := rfl
@[simp] theorem setLink_scrubPos (p : Nat) (v : Link) : (s.setLink p v).scrubPos = s.scrubPos := rfl
@[simp] theorem setLink_stepped (p : Nat) (v : Link) : (s.setLink p v).stepped = s.stepped := rfl
@[simp] theorem setLink_links (p : Nat) (v : Link) : (s.setLink p v).links = s.links.set (fun _ => {}) p v := rfl
@[simp] theorem setLink_lines (p : Nat) (v : Link) : (s.setLink p v).lines = s.lines := rfl
@[simp] theorem setLink_net (p : Nat) (v : Link) : (s.setLink p v).net = s.net := rfl
@[simp] theorem setLink_crypt (p : Nat) (v : Link) : (s.setLink p v).crypt = s.crypt := rfl
@[simp] theorem setLink_spoor (p : Nat) (v : Link) : (s.setLink p v).spoor = s.spoor := rfl
@[simp] theorem setLink_lynx (p : Nat) (v : Link) : (s.setLink p v).lynx = s.lynx := rfl
@[simp] theorem setLink_ring (p : Nat) (v : Link) : (s.setLink p v).ring = s.ring := rfl
@[simp] theorem setLink_spad (p : Nat) (v : Link) : (s.setLink p v).spad = s.spad := rfl
@[simp] theorem setLink_acq (p : Nat) (v : Link) : (s.setLink p v).acq = s.acq := rfl
@[simp] theorem setLink_time (p : Nat) (v : Link) : (s.setLink p v).time = s.time := rfl
@[simp] theorem setLink_power (p : Nat) (v : Link) : (s.setLink p v).power = s.power := rfl
@[simp] theorem setLink_badger (p : Nat) (v : Link) : (s.setLink p v).badger = s.badger := rfl
@[simp] theorem setLink_ports (p : Nat) (v : Link) : (s.setLink p v).ports = s.ports := rfl
@[simp] theorem setLink_tests (p : Nat) (v : Link) : (s.setLink p v).tests = s.tests := rfl
@[simp] theorem setLink_shale (p : Nat) (v : Link) : (s.setLink p v).shale = s.shale := rfl
@[simp] theorem setLink_dbg (p : Nat) (v : Link) : (s.setLink p v).dbg = s.dbg := rfl
@[simp] theorem setLink_boot (p : Nat) (v : Link) : (s.setLink p v).boot = s.boot := rfl
@[simp] theorem setLink_host (p : Nat) (v : Link) : (s.setLink p v).host = s.host := rfl
@[simp] theorem setLink_freeCount (p : Nat) (v : Link) : (s.setLink p v).freeCount = s.freeCount := rfl

/-! ## modLink -/

@[simp] theorem modLink_pending (p : Nat) (f : Link → Link) : (s.modLink p f).pending = s.pending := rfl
@[simp] theorem modLink_fuses (p : Nat) (f : Link → Link) : (s.modLink p f).fuses = s.fuses := rfl
@[simp] theorem modLink_csr (p : Nat) (f : Link → Link) : (s.modLink p f).csr = s.csr := rfl
@[simp] theorem modLink_latchHi (p : Nat) (f : Link → Link) : (s.modLink p f).latchHi = s.latchHi := rfl
@[simp] theorem modLink_ddr (p : Nat) (f : Link → Link) : (s.modLink p f).ddr = s.ddr := rfl
@[simp] theorem modLink_bus (p : Nat) (f : Link → Link) : (s.modLink p f).bus = s.bus := rfl
@[simp] theorem modLink_tx (p : Nat) (f : Link → Link) : (s.modLink p f).tx = s.tx := rfl
@[simp] theorem modLink_faults (p : Nat) (f : Link → Link) : (s.modLink p f).faults = s.faults := rfl
@[simp] theorem modLink_rc (p : Nat) (f : Link → Link) : (s.modLink p f).rc = s.rc := rfl
@[simp] theorem modLink_clusters (p : Nat) (f : Link → Link) : (s.modLink p f).clusters = s.clusters := rfl
@[simp] theorem modLink_imem (p : Nat) (f : Link → Link) : (s.modLink p f).imem = s.imem := rfl
@[simp] theorem modLink_banks (p : Nat) (f : Link → Link) : (s.modLink p f).banks = s.banks := rfl
@[simp] theorem modLink_inbox (p : Nat) (f : Link → Link) : (s.modLink p f).inbox = s.inbox := rfl
@[simp] theorem modLink_held (p : Nat) (f : Link → Link) : (s.modLink p f).held = s.held := rfl
@[simp] theorem modLink_probes (p : Nat) (f : Link → Link) : (s.modLink p f).probes = s.probes := rfl
@[simp] theorem modLink_fabTrig (p : Nat) (f : Link → Link) : (s.modLink p f).fabTrig = s.fabTrig := rfl
@[simp] theorem modLink_dmb (p : Nat) (f : Link → Link) : (s.modLink p f).dmb = s.dmb := rfl
@[simp] theorem modLink_acc (p : Nat) (f : Link → Link) : (s.modLink p f).acc = s.acc := rfl
@[simp] theorem modLink_scrubPos (p : Nat) (f : Link → Link) : (s.modLink p f).scrubPos = s.scrubPos := rfl
@[simp] theorem modLink_stepped (p : Nat) (f : Link → Link) : (s.modLink p f).stepped = s.stepped := rfl
@[simp] theorem modLink_links (p : Nat) (f : Link → Link) : (s.modLink p f).links = s.links.set (fun _ => {}) p (f (s.link p)) := rfl
@[simp] theorem modLink_lines (p : Nat) (f : Link → Link) : (s.modLink p f).lines = s.lines := rfl
@[simp] theorem modLink_net (p : Nat) (f : Link → Link) : (s.modLink p f).net = s.net := rfl
@[simp] theorem modLink_crypt (p : Nat) (f : Link → Link) : (s.modLink p f).crypt = s.crypt := rfl
@[simp] theorem modLink_spoor (p : Nat) (f : Link → Link) : (s.modLink p f).spoor = s.spoor := rfl
@[simp] theorem modLink_lynx (p : Nat) (f : Link → Link) : (s.modLink p f).lynx = s.lynx := rfl
@[simp] theorem modLink_ring (p : Nat) (f : Link → Link) : (s.modLink p f).ring = s.ring := rfl
@[simp] theorem modLink_spad (p : Nat) (f : Link → Link) : (s.modLink p f).spad = s.spad := rfl
@[simp] theorem modLink_acq (p : Nat) (f : Link → Link) : (s.modLink p f).acq = s.acq := rfl
@[simp] theorem modLink_time (p : Nat) (f : Link → Link) : (s.modLink p f).time = s.time := rfl
@[simp] theorem modLink_power (p : Nat) (f : Link → Link) : (s.modLink p f).power = s.power := rfl
@[simp] theorem modLink_badger (p : Nat) (f : Link → Link) : (s.modLink p f).badger = s.badger := rfl
@[simp] theorem modLink_ports (p : Nat) (f : Link → Link) : (s.modLink p f).ports = s.ports := rfl
@[simp] theorem modLink_tests (p : Nat) (f : Link → Link) : (s.modLink p f).tests = s.tests := rfl
@[simp] theorem modLink_shale (p : Nat) (f : Link → Link) : (s.modLink p f).shale = s.shale := rfl
@[simp] theorem modLink_dbg (p : Nat) (f : Link → Link) : (s.modLink p f).dbg = s.dbg := rfl
@[simp] theorem modLink_boot (p : Nat) (f : Link → Link) : (s.modLink p f).boot = s.boot := rfl
@[simp] theorem modLink_host (p : Nat) (f : Link → Link) : (s.modLink p f).host = s.host := rfl
@[simp] theorem modLink_freeCount (p : Nat) (f : Link → Link) : (s.modLink p f).freeCount = s.freeCount := rfl

/-! ## modRc -/

@[simp] theorem modRc_pending (f : RunCtl → RunCtl) : (s.modRc f).pending = s.pending := rfl
@[simp] theorem modRc_fuses (f : RunCtl → RunCtl) : (s.modRc f).fuses = s.fuses := rfl
@[simp] theorem modRc_csr (f : RunCtl → RunCtl) : (s.modRc f).csr = s.csr := rfl
@[simp] theorem modRc_latchHi (f : RunCtl → RunCtl) : (s.modRc f).latchHi = s.latchHi := rfl
@[simp] theorem modRc_ddr (f : RunCtl → RunCtl) : (s.modRc f).ddr = s.ddr := rfl
@[simp] theorem modRc_bus (f : RunCtl → RunCtl) : (s.modRc f).bus = s.bus := rfl
@[simp] theorem modRc_tx (f : RunCtl → RunCtl) : (s.modRc f).tx = s.tx := rfl
@[simp] theorem modRc_faults (f : RunCtl → RunCtl) : (s.modRc f).faults = s.faults := rfl
@[simp] theorem modRc_rc (f : RunCtl → RunCtl) : (s.modRc f).rc = f s.rc := rfl
@[simp] theorem modRc_clusters (f : RunCtl → RunCtl) : (s.modRc f).clusters = s.clusters := rfl
@[simp] theorem modRc_imem (f : RunCtl → RunCtl) : (s.modRc f).imem = s.imem := rfl
@[simp] theorem modRc_banks (f : RunCtl → RunCtl) : (s.modRc f).banks = s.banks := rfl
@[simp] theorem modRc_inbox (f : RunCtl → RunCtl) : (s.modRc f).inbox = s.inbox := rfl
@[simp] theorem modRc_held (f : RunCtl → RunCtl) : (s.modRc f).held = s.held := rfl
@[simp] theorem modRc_probes (f : RunCtl → RunCtl) : (s.modRc f).probes = s.probes := rfl
@[simp] theorem modRc_fabTrig (f : RunCtl → RunCtl) : (s.modRc f).fabTrig = s.fabTrig := rfl
@[simp] theorem modRc_dmb (f : RunCtl → RunCtl) : (s.modRc f).dmb = s.dmb := rfl
@[simp] theorem modRc_acc (f : RunCtl → RunCtl) : (s.modRc f).acc = s.acc := rfl
@[simp] theorem modRc_scrubPos (f : RunCtl → RunCtl) : (s.modRc f).scrubPos = s.scrubPos := rfl
@[simp] theorem modRc_stepped (f : RunCtl → RunCtl) : (s.modRc f).stepped = s.stepped := rfl
@[simp] theorem modRc_links (f : RunCtl → RunCtl) : (s.modRc f).links = s.links := rfl
@[simp] theorem modRc_lines (f : RunCtl → RunCtl) : (s.modRc f).lines = s.lines := rfl
@[simp] theorem modRc_net (f : RunCtl → RunCtl) : (s.modRc f).net = s.net := rfl
@[simp] theorem modRc_crypt (f : RunCtl → RunCtl) : (s.modRc f).crypt = s.crypt := rfl
@[simp] theorem modRc_spoor (f : RunCtl → RunCtl) : (s.modRc f).spoor = s.spoor := rfl
@[simp] theorem modRc_lynx (f : RunCtl → RunCtl) : (s.modRc f).lynx = s.lynx := rfl
@[simp] theorem modRc_ring (f : RunCtl → RunCtl) : (s.modRc f).ring = s.ring := rfl
@[simp] theorem modRc_spad (f : RunCtl → RunCtl) : (s.modRc f).spad = s.spad := rfl
@[simp] theorem modRc_acq (f : RunCtl → RunCtl) : (s.modRc f).acq = s.acq := rfl
@[simp] theorem modRc_time (f : RunCtl → RunCtl) : (s.modRc f).time = s.time := rfl
@[simp] theorem modRc_power (f : RunCtl → RunCtl) : (s.modRc f).power = s.power := rfl
@[simp] theorem modRc_badger (f : RunCtl → RunCtl) : (s.modRc f).badger = s.badger := rfl
@[simp] theorem modRc_ports (f : RunCtl → RunCtl) : (s.modRc f).ports = s.ports := rfl
@[simp] theorem modRc_tests (f : RunCtl → RunCtl) : (s.modRc f).tests = s.tests := rfl
@[simp] theorem modRc_shale (f : RunCtl → RunCtl) : (s.modRc f).shale = s.shale := rfl
@[simp] theorem modRc_dbg (f : RunCtl → RunCtl) : (s.modRc f).dbg = s.dbg := rfl
@[simp] theorem modRc_boot (f : RunCtl → RunCtl) : (s.modRc f).boot = s.boot := rfl
@[simp] theorem modRc_host (f : RunCtl → RunCtl) : (s.modRc f).host = s.host := rfl
@[simp] theorem modRc_freeCount (f : RunCtl → RunCtl) : (s.modRc f).freeCount = s.freeCount := rfl

/-! ## modBg -/

@[simp] theorem modBg_pending (f : Badger → Badger) : (s.modBg f).pending = s.pending := rfl
@[simp] theorem modBg_fuses (f : Badger → Badger) : (s.modBg f).fuses = s.fuses := rfl
@[simp] theorem modBg_csr (f : Badger → Badger) : (s.modBg f).csr = s.csr := rfl
@[simp] theorem modBg_latchHi (f : Badger → Badger) : (s.modBg f).latchHi = s.latchHi := rfl
@[simp] theorem modBg_ddr (f : Badger → Badger) : (s.modBg f).ddr = s.ddr := rfl
@[simp] theorem modBg_bus (f : Badger → Badger) : (s.modBg f).bus = s.bus := rfl
@[simp] theorem modBg_tx (f : Badger → Badger) : (s.modBg f).tx = s.tx := rfl
@[simp] theorem modBg_faults (f : Badger → Badger) : (s.modBg f).faults = s.faults := rfl
@[simp] theorem modBg_rc (f : Badger → Badger) : (s.modBg f).rc = s.rc := rfl
@[simp] theorem modBg_clusters (f : Badger → Badger) : (s.modBg f).clusters = s.clusters := rfl
@[simp] theorem modBg_imem (f : Badger → Badger) : (s.modBg f).imem = s.imem := rfl
@[simp] theorem modBg_banks (f : Badger → Badger) : (s.modBg f).banks = s.banks := rfl
@[simp] theorem modBg_inbox (f : Badger → Badger) : (s.modBg f).inbox = s.inbox := rfl
@[simp] theorem modBg_held (f : Badger → Badger) : (s.modBg f).held = s.held := rfl
@[simp] theorem modBg_probes (f : Badger → Badger) : (s.modBg f).probes = s.probes := rfl
@[simp] theorem modBg_fabTrig (f : Badger → Badger) : (s.modBg f).fabTrig = s.fabTrig := rfl
@[simp] theorem modBg_dmb (f : Badger → Badger) : (s.modBg f).dmb = s.dmb := rfl
@[simp] theorem modBg_acc (f : Badger → Badger) : (s.modBg f).acc = s.acc := rfl
@[simp] theorem modBg_scrubPos (f : Badger → Badger) : (s.modBg f).scrubPos = s.scrubPos := rfl
@[simp] theorem modBg_stepped (f : Badger → Badger) : (s.modBg f).stepped = s.stepped := rfl
@[simp] theorem modBg_links (f : Badger → Badger) : (s.modBg f).links = s.links := rfl
@[simp] theorem modBg_lines (f : Badger → Badger) : (s.modBg f).lines = s.lines := rfl
@[simp] theorem modBg_net (f : Badger → Badger) : (s.modBg f).net = s.net := rfl
@[simp] theorem modBg_crypt (f : Badger → Badger) : (s.modBg f).crypt = s.crypt := rfl
@[simp] theorem modBg_spoor (f : Badger → Badger) : (s.modBg f).spoor = s.spoor := rfl
@[simp] theorem modBg_lynx (f : Badger → Badger) : (s.modBg f).lynx = s.lynx := rfl
@[simp] theorem modBg_ring (f : Badger → Badger) : (s.modBg f).ring = s.ring := rfl
@[simp] theorem modBg_spad (f : Badger → Badger) : (s.modBg f).spad = s.spad := rfl
@[simp] theorem modBg_acq (f : Badger → Badger) : (s.modBg f).acq = s.acq := rfl
@[simp] theorem modBg_time (f : Badger → Badger) : (s.modBg f).time = s.time := rfl
@[simp] theorem modBg_power (f : Badger → Badger) : (s.modBg f).power = s.power := rfl
@[simp] theorem modBg_badger (f : Badger → Badger) : (s.modBg f).badger = f s.badger := rfl
@[simp] theorem modBg_ports (f : Badger → Badger) : (s.modBg f).ports = s.ports := rfl
@[simp] theorem modBg_tests (f : Badger → Badger) : (s.modBg f).tests = s.tests := rfl
@[simp] theorem modBg_shale (f : Badger → Badger) : (s.modBg f).shale = s.shale := rfl
@[simp] theorem modBg_dbg (f : Badger → Badger) : (s.modBg f).dbg = s.dbg := rfl
@[simp] theorem modBg_boot (f : Badger → Badger) : (s.modBg f).boot = s.boot := rfl
@[simp] theorem modBg_host (f : Badger → Badger) : (s.modBg f).host = s.host := rfl
@[simp] theorem modBg_freeCount (f : Badger → Badger) : (s.modBg f).freeCount = s.freeCount := rfl

/-! ## modCore -/

@[simp] theorem modCore_pending (k : Nat) (f : Core → Core) : (s.modCore k f).pending = s.pending := rfl
@[simp] theorem modCore_fuses (k : Nat) (f : Core → Core) : (s.modCore k f).fuses = s.fuses := rfl
@[simp] theorem modCore_csr (k : Nat) (f : Core → Core) : (s.modCore k f).csr = s.csr := rfl
@[simp] theorem modCore_latchHi (k : Nat) (f : Core → Core) : (s.modCore k f).latchHi = s.latchHi := rfl
@[simp] theorem modCore_ddr (k : Nat) (f : Core → Core) : (s.modCore k f).ddr = s.ddr := rfl
@[simp] theorem modCore_bus (k : Nat) (f : Core → Core) : (s.modCore k f).bus = s.bus := rfl
@[simp] theorem modCore_tx (k : Nat) (f : Core → Core) : (s.modCore k f).tx = s.tx := rfl
@[simp] theorem modCore_faults (k : Nat) (f : Core → Core) : (s.modCore k f).faults = s.faults := rfl
@[simp] theorem modCore_rc (k : Nat) (f : Core → Core) : (s.modCore k f).rc = s.rc := rfl
@[simp] theorem modCore_clusters (k : Nat) (f : Core → Core) : (s.modCore k f).clusters = s.clusters := rfl
@[simp] theorem modCore_imem (k : Nat) (f : Core → Core) : (s.modCore k f).imem = s.imem := rfl
@[simp] theorem modCore_banks (k : Nat) (f : Core → Core) : (s.modCore k f).banks = s.banks := rfl
@[simp] theorem modCore_inbox (k : Nat) (f : Core → Core) : (s.modCore k f).inbox = s.inbox := rfl
@[simp] theorem modCore_held (k : Nat) (f : Core → Core) : (s.modCore k f).held = s.held := rfl
@[simp] theorem modCore_probes (k : Nat) (f : Core → Core) : (s.modCore k f).probes = s.probes := rfl
@[simp] theorem modCore_fabTrig (k : Nat) (f : Core → Core) : (s.modCore k f).fabTrig = s.fabTrig := rfl
@[simp] theorem modCore_dmb (k : Nat) (f : Core → Core) : (s.modCore k f).dmb = s.dmb := rfl
@[simp] theorem modCore_acc (k : Nat) (f : Core → Core) : (s.modCore k f).acc = s.acc := rfl
@[simp] theorem modCore_scrubPos (k : Nat) (f : Core → Core) : (s.modCore k f).scrubPos = s.scrubPos := rfl
@[simp] theorem modCore_stepped (k : Nat) (f : Core → Core) : (s.modCore k f).stepped = s.stepped := rfl
@[simp] theorem modCore_links (k : Nat) (f : Core → Core) : (s.modCore k f).links = s.links := rfl
@[simp] theorem modCore_lines (k : Nat) (f : Core → Core) : (s.modCore k f).lines = s.lines := rfl
@[simp] theorem modCore_net (k : Nat) (f : Core → Core) : (s.modCore k f).net = s.net := rfl
@[simp] theorem modCore_crypt (k : Nat) (f : Core → Core) : (s.modCore k f).crypt = s.crypt := rfl
@[simp] theorem modCore_spoor (k : Nat) (f : Core → Core) : (s.modCore k f).spoor = s.spoor := rfl
@[simp] theorem modCore_lynx (k : Nat) (f : Core → Core) : (s.modCore k f).lynx = s.lynx := rfl
@[simp] theorem modCore_ring (k : Nat) (f : Core → Core) : (s.modCore k f).ring = s.ring := rfl
@[simp] theorem modCore_spad (k : Nat) (f : Core → Core) : (s.modCore k f).spad = s.spad := rfl
@[simp] theorem modCore_acq (k : Nat) (f : Core → Core) : (s.modCore k f).acq = s.acq := rfl
@[simp] theorem modCore_time (k : Nat) (f : Core → Core) : (s.modCore k f).time = s.time := rfl
@[simp] theorem modCore_power (k : Nat) (f : Core → Core) : (s.modCore k f).power = s.power := rfl
@[simp] theorem modCore_ports (k : Nat) (f : Core → Core) : (s.modCore k f).ports = s.ports := rfl
@[simp] theorem modCore_tests (k : Nat) (f : Core → Core) : (s.modCore k f).tests = s.tests := rfl
@[simp] theorem modCore_shale (k : Nat) (f : Core → Core) : (s.modCore k f).shale = s.shale := rfl
@[simp] theorem modCore_dbg (k : Nat) (f : Core → Core) : (s.modCore k f).dbg = s.dbg := rfl
@[simp] theorem modCore_boot (k : Nat) (f : Core → Core) : (s.modCore k f).boot = s.boot := rfl
@[simp] theorem modCore_host (k : Nat) (f : Core → Core) : (s.modCore k f).host = s.host := rfl
@[simp] theorem modCore_freeCount (k : Nat) (f : Core → Core) : (s.modCore k f).freeCount = s.freeCount := rfl

/-! ## emit -/

@[simp] theorem emit_pending (l : List TxItem) : (s.emit l).pending = s.pending := rfl
@[simp] theorem emit_fuses (l : List TxItem) : (s.emit l).fuses = s.fuses := rfl
@[simp] theorem emit_csr (l : List TxItem) : (s.emit l).csr = s.csr := rfl
@[simp] theorem emit_latchHi (l : List TxItem) : (s.emit l).latchHi = s.latchHi := rfl
@[simp] theorem emit_ddr (l : List TxItem) : (s.emit l).ddr = s.ddr := rfl
@[simp] theorem emit_bus (l : List TxItem) : (s.emit l).bus = s.bus := rfl
@[simp] theorem emit_tx (l : List TxItem) : (s.emit l).tx = s.tx ++ l := rfl
@[simp] theorem emit_faults (l : List TxItem) : (s.emit l).faults = s.faults := rfl
@[simp] theorem emit_rc (l : List TxItem) : (s.emit l).rc = s.rc := rfl
@[simp] theorem emit_clusters (l : List TxItem) : (s.emit l).clusters = s.clusters := rfl
@[simp] theorem emit_imem (l : List TxItem) : (s.emit l).imem = s.imem := rfl
@[simp] theorem emit_banks (l : List TxItem) : (s.emit l).banks = s.banks := rfl
@[simp] theorem emit_inbox (l : List TxItem) : (s.emit l).inbox = s.inbox := rfl
@[simp] theorem emit_held (l : List TxItem) : (s.emit l).held = s.held := rfl
@[simp] theorem emit_probes (l : List TxItem) : (s.emit l).probes = s.probes := rfl
@[simp] theorem emit_fabTrig (l : List TxItem) : (s.emit l).fabTrig = s.fabTrig := rfl
@[simp] theorem emit_dmb (l : List TxItem) : (s.emit l).dmb = s.dmb := rfl
@[simp] theorem emit_acc (l : List TxItem) : (s.emit l).acc = s.acc := rfl
@[simp] theorem emit_scrubPos (l : List TxItem) : (s.emit l).scrubPos = s.scrubPos := rfl
@[simp] theorem emit_stepped (l : List TxItem) : (s.emit l).stepped = s.stepped := rfl
@[simp] theorem emit_links (l : List TxItem) : (s.emit l).links = s.links := rfl
@[simp] theorem emit_lines (l : List TxItem) : (s.emit l).lines = l.foldl s.onLanes s.lines := rfl
@[simp] theorem emit_net (l : List TxItem) : (s.emit l).net = s.net := rfl
@[simp] theorem emit_crypt (l : List TxItem) : (s.emit l).crypt = s.crypt := rfl
@[simp] theorem emit_spoor (l : List TxItem) : (s.emit l).spoor = s.spoor := rfl
@[simp] theorem emit_lynx (l : List TxItem) : (s.emit l).lynx = s.lynx := rfl
@[simp] theorem emit_ring (l : List TxItem) : (s.emit l).ring = s.ring := rfl
@[simp] theorem emit_spad (l : List TxItem) : (s.emit l).spad = s.spad := rfl
@[simp] theorem emit_acq (l : List TxItem) : (s.emit l).acq = s.acq := rfl
@[simp] theorem emit_time (l : List TxItem) : (s.emit l).time = s.time := rfl
@[simp] theorem emit_power (l : List TxItem) : (s.emit l).power = s.power := rfl
@[simp] theorem emit_badger (l : List TxItem) : (s.emit l).badger = s.badger := rfl
@[simp] theorem emit_ports (l : List TxItem) : (s.emit l).ports = s.ports := rfl
@[simp] theorem emit_tests (l : List TxItem) : (s.emit l).tests = s.tests := rfl
@[simp] theorem emit_shale (l : List TxItem) : (s.emit l).shale = s.shale := rfl
@[simp] theorem emit_dbg (l : List TxItem) : (s.emit l).dbg = s.dbg := rfl
@[simp] theorem emit_boot (l : List TxItem) : (s.emit l).boot = s.boot := rfl
@[simp] theorem emit_host (l : List TxItem) : (s.emit l).host = s.host := rfl
@[simp] theorem emit_freeCount (l : List TxItem) : (s.emit l).freeCount = s.freeCount := rfl

/-! ## modLine -/

@[simp] theorem modLine_pending (p : Nat) (f : Line → Line) : (s.modLine p f).pending = s.pending := rfl
@[simp] theorem modLine_fuses (p : Nat) (f : Line → Line) : (s.modLine p f).fuses = s.fuses := rfl
@[simp] theorem modLine_csr (p : Nat) (f : Line → Line) : (s.modLine p f).csr = s.csr := rfl
@[simp] theorem modLine_latchHi (p : Nat) (f : Line → Line) : (s.modLine p f).latchHi = s.latchHi := rfl
@[simp] theorem modLine_ddr (p : Nat) (f : Line → Line) : (s.modLine p f).ddr = s.ddr := rfl
@[simp] theorem modLine_bus (p : Nat) (f : Line → Line) : (s.modLine p f).bus = s.bus := rfl
@[simp] theorem modLine_tx (p : Nat) (f : Line → Line) : (s.modLine p f).tx = s.tx := rfl
@[simp] theorem modLine_faults (p : Nat) (f : Line → Line) : (s.modLine p f).faults = s.faults := rfl
@[simp] theorem modLine_rc (p : Nat) (f : Line → Line) : (s.modLine p f).rc = s.rc := rfl
@[simp] theorem modLine_clusters (p : Nat) (f : Line → Line) : (s.modLine p f).clusters = s.clusters := rfl
@[simp] theorem modLine_imem (p : Nat) (f : Line → Line) : (s.modLine p f).imem = s.imem := rfl
@[simp] theorem modLine_banks (p : Nat) (f : Line → Line) : (s.modLine p f).banks = s.banks := rfl
@[simp] theorem modLine_inbox (p : Nat) (f : Line → Line) : (s.modLine p f).inbox = s.inbox := rfl
@[simp] theorem modLine_held (p : Nat) (f : Line → Line) : (s.modLine p f).held = s.held := rfl
@[simp] theorem modLine_probes (p : Nat) (f : Line → Line) : (s.modLine p f).probes = s.probes := rfl
@[simp] theorem modLine_fabTrig (p : Nat) (f : Line → Line) : (s.modLine p f).fabTrig = s.fabTrig := rfl
@[simp] theorem modLine_dmb (p : Nat) (f : Line → Line) : (s.modLine p f).dmb = s.dmb := rfl
@[simp] theorem modLine_acc (p : Nat) (f : Line → Line) : (s.modLine p f).acc = s.acc := rfl
@[simp] theorem modLine_scrubPos (p : Nat) (f : Line → Line) : (s.modLine p f).scrubPos = s.scrubPos := rfl
@[simp] theorem modLine_stepped (p : Nat) (f : Line → Line) : (s.modLine p f).stepped = s.stepped := rfl
@[simp] theorem modLine_links (p : Nat) (f : Line → Line) : (s.modLine p f).links = s.links := rfl
@[simp] theorem modLine_lines (p : Nat) (f : Line → Line) : (s.modLine p f).lines = s.lines.set (fun _ => {}) p (f (s.line p)) := rfl
@[simp] theorem modLine_net (p : Nat) (f : Line → Line) : (s.modLine p f).net = s.net := rfl
@[simp] theorem modLine_crypt (p : Nat) (f : Line → Line) : (s.modLine p f).crypt = s.crypt := rfl
@[simp] theorem modLine_spoor (p : Nat) (f : Line → Line) : (s.modLine p f).spoor = s.spoor := rfl
@[simp] theorem modLine_lynx (p : Nat) (f : Line → Line) : (s.modLine p f).lynx = s.lynx := rfl
@[simp] theorem modLine_ring (p : Nat) (f : Line → Line) : (s.modLine p f).ring = s.ring := rfl
@[simp] theorem modLine_spad (p : Nat) (f : Line → Line) : (s.modLine p f).spad = s.spad := rfl
@[simp] theorem modLine_acq (p : Nat) (f : Line → Line) : (s.modLine p f).acq = s.acq := rfl
@[simp] theorem modLine_time (p : Nat) (f : Line → Line) : (s.modLine p f).time = s.time := rfl
@[simp] theorem modLine_power (p : Nat) (f : Line → Line) : (s.modLine p f).power = s.power := rfl
@[simp] theorem modLine_badger (p : Nat) (f : Line → Line) : (s.modLine p f).badger = s.badger := rfl
@[simp] theorem modLine_ports (p : Nat) (f : Line → Line) : (s.modLine p f).ports = s.ports := rfl
@[simp] theorem modLine_tests (p : Nat) (f : Line → Line) : (s.modLine p f).tests = s.tests := rfl
@[simp] theorem modLine_shale (p : Nat) (f : Line → Line) : (s.modLine p f).shale = s.shale := rfl
@[simp] theorem modLine_dbg (p : Nat) (f : Line → Line) : (s.modLine p f).dbg = s.dbg := rfl
@[simp] theorem modLine_boot (p : Nat) (f : Line → Line) : (s.modLine p f).boot = s.boot := rfl
@[simp] theorem modLine_host (p : Nat) (f : Line → Line) : (s.modLine p f).host = s.host := rfl
@[simp] theorem modLine_freeCount (p : Nat) (f : Line → Line) : (s.modLine p f).freeCount = s.freeCount := rfl

/-! ## modSp -/

@[simp] theorem modSp_pending (f : Spoor → Spoor) : (s.modSp f).pending = s.pending := rfl
@[simp] theorem modSp_fuses (f : Spoor → Spoor) : (s.modSp f).fuses = s.fuses := rfl
@[simp] theorem modSp_csr (f : Spoor → Spoor) : (s.modSp f).csr = s.csr := rfl
@[simp] theorem modSp_latchHi (f : Spoor → Spoor) : (s.modSp f).latchHi = s.latchHi := rfl
@[simp] theorem modSp_ddr (f : Spoor → Spoor) : (s.modSp f).ddr = s.ddr := rfl
@[simp] theorem modSp_bus (f : Spoor → Spoor) : (s.modSp f).bus = s.bus := rfl
@[simp] theorem modSp_tx (f : Spoor → Spoor) : (s.modSp f).tx = s.tx := rfl
@[simp] theorem modSp_faults (f : Spoor → Spoor) : (s.modSp f).faults = s.faults := rfl
@[simp] theorem modSp_rc (f : Spoor → Spoor) : (s.modSp f).rc = s.rc := rfl
@[simp] theorem modSp_clusters (f : Spoor → Spoor) : (s.modSp f).clusters = s.clusters := rfl
@[simp] theorem modSp_imem (f : Spoor → Spoor) : (s.modSp f).imem = s.imem := rfl
@[simp] theorem modSp_banks (f : Spoor → Spoor) : (s.modSp f).banks = s.banks := rfl
@[simp] theorem modSp_inbox (f : Spoor → Spoor) : (s.modSp f).inbox = s.inbox := rfl
@[simp] theorem modSp_held (f : Spoor → Spoor) : (s.modSp f).held = s.held := rfl
@[simp] theorem modSp_probes (f : Spoor → Spoor) : (s.modSp f).probes = s.probes := rfl
@[simp] theorem modSp_fabTrig (f : Spoor → Spoor) : (s.modSp f).fabTrig = s.fabTrig := rfl
@[simp] theorem modSp_dmb (f : Spoor → Spoor) : (s.modSp f).dmb = s.dmb := rfl
@[simp] theorem modSp_acc (f : Spoor → Spoor) : (s.modSp f).acc = s.acc := rfl
@[simp] theorem modSp_scrubPos (f : Spoor → Spoor) : (s.modSp f).scrubPos = s.scrubPos := rfl
@[simp] theorem modSp_stepped (f : Spoor → Spoor) : (s.modSp f).stepped = s.stepped := rfl
@[simp] theorem modSp_links (f : Spoor → Spoor) : (s.modSp f).links = s.links := rfl
@[simp] theorem modSp_lines (f : Spoor → Spoor) : (s.modSp f).lines = s.lines := rfl
@[simp] theorem modSp_net (f : Spoor → Spoor) : (s.modSp f).net = s.net := rfl
@[simp] theorem modSp_crypt (f : Spoor → Spoor) : (s.modSp f).crypt = s.crypt := rfl
@[simp] theorem modSp_spoor (f : Spoor → Spoor) : (s.modSp f).spoor = f s.spoor := rfl
@[simp] theorem modSp_lynx (f : Spoor → Spoor) : (s.modSp f).lynx = s.lynx := rfl
@[simp] theorem modSp_ring (f : Spoor → Spoor) : (s.modSp f).ring = s.ring := rfl
@[simp] theorem modSp_spad (f : Spoor → Spoor) : (s.modSp f).spad = s.spad := rfl
@[simp] theorem modSp_acq (f : Spoor → Spoor) : (s.modSp f).acq = s.acq := rfl
@[simp] theorem modSp_time (f : Spoor → Spoor) : (s.modSp f).time = s.time := rfl
@[simp] theorem modSp_power (f : Spoor → Spoor) : (s.modSp f).power = s.power := rfl
@[simp] theorem modSp_badger (f : Spoor → Spoor) : (s.modSp f).badger = s.badger := rfl
@[simp] theorem modSp_ports (f : Spoor → Spoor) : (s.modSp f).ports = s.ports := rfl
@[simp] theorem modSp_tests (f : Spoor → Spoor) : (s.modSp f).tests = s.tests := rfl
@[simp] theorem modSp_shale (f : Spoor → Spoor) : (s.modSp f).shale = s.shale := rfl
@[simp] theorem modSp_dbg (f : Spoor → Spoor) : (s.modSp f).dbg = s.dbg := rfl
@[simp] theorem modSp_boot (f : Spoor → Spoor) : (s.modSp f).boot = s.boot := rfl
@[simp] theorem modSp_host (f : Spoor → Spoor) : (s.modSp f).host = s.host := rfl
@[simp] theorem modSp_freeCount (f : Spoor → Spoor) : (s.modSp f).freeCount = s.freeCount := rfl

/-! ## modRing -/

@[simp] theorem modRing_pending (f : Ring → Ring) : (s.modRing f).pending = s.pending := rfl
@[simp] theorem modRing_fuses (f : Ring → Ring) : (s.modRing f).fuses = s.fuses := rfl
@[simp] theorem modRing_csr (f : Ring → Ring) : (s.modRing f).csr = s.csr := rfl
@[simp] theorem modRing_latchHi (f : Ring → Ring) : (s.modRing f).latchHi = s.latchHi := rfl
@[simp] theorem modRing_ddr (f : Ring → Ring) : (s.modRing f).ddr = s.ddr := rfl
@[simp] theorem modRing_bus (f : Ring → Ring) : (s.modRing f).bus = s.bus := rfl
@[simp] theorem modRing_tx (f : Ring → Ring) : (s.modRing f).tx = s.tx := rfl
@[simp] theorem modRing_faults (f : Ring → Ring) : (s.modRing f).faults = s.faults := rfl
@[simp] theorem modRing_rc (f : Ring → Ring) : (s.modRing f).rc = s.rc := rfl
@[simp] theorem modRing_clusters (f : Ring → Ring) : (s.modRing f).clusters = s.clusters := rfl
@[simp] theorem modRing_imem (f : Ring → Ring) : (s.modRing f).imem = s.imem := rfl
@[simp] theorem modRing_banks (f : Ring → Ring) : (s.modRing f).banks = s.banks := rfl
@[simp] theorem modRing_inbox (f : Ring → Ring) : (s.modRing f).inbox = s.inbox := rfl
@[simp] theorem modRing_held (f : Ring → Ring) : (s.modRing f).held = s.held := rfl
@[simp] theorem modRing_probes (f : Ring → Ring) : (s.modRing f).probes = s.probes := rfl
@[simp] theorem modRing_fabTrig (f : Ring → Ring) : (s.modRing f).fabTrig = s.fabTrig := rfl
@[simp] theorem modRing_dmb (f : Ring → Ring) : (s.modRing f).dmb = s.dmb := rfl
@[simp] theorem modRing_acc (f : Ring → Ring) : (s.modRing f).acc = s.acc := rfl
@[simp] theorem modRing_scrubPos (f : Ring → Ring) : (s.modRing f).scrubPos = s.scrubPos := rfl
@[simp] theorem modRing_stepped (f : Ring → Ring) : (s.modRing f).stepped = s.stepped := rfl
@[simp] theorem modRing_links (f : Ring → Ring) : (s.modRing f).links = s.links := rfl
@[simp] theorem modRing_lines (f : Ring → Ring) : (s.modRing f).lines = s.lines := rfl
@[simp] theorem modRing_net (f : Ring → Ring) : (s.modRing f).net = s.net := rfl
@[simp] theorem modRing_crypt (f : Ring → Ring) : (s.modRing f).crypt = s.crypt := rfl
@[simp] theorem modRing_spoor (f : Ring → Ring) : (s.modRing f).spoor = s.spoor := rfl
@[simp] theorem modRing_lynx (f : Ring → Ring) : (s.modRing f).lynx = s.lynx := rfl
@[simp] theorem modRing_ring (f : Ring → Ring) : (s.modRing f).ring = f s.ring := rfl
@[simp] theorem modRing_spad (f : Ring → Ring) : (s.modRing f).spad = s.spad := rfl
@[simp] theorem modRing_acq (f : Ring → Ring) : (s.modRing f).acq = s.acq := rfl
@[simp] theorem modRing_time (f : Ring → Ring) : (s.modRing f).time = s.time := rfl
@[simp] theorem modRing_power (f : Ring → Ring) : (s.modRing f).power = s.power := rfl
@[simp] theorem modRing_badger (f : Ring → Ring) : (s.modRing f).badger = s.badger := rfl
@[simp] theorem modRing_ports (f : Ring → Ring) : (s.modRing f).ports = s.ports := rfl
@[simp] theorem modRing_tests (f : Ring → Ring) : (s.modRing f).tests = s.tests := rfl
@[simp] theorem modRing_shale (f : Ring → Ring) : (s.modRing f).shale = s.shale := rfl
@[simp] theorem modRing_dbg (f : Ring → Ring) : (s.modRing f).dbg = s.dbg := rfl
@[simp] theorem modRing_boot (f : Ring → Ring) : (s.modRing f).boot = s.boot := rfl
@[simp] theorem modRing_host (f : Ring → Ring) : (s.modRing f).host = s.host := rfl
@[simp] theorem modRing_freeCount (f : Ring → Ring) : (s.modRing f).freeCount = s.freeCount := rfl

/-! ## modDom -/

@[simp] theorem modDom_pending (d : Nat) (f : Domain → Domain) : (s.modDom d f).pending = s.pending := rfl
@[simp] theorem modDom_fuses (d : Nat) (f : Domain → Domain) : (s.modDom d f).fuses = s.fuses := rfl
@[simp] theorem modDom_csr (d : Nat) (f : Domain → Domain) : (s.modDom d f).csr = s.csr := rfl
@[simp] theorem modDom_latchHi (d : Nat) (f : Domain → Domain) : (s.modDom d f).latchHi = s.latchHi := rfl
@[simp] theorem modDom_ddr (d : Nat) (f : Domain → Domain) : (s.modDom d f).ddr = s.ddr := rfl
@[simp] theorem modDom_bus (d : Nat) (f : Domain → Domain) : (s.modDom d f).bus = s.bus := rfl
@[simp] theorem modDom_tx (d : Nat) (f : Domain → Domain) : (s.modDom d f).tx = s.tx := rfl
@[simp] theorem modDom_faults (d : Nat) (f : Domain → Domain) : (s.modDom d f).faults = s.faults := rfl
@[simp] theorem modDom_rc (d : Nat) (f : Domain → Domain) : (s.modDom d f).rc = s.rc := rfl
@[simp] theorem modDom_clusters (d : Nat) (f : Domain → Domain) : (s.modDom d f).clusters = s.clusters := rfl
@[simp] theorem modDom_imem (d : Nat) (f : Domain → Domain) : (s.modDom d f).imem = s.imem := rfl
@[simp] theorem modDom_banks (d : Nat) (f : Domain → Domain) : (s.modDom d f).banks = s.banks := rfl
@[simp] theorem modDom_inbox (d : Nat) (f : Domain → Domain) : (s.modDom d f).inbox = s.inbox := rfl
@[simp] theorem modDom_held (d : Nat) (f : Domain → Domain) : (s.modDom d f).held = s.held := rfl
@[simp] theorem modDom_probes (d : Nat) (f : Domain → Domain) : (s.modDom d f).probes = s.probes := rfl
@[simp] theorem modDom_fabTrig (d : Nat) (f : Domain → Domain) : (s.modDom d f).fabTrig = s.fabTrig := rfl
@[simp] theorem modDom_dmb (d : Nat) (f : Domain → Domain) : (s.modDom d f).dmb = s.dmb := rfl
@[simp] theorem modDom_acc (d : Nat) (f : Domain → Domain) : (s.modDom d f).acc = s.acc := rfl
@[simp] theorem modDom_scrubPos (d : Nat) (f : Domain → Domain) : (s.modDom d f).scrubPos = s.scrubPos := rfl
@[simp] theorem modDom_stepped (d : Nat) (f : Domain → Domain) : (s.modDom d f).stepped = s.stepped := rfl
@[simp] theorem modDom_links (d : Nat) (f : Domain → Domain) : (s.modDom d f).links = s.links := rfl
@[simp] theorem modDom_lines (d : Nat) (f : Domain → Domain) : (s.modDom d f).lines = s.lines := rfl
@[simp] theorem modDom_net (d : Nat) (f : Domain → Domain) : (s.modDom d f).net = s.net := rfl
@[simp] theorem modDom_crypt (d : Nat) (f : Domain → Domain) : (s.modDom d f).crypt = s.crypt := rfl
@[simp] theorem modDom_spoor (d : Nat) (f : Domain → Domain) : (s.modDom d f).spoor = s.spoor := rfl
@[simp] theorem modDom_lynx (d : Nat) (f : Domain → Domain) : (s.modDom d f).lynx = s.lynx := rfl
@[simp] theorem modDom_ring (d : Nat) (f : Domain → Domain) : (s.modDom d f).ring = s.ring := rfl
@[simp] theorem modDom_spad (d : Nat) (f : Domain → Domain) : (s.modDom d f).spad = s.spad := rfl
@[simp] theorem modDom_acq (d : Nat) (f : Domain → Domain) : (s.modDom d f).acq = s.acq := rfl
@[simp] theorem modDom_time (d : Nat) (f : Domain → Domain) : (s.modDom d f).time = s.time := rfl
@[simp] theorem modDom_badger (d : Nat) (f : Domain → Domain) : (s.modDom d f).badger = s.badger := rfl
@[simp] theorem modDom_ports (d : Nat) (f : Domain → Domain) : (s.modDom d f).ports = s.ports := rfl
@[simp] theorem modDom_tests (d : Nat) (f : Domain → Domain) : (s.modDom d f).tests = s.tests := rfl
@[simp] theorem modDom_shale (d : Nat) (f : Domain → Domain) : (s.modDom d f).shale = s.shale := rfl
@[simp] theorem modDom_dbg (d : Nat) (f : Domain → Domain) : (s.modDom d f).dbg = s.dbg := rfl
@[simp] theorem modDom_boot (d : Nat) (f : Domain → Domain) : (s.modDom d f).boot = s.boot := rfl
@[simp] theorem modDom_host (d : Nat) (f : Domain → Domain) : (s.modDom d f).host = s.host := rfl
@[simp] theorem modDom_freeCount (d : Nat) (f : Domain → Domain) : (s.modDom d f).freeCount = s.freeCount := rfl

/-! ## touch -/

@[simp] theorem touch_pending (d : Nat) : (s.touch d).pending = s.pending := rfl
@[simp] theorem touch_fuses (d : Nat) : (s.touch d).fuses = s.fuses := rfl
@[simp] theorem touch_csr (d : Nat) : (s.touch d).csr = s.csr := rfl
@[simp] theorem touch_latchHi (d : Nat) : (s.touch d).latchHi = s.latchHi := rfl
@[simp] theorem touch_ddr (d : Nat) : (s.touch d).ddr = s.ddr := rfl
@[simp] theorem touch_bus (d : Nat) : (s.touch d).bus = s.bus := rfl
@[simp] theorem touch_tx (d : Nat) : (s.touch d).tx = s.tx := rfl
@[simp] theorem touch_faults (d : Nat) : (s.touch d).faults = s.faults := rfl
@[simp] theorem touch_rc (d : Nat) : (s.touch d).rc = s.rc := rfl
@[simp] theorem touch_clusters (d : Nat) : (s.touch d).clusters = s.clusters := rfl
@[simp] theorem touch_imem (d : Nat) : (s.touch d).imem = s.imem := rfl
@[simp] theorem touch_banks (d : Nat) : (s.touch d).banks = s.banks := rfl
@[simp] theorem touch_inbox (d : Nat) : (s.touch d).inbox = s.inbox := rfl
@[simp] theorem touch_held (d : Nat) : (s.touch d).held = s.held := rfl
@[simp] theorem touch_probes (d : Nat) : (s.touch d).probes = s.probes := rfl
@[simp] theorem touch_fabTrig (d : Nat) : (s.touch d).fabTrig = s.fabTrig := rfl
@[simp] theorem touch_dmb (d : Nat) : (s.touch d).dmb = s.dmb := rfl
@[simp] theorem touch_acc (d : Nat) : (s.touch d).acc = s.acc := rfl
@[simp] theorem touch_scrubPos (d : Nat) : (s.touch d).scrubPos = s.scrubPos := rfl
@[simp] theorem touch_stepped (d : Nat) : (s.touch d).stepped = s.stepped := rfl
@[simp] theorem touch_links (d : Nat) : (s.touch d).links = s.links := rfl
@[simp] theorem touch_lines (d : Nat) : (s.touch d).lines = s.lines := rfl
@[simp] theorem touch_net (d : Nat) : (s.touch d).net = s.net := rfl
@[simp] theorem touch_crypt (d : Nat) : (s.touch d).crypt = s.crypt := rfl
@[simp] theorem touch_spoor (d : Nat) : (s.touch d).spoor = s.spoor := rfl
@[simp] theorem touch_lynx (d : Nat) : (s.touch d).lynx = s.lynx := rfl
@[simp] theorem touch_ring (d : Nat) : (s.touch d).ring = s.ring := rfl
@[simp] theorem touch_spad (d : Nat) : (s.touch d).spad = s.spad := rfl
@[simp] theorem touch_acq (d : Nat) : (s.touch d).acq = s.acq := rfl
@[simp] theorem touch_time (d : Nat) : (s.touch d).time = s.time := rfl
@[simp] theorem touch_badger (d : Nat) : (s.touch d).badger = s.badger := rfl
@[simp] theorem touch_ports (d : Nat) : (s.touch d).ports = s.ports := rfl
@[simp] theorem touch_tests (d : Nat) : (s.touch d).tests = s.tests := rfl
@[simp] theorem touch_shale (d : Nat) : (s.touch d).shale = s.shale := rfl
@[simp] theorem touch_dbg (d : Nat) : (s.touch d).dbg = s.dbg := rfl
@[simp] theorem touch_boot (d : Nat) : (s.touch d).boot = s.boot := rfl
@[simp] theorem touch_host (d : Nat) : (s.touch d).host = s.host := rfl
@[simp] theorem touch_freeCount (d : Nat) : (s.touch d).freeCount = s.freeCount := rfl

/-! ## modAcq -/

@[simp] theorem modAcq_pending (f : Acq → Acq) : (s.modAcq f).pending = s.pending := rfl
@[simp] theorem modAcq_fuses (f : Acq → Acq) : (s.modAcq f).fuses = s.fuses := rfl
@[simp] theorem modAcq_csr (f : Acq → Acq) : (s.modAcq f).csr = s.csr := rfl
@[simp] theorem modAcq_latchHi (f : Acq → Acq) : (s.modAcq f).latchHi = s.latchHi := rfl
@[simp] theorem modAcq_ddr (f : Acq → Acq) : (s.modAcq f).ddr = s.ddr := rfl
@[simp] theorem modAcq_bus (f : Acq → Acq) : (s.modAcq f).bus = s.bus := rfl
@[simp] theorem modAcq_tx (f : Acq → Acq) : (s.modAcq f).tx = s.tx := rfl
@[simp] theorem modAcq_faults (f : Acq → Acq) : (s.modAcq f).faults = s.faults := rfl
@[simp] theorem modAcq_rc (f : Acq → Acq) : (s.modAcq f).rc = s.rc := rfl
@[simp] theorem modAcq_clusters (f : Acq → Acq) : (s.modAcq f).clusters = s.clusters := rfl
@[simp] theorem modAcq_imem (f : Acq → Acq) : (s.modAcq f).imem = s.imem := rfl
@[simp] theorem modAcq_banks (f : Acq → Acq) : (s.modAcq f).banks = s.banks := rfl
@[simp] theorem modAcq_inbox (f : Acq → Acq) : (s.modAcq f).inbox = s.inbox := rfl
@[simp] theorem modAcq_held (f : Acq → Acq) : (s.modAcq f).held = s.held := rfl
@[simp] theorem modAcq_probes (f : Acq → Acq) : (s.modAcq f).probes = s.probes := rfl
@[simp] theorem modAcq_fabTrig (f : Acq → Acq) : (s.modAcq f).fabTrig = s.fabTrig := rfl
@[simp] theorem modAcq_dmb (f : Acq → Acq) : (s.modAcq f).dmb = s.dmb := rfl
@[simp] theorem modAcq_acc (f : Acq → Acq) : (s.modAcq f).acc = s.acc := rfl
@[simp] theorem modAcq_scrubPos (f : Acq → Acq) : (s.modAcq f).scrubPos = s.scrubPos := rfl
@[simp] theorem modAcq_stepped (f : Acq → Acq) : (s.modAcq f).stepped = s.stepped := rfl
@[simp] theorem modAcq_links (f : Acq → Acq) : (s.modAcq f).links = s.links := rfl
@[simp] theorem modAcq_lines (f : Acq → Acq) : (s.modAcq f).lines = s.lines := rfl
@[simp] theorem modAcq_net (f : Acq → Acq) : (s.modAcq f).net = s.net := rfl
@[simp] theorem modAcq_crypt (f : Acq → Acq) : (s.modAcq f).crypt = s.crypt := rfl
@[simp] theorem modAcq_spoor (f : Acq → Acq) : (s.modAcq f).spoor = s.spoor := rfl
@[simp] theorem modAcq_lynx (f : Acq → Acq) : (s.modAcq f).lynx = s.lynx := rfl
@[simp] theorem modAcq_ring (f : Acq → Acq) : (s.modAcq f).ring = s.ring := rfl
@[simp] theorem modAcq_spad (f : Acq → Acq) : (s.modAcq f).spad = s.spad := rfl
@[simp] theorem modAcq_acq (f : Acq → Acq) : (s.modAcq f).acq = f s.acq := rfl
@[simp] theorem modAcq_time (f : Acq → Acq) : (s.modAcq f).time = s.time := rfl
@[simp] theorem modAcq_power (f : Acq → Acq) : (s.modAcq f).power = s.power := rfl
@[simp] theorem modAcq_badger (f : Acq → Acq) : (s.modAcq f).badger = s.badger := rfl
@[simp] theorem modAcq_ports (f : Acq → Acq) : (s.modAcq f).ports = s.ports := rfl
@[simp] theorem modAcq_tests (f : Acq → Acq) : (s.modAcq f).tests = s.tests := rfl
@[simp] theorem modAcq_shale (f : Acq → Acq) : (s.modAcq f).shale = s.shale := rfl
@[simp] theorem modAcq_dbg (f : Acq → Acq) : (s.modAcq f).dbg = s.dbg := rfl
@[simp] theorem modAcq_boot (f : Acq → Acq) : (s.modAcq f).boot = s.boot := rfl
@[simp] theorem modAcq_host (f : Acq → Acq) : (s.modAcq f).host = s.host := rfl
@[simp] theorem modAcq_freeCount (f : Acq → Acq) : (s.modAcq f).freeCount = s.freeCount := rfl

/-! ## modCry -/

@[simp] theorem modCry_pending (f : Crypt → Crypt) : (s.modCry f).pending = s.pending := rfl
@[simp] theorem modCry_fuses (f : Crypt → Crypt) : (s.modCry f).fuses = s.fuses := rfl
@[simp] theorem modCry_csr (f : Crypt → Crypt) : (s.modCry f).csr = s.csr := rfl
@[simp] theorem modCry_latchHi (f : Crypt → Crypt) : (s.modCry f).latchHi = s.latchHi := rfl
@[simp] theorem modCry_ddr (f : Crypt → Crypt) : (s.modCry f).ddr = s.ddr := rfl
@[simp] theorem modCry_bus (f : Crypt → Crypt) : (s.modCry f).bus = s.bus := rfl
@[simp] theorem modCry_tx (f : Crypt → Crypt) : (s.modCry f).tx = s.tx := rfl
@[simp] theorem modCry_faults (f : Crypt → Crypt) : (s.modCry f).faults = s.faults := rfl
@[simp] theorem modCry_rc (f : Crypt → Crypt) : (s.modCry f).rc = s.rc := rfl
@[simp] theorem modCry_clusters (f : Crypt → Crypt) : (s.modCry f).clusters = s.clusters := rfl
@[simp] theorem modCry_imem (f : Crypt → Crypt) : (s.modCry f).imem = s.imem := rfl
@[simp] theorem modCry_banks (f : Crypt → Crypt) : (s.modCry f).banks = s.banks := rfl
@[simp] theorem modCry_inbox (f : Crypt → Crypt) : (s.modCry f).inbox = s.inbox := rfl
@[simp] theorem modCry_held (f : Crypt → Crypt) : (s.modCry f).held = s.held := rfl
@[simp] theorem modCry_probes (f : Crypt → Crypt) : (s.modCry f).probes = s.probes := rfl
@[simp] theorem modCry_fabTrig (f : Crypt → Crypt) : (s.modCry f).fabTrig = s.fabTrig := rfl
@[simp] theorem modCry_dmb (f : Crypt → Crypt) : (s.modCry f).dmb = s.dmb := rfl
@[simp] theorem modCry_acc (f : Crypt → Crypt) : (s.modCry f).acc = s.acc := rfl
@[simp] theorem modCry_scrubPos (f : Crypt → Crypt) : (s.modCry f).scrubPos = s.scrubPos := rfl
@[simp] theorem modCry_stepped (f : Crypt → Crypt) : (s.modCry f).stepped = s.stepped := rfl
@[simp] theorem modCry_links (f : Crypt → Crypt) : (s.modCry f).links = s.links := rfl
@[simp] theorem modCry_lines (f : Crypt → Crypt) : (s.modCry f).lines = s.lines := rfl
@[simp] theorem modCry_net (f : Crypt → Crypt) : (s.modCry f).net = s.net := rfl
@[simp] theorem modCry_crypt (f : Crypt → Crypt) : (s.modCry f).crypt = f s.crypt := rfl
@[simp] theorem modCry_spoor (f : Crypt → Crypt) : (s.modCry f).spoor = s.spoor := rfl
@[simp] theorem modCry_lynx (f : Crypt → Crypt) : (s.modCry f).lynx = s.lynx := rfl
@[simp] theorem modCry_ring (f : Crypt → Crypt) : (s.modCry f).ring = s.ring := rfl
@[simp] theorem modCry_spad (f : Crypt → Crypt) : (s.modCry f).spad = s.spad := rfl
@[simp] theorem modCry_acq (f : Crypt → Crypt) : (s.modCry f).acq = s.acq := rfl
@[simp] theorem modCry_time (f : Crypt → Crypt) : (s.modCry f).time = s.time := rfl
@[simp] theorem modCry_power (f : Crypt → Crypt) : (s.modCry f).power = s.power := rfl
@[simp] theorem modCry_badger (f : Crypt → Crypt) : (s.modCry f).badger = s.badger := rfl
@[simp] theorem modCry_ports (f : Crypt → Crypt) : (s.modCry f).ports = s.ports := rfl
@[simp] theorem modCry_tests (f : Crypt → Crypt) : (s.modCry f).tests = s.tests := rfl
@[simp] theorem modCry_shale (f : Crypt → Crypt) : (s.modCry f).shale = s.shale := rfl
@[simp] theorem modCry_dbg (f : Crypt → Crypt) : (s.modCry f).dbg = s.dbg := rfl
@[simp] theorem modCry_boot (f : Crypt → Crypt) : (s.modCry f).boot = s.boot := rfl
@[simp] theorem modCry_host (f : Crypt → Crypt) : (s.modCry f).host = s.host := rfl
@[simp] theorem modCry_freeCount (f : Crypt → Crypt) : (s.modCry f).freeCount = s.freeCount := rfl

/-! ## modLx -/

@[simp] theorem modLx_pending (f : Lynx → Lynx) : (s.modLx f).pending = s.pending := rfl
@[simp] theorem modLx_fuses (f : Lynx → Lynx) : (s.modLx f).fuses = s.fuses := rfl
@[simp] theorem modLx_csr (f : Lynx → Lynx) : (s.modLx f).csr = s.csr := rfl
@[simp] theorem modLx_latchHi (f : Lynx → Lynx) : (s.modLx f).latchHi = s.latchHi := rfl
@[simp] theorem modLx_ddr (f : Lynx → Lynx) : (s.modLx f).ddr = s.ddr := rfl
@[simp] theorem modLx_bus (f : Lynx → Lynx) : (s.modLx f).bus = s.bus := rfl
@[simp] theorem modLx_tx (f : Lynx → Lynx) : (s.modLx f).tx = s.tx := rfl
@[simp] theorem modLx_faults (f : Lynx → Lynx) : (s.modLx f).faults = s.faults := rfl
@[simp] theorem modLx_rc (f : Lynx → Lynx) : (s.modLx f).rc = s.rc := rfl
@[simp] theorem modLx_clusters (f : Lynx → Lynx) : (s.modLx f).clusters = s.clusters := rfl
@[simp] theorem modLx_imem (f : Lynx → Lynx) : (s.modLx f).imem = s.imem := rfl
@[simp] theorem modLx_banks (f : Lynx → Lynx) : (s.modLx f).banks = s.banks := rfl
@[simp] theorem modLx_inbox (f : Lynx → Lynx) : (s.modLx f).inbox = s.inbox := rfl
@[simp] theorem modLx_held (f : Lynx → Lynx) : (s.modLx f).held = s.held := rfl
@[simp] theorem modLx_probes (f : Lynx → Lynx) : (s.modLx f).probes = s.probes := rfl
@[simp] theorem modLx_fabTrig (f : Lynx → Lynx) : (s.modLx f).fabTrig = s.fabTrig := rfl
@[simp] theorem modLx_dmb (f : Lynx → Lynx) : (s.modLx f).dmb = s.dmb := rfl
@[simp] theorem modLx_acc (f : Lynx → Lynx) : (s.modLx f).acc = s.acc := rfl
@[simp] theorem modLx_scrubPos (f : Lynx → Lynx) : (s.modLx f).scrubPos = s.scrubPos := rfl
@[simp] theorem modLx_stepped (f : Lynx → Lynx) : (s.modLx f).stepped = s.stepped := rfl
@[simp] theorem modLx_links (f : Lynx → Lynx) : (s.modLx f).links = s.links := rfl
@[simp] theorem modLx_lines (f : Lynx → Lynx) : (s.modLx f).lines = s.lines := rfl
@[simp] theorem modLx_net (f : Lynx → Lynx) : (s.modLx f).net = s.net := rfl
@[simp] theorem modLx_crypt (f : Lynx → Lynx) : (s.modLx f).crypt = s.crypt := rfl
@[simp] theorem modLx_spoor (f : Lynx → Lynx) : (s.modLx f).spoor = s.spoor := rfl
@[simp] theorem modLx_lynx (f : Lynx → Lynx) : (s.modLx f).lynx = f s.lynx := rfl
@[simp] theorem modLx_ring (f : Lynx → Lynx) : (s.modLx f).ring = s.ring := rfl
@[simp] theorem modLx_spad (f : Lynx → Lynx) : (s.modLx f).spad = s.spad := rfl
@[simp] theorem modLx_acq (f : Lynx → Lynx) : (s.modLx f).acq = s.acq := rfl
@[simp] theorem modLx_time (f : Lynx → Lynx) : (s.modLx f).time = s.time := rfl
@[simp] theorem modLx_power (f : Lynx → Lynx) : (s.modLx f).power = s.power := rfl
@[simp] theorem modLx_badger (f : Lynx → Lynx) : (s.modLx f).badger = s.badger := rfl
@[simp] theorem modLx_ports (f : Lynx → Lynx) : (s.modLx f).ports = s.ports := rfl
@[simp] theorem modLx_tests (f : Lynx → Lynx) : (s.modLx f).tests = s.tests := rfl
@[simp] theorem modLx_shale (f : Lynx → Lynx) : (s.modLx f).shale = s.shale := rfl
@[simp] theorem modLx_dbg (f : Lynx → Lynx) : (s.modLx f).dbg = s.dbg := rfl
@[simp] theorem modLx_boot (f : Lynx → Lynx) : (s.modLx f).boot = s.boot := rfl
@[simp] theorem modLx_host (f : Lynx → Lynx) : (s.modLx f).host = s.host := rfl
@[simp] theorem modLx_freeCount (f : Lynx → Lynx) : (s.modLx f).freeCount = s.freeCount := rfl

/-! ## modPow -/

@[simp] theorem modPow_pending (f : Power → Power) : (s.modPow f).pending = s.pending := rfl
@[simp] theorem modPow_fuses (f : Power → Power) : (s.modPow f).fuses = s.fuses := rfl
@[simp] theorem modPow_csr (f : Power → Power) : (s.modPow f).csr = s.csr := rfl
@[simp] theorem modPow_latchHi (f : Power → Power) : (s.modPow f).latchHi = s.latchHi := rfl
@[simp] theorem modPow_ddr (f : Power → Power) : (s.modPow f).ddr = s.ddr := rfl
@[simp] theorem modPow_bus (f : Power → Power) : (s.modPow f).bus = s.bus := rfl
@[simp] theorem modPow_tx (f : Power → Power) : (s.modPow f).tx = s.tx := rfl
@[simp] theorem modPow_faults (f : Power → Power) : (s.modPow f).faults = s.faults := rfl
@[simp] theorem modPow_rc (f : Power → Power) : (s.modPow f).rc = s.rc := rfl
@[simp] theorem modPow_clusters (f : Power → Power) : (s.modPow f).clusters = s.clusters := rfl
@[simp] theorem modPow_imem (f : Power → Power) : (s.modPow f).imem = s.imem := rfl
@[simp] theorem modPow_banks (f : Power → Power) : (s.modPow f).banks = s.banks := rfl
@[simp] theorem modPow_inbox (f : Power → Power) : (s.modPow f).inbox = s.inbox := rfl
@[simp] theorem modPow_held (f : Power → Power) : (s.modPow f).held = s.held := rfl
@[simp] theorem modPow_probes (f : Power → Power) : (s.modPow f).probes = s.probes := rfl
@[simp] theorem modPow_fabTrig (f : Power → Power) : (s.modPow f).fabTrig = s.fabTrig := rfl
@[simp] theorem modPow_dmb (f : Power → Power) : (s.modPow f).dmb = s.dmb := rfl
@[simp] theorem modPow_acc (f : Power → Power) : (s.modPow f).acc = s.acc := rfl
@[simp] theorem modPow_scrubPos (f : Power → Power) : (s.modPow f).scrubPos = s.scrubPos := rfl
@[simp] theorem modPow_stepped (f : Power → Power) : (s.modPow f).stepped = s.stepped := rfl
@[simp] theorem modPow_links (f : Power → Power) : (s.modPow f).links = s.links := rfl
@[simp] theorem modPow_lines (f : Power → Power) : (s.modPow f).lines = s.lines := rfl
@[simp] theorem modPow_net (f : Power → Power) : (s.modPow f).net = s.net := rfl
@[simp] theorem modPow_crypt (f : Power → Power) : (s.modPow f).crypt = s.crypt := rfl
@[simp] theorem modPow_spoor (f : Power → Power) : (s.modPow f).spoor = s.spoor := rfl
@[simp] theorem modPow_lynx (f : Power → Power) : (s.modPow f).lynx = s.lynx := rfl
@[simp] theorem modPow_ring (f : Power → Power) : (s.modPow f).ring = s.ring := rfl
@[simp] theorem modPow_spad (f : Power → Power) : (s.modPow f).spad = s.spad := rfl
@[simp] theorem modPow_acq (f : Power → Power) : (s.modPow f).acq = s.acq := rfl
@[simp] theorem modPow_time (f : Power → Power) : (s.modPow f).time = s.time := rfl
@[simp] theorem modPow_power (f : Power → Power) : (s.modPow f).power = f s.power := rfl
@[simp] theorem modPow_badger (f : Power → Power) : (s.modPow f).badger = s.badger := rfl
@[simp] theorem modPow_ports (f : Power → Power) : (s.modPow f).ports = s.ports := rfl
@[simp] theorem modPow_tests (f : Power → Power) : (s.modPow f).tests = s.tests := rfl
@[simp] theorem modPow_shale (f : Power → Power) : (s.modPow f).shale = s.shale := rfl
@[simp] theorem modPow_dbg (f : Power → Power) : (s.modPow f).dbg = s.dbg := rfl
@[simp] theorem modPow_boot (f : Power → Power) : (s.modPow f).boot = s.boot := rfl
@[simp] theorem modPow_host (f : Power → Power) : (s.modPow f).host = s.host := rfl
@[simp] theorem modPow_freeCount (f : Power → Power) : (s.modPow f).freeCount = s.freeCount := rfl

/-! ## modSpad -/

@[simp] theorem modSpad_pending (f : Spad → Spad) : (s.modSpad f).pending = s.pending := rfl
@[simp] theorem modSpad_fuses (f : Spad → Spad) : (s.modSpad f).fuses = s.fuses := rfl
@[simp] theorem modSpad_csr (f : Spad → Spad) : (s.modSpad f).csr = s.csr := rfl
@[simp] theorem modSpad_latchHi (f : Spad → Spad) : (s.modSpad f).latchHi = s.latchHi := rfl
@[simp] theorem modSpad_ddr (f : Spad → Spad) : (s.modSpad f).ddr = s.ddr := rfl
@[simp] theorem modSpad_bus (f : Spad → Spad) : (s.modSpad f).bus = s.bus := rfl
@[simp] theorem modSpad_tx (f : Spad → Spad) : (s.modSpad f).tx = s.tx := rfl
@[simp] theorem modSpad_faults (f : Spad → Spad) : (s.modSpad f).faults = s.faults := rfl
@[simp] theorem modSpad_rc (f : Spad → Spad) : (s.modSpad f).rc = s.rc := rfl
@[simp] theorem modSpad_clusters (f : Spad → Spad) : (s.modSpad f).clusters = s.clusters := rfl
@[simp] theorem modSpad_imem (f : Spad → Spad) : (s.modSpad f).imem = s.imem := rfl
@[simp] theorem modSpad_banks (f : Spad → Spad) : (s.modSpad f).banks = s.banks := rfl
@[simp] theorem modSpad_inbox (f : Spad → Spad) : (s.modSpad f).inbox = s.inbox := rfl
@[simp] theorem modSpad_held (f : Spad → Spad) : (s.modSpad f).held = s.held := rfl
@[simp] theorem modSpad_probes (f : Spad → Spad) : (s.modSpad f).probes = s.probes := rfl
@[simp] theorem modSpad_fabTrig (f : Spad → Spad) : (s.modSpad f).fabTrig = s.fabTrig := rfl
@[simp] theorem modSpad_dmb (f : Spad → Spad) : (s.modSpad f).dmb = s.dmb := rfl
@[simp] theorem modSpad_acc (f : Spad → Spad) : (s.modSpad f).acc = s.acc := rfl
@[simp] theorem modSpad_scrubPos (f : Spad → Spad) : (s.modSpad f).scrubPos = s.scrubPos := rfl
@[simp] theorem modSpad_stepped (f : Spad → Spad) : (s.modSpad f).stepped = s.stepped := rfl
@[simp] theorem modSpad_links (f : Spad → Spad) : (s.modSpad f).links = s.links := rfl
@[simp] theorem modSpad_lines (f : Spad → Spad) : (s.modSpad f).lines = s.lines := rfl
@[simp] theorem modSpad_net (f : Spad → Spad) : (s.modSpad f).net = s.net := rfl
@[simp] theorem modSpad_crypt (f : Spad → Spad) : (s.modSpad f).crypt = s.crypt := rfl
@[simp] theorem modSpad_spoor (f : Spad → Spad) : (s.modSpad f).spoor = s.spoor := rfl
@[simp] theorem modSpad_lynx (f : Spad → Spad) : (s.modSpad f).lynx = s.lynx := rfl
@[simp] theorem modSpad_ring (f : Spad → Spad) : (s.modSpad f).ring = s.ring := rfl
@[simp] theorem modSpad_spad (f : Spad → Spad) : (s.modSpad f).spad = f s.spad := rfl
@[simp] theorem modSpad_acq (f : Spad → Spad) : (s.modSpad f).acq = s.acq := rfl
@[simp] theorem modSpad_time (f : Spad → Spad) : (s.modSpad f).time = s.time := rfl
@[simp] theorem modSpad_power (f : Spad → Spad) : (s.modSpad f).power = s.power := rfl
@[simp] theorem modSpad_badger (f : Spad → Spad) : (s.modSpad f).badger = s.badger := rfl
@[simp] theorem modSpad_ports (f : Spad → Spad) : (s.modSpad f).ports = s.ports := rfl
@[simp] theorem modSpad_tests (f : Spad → Spad) : (s.modSpad f).tests = s.tests := rfl
@[simp] theorem modSpad_shale (f : Spad → Spad) : (s.modSpad f).shale = s.shale := rfl
@[simp] theorem modSpad_dbg (f : Spad → Spad) : (s.modSpad f).dbg = s.dbg := rfl
@[simp] theorem modSpad_boot (f : Spad → Spad) : (s.modSpad f).boot = s.boot := rfl
@[simp] theorem modSpad_host (f : Spad → Spad) : (s.modSpad f).host = s.host := rfl
@[simp] theorem modSpad_freeCount (f : Spad → Spad) : (s.modSpad f).freeCount = s.freeCount := rfl

/-! ## modSh -/

@[simp] theorem modSh_pending (f : Shale → Shale) : (s.modSh f).pending = s.pending := rfl
@[simp] theorem modSh_fuses (f : Shale → Shale) : (s.modSh f).fuses = s.fuses := rfl
@[simp] theorem modSh_csr (f : Shale → Shale) : (s.modSh f).csr = s.csr := rfl
@[simp] theorem modSh_latchHi (f : Shale → Shale) : (s.modSh f).latchHi = s.latchHi := rfl
@[simp] theorem modSh_ddr (f : Shale → Shale) : (s.modSh f).ddr = s.ddr := rfl
@[simp] theorem modSh_bus (f : Shale → Shale) : (s.modSh f).bus = s.bus := rfl
@[simp] theorem modSh_tx (f : Shale → Shale) : (s.modSh f).tx = s.tx := rfl
@[simp] theorem modSh_faults (f : Shale → Shale) : (s.modSh f).faults = s.faults := rfl
@[simp] theorem modSh_rc (f : Shale → Shale) : (s.modSh f).rc = s.rc := rfl
@[simp] theorem modSh_clusters (f : Shale → Shale) : (s.modSh f).clusters = s.clusters := rfl
@[simp] theorem modSh_imem (f : Shale → Shale) : (s.modSh f).imem = s.imem := rfl
@[simp] theorem modSh_banks (f : Shale → Shale) : (s.modSh f).banks = s.banks := rfl
@[simp] theorem modSh_inbox (f : Shale → Shale) : (s.modSh f).inbox = s.inbox := rfl
@[simp] theorem modSh_held (f : Shale → Shale) : (s.modSh f).held = s.held := rfl
@[simp] theorem modSh_probes (f : Shale → Shale) : (s.modSh f).probes = s.probes := rfl
@[simp] theorem modSh_fabTrig (f : Shale → Shale) : (s.modSh f).fabTrig = s.fabTrig := rfl
@[simp] theorem modSh_dmb (f : Shale → Shale) : (s.modSh f).dmb = s.dmb := rfl
@[simp] theorem modSh_acc (f : Shale → Shale) : (s.modSh f).acc = s.acc := rfl
@[simp] theorem modSh_scrubPos (f : Shale → Shale) : (s.modSh f).scrubPos = s.scrubPos := rfl
@[simp] theorem modSh_stepped (f : Shale → Shale) : (s.modSh f).stepped = s.stepped := rfl
@[simp] theorem modSh_links (f : Shale → Shale) : (s.modSh f).links = s.links := rfl
@[simp] theorem modSh_lines (f : Shale → Shale) : (s.modSh f).lines = s.lines := rfl
@[simp] theorem modSh_net (f : Shale → Shale) : (s.modSh f).net = s.net := rfl
@[simp] theorem modSh_crypt (f : Shale → Shale) : (s.modSh f).crypt = s.crypt := rfl
@[simp] theorem modSh_spoor (f : Shale → Shale) : (s.modSh f).spoor = s.spoor := rfl
@[simp] theorem modSh_lynx (f : Shale → Shale) : (s.modSh f).lynx = s.lynx := rfl
@[simp] theorem modSh_ring (f : Shale → Shale) : (s.modSh f).ring = s.ring := rfl
@[simp] theorem modSh_spad (f : Shale → Shale) : (s.modSh f).spad = s.spad := rfl
@[simp] theorem modSh_acq (f : Shale → Shale) : (s.modSh f).acq = s.acq := rfl
@[simp] theorem modSh_time (f : Shale → Shale) : (s.modSh f).time = s.time := rfl
@[simp] theorem modSh_power (f : Shale → Shale) : (s.modSh f).power = s.power := rfl
@[simp] theorem modSh_badger (f : Shale → Shale) : (s.modSh f).badger = s.badger := rfl
@[simp] theorem modSh_ports (f : Shale → Shale) : (s.modSh f).ports = s.ports := rfl
@[simp] theorem modSh_tests (f : Shale → Shale) : (s.modSh f).tests = s.tests := rfl
@[simp] theorem modSh_shale (f : Shale → Shale) : (s.modSh f).shale = f s.shale := rfl
@[simp] theorem modSh_dbg (f : Shale → Shale) : (s.modSh f).dbg = s.dbg := rfl
@[simp] theorem modSh_boot (f : Shale → Shale) : (s.modSh f).boot = s.boot := rfl
@[simp] theorem modSh_host (f : Shale → Shale) : (s.modSh f).host = s.host := rfl
@[simp] theorem modSh_freeCount (f : Shale → Shale) : (s.modSh f).freeCount = s.freeCount := rfl

/-! ## modTime -/

@[simp] theorem modTime_pending (f : TimeBase → TimeBase) : (s.modTime f).pending = s.pending := rfl
@[simp] theorem modTime_fuses (f : TimeBase → TimeBase) : (s.modTime f).fuses = s.fuses := rfl
@[simp] theorem modTime_csr (f : TimeBase → TimeBase) : (s.modTime f).csr = s.csr := rfl
@[simp] theorem modTime_latchHi (f : TimeBase → TimeBase) : (s.modTime f).latchHi = s.latchHi := rfl
@[simp] theorem modTime_ddr (f : TimeBase → TimeBase) : (s.modTime f).ddr = s.ddr := rfl
@[simp] theorem modTime_bus (f : TimeBase → TimeBase) : (s.modTime f).bus = s.bus := rfl
@[simp] theorem modTime_tx (f : TimeBase → TimeBase) : (s.modTime f).tx = s.tx := rfl
@[simp] theorem modTime_faults (f : TimeBase → TimeBase) : (s.modTime f).faults = s.faults := rfl
@[simp] theorem modTime_rc (f : TimeBase → TimeBase) : (s.modTime f).rc = s.rc := rfl
@[simp] theorem modTime_clusters (f : TimeBase → TimeBase) : (s.modTime f).clusters = s.clusters := rfl
@[simp] theorem modTime_imem (f : TimeBase → TimeBase) : (s.modTime f).imem = s.imem := rfl
@[simp] theorem modTime_banks (f : TimeBase → TimeBase) : (s.modTime f).banks = s.banks := rfl
@[simp] theorem modTime_inbox (f : TimeBase → TimeBase) : (s.modTime f).inbox = s.inbox := rfl
@[simp] theorem modTime_held (f : TimeBase → TimeBase) : (s.modTime f).held = s.held := rfl
@[simp] theorem modTime_probes (f : TimeBase → TimeBase) : (s.modTime f).probes = s.probes := rfl
@[simp] theorem modTime_fabTrig (f : TimeBase → TimeBase) : (s.modTime f).fabTrig = s.fabTrig := rfl
@[simp] theorem modTime_dmb (f : TimeBase → TimeBase) : (s.modTime f).dmb = s.dmb := rfl
@[simp] theorem modTime_acc (f : TimeBase → TimeBase) : (s.modTime f).acc = s.acc := rfl
@[simp] theorem modTime_scrubPos (f : TimeBase → TimeBase) : (s.modTime f).scrubPos = s.scrubPos := rfl
@[simp] theorem modTime_stepped (f : TimeBase → TimeBase) : (s.modTime f).stepped = s.stepped := rfl
@[simp] theorem modTime_links (f : TimeBase → TimeBase) : (s.modTime f).links = s.links := rfl
@[simp] theorem modTime_lines (f : TimeBase → TimeBase) : (s.modTime f).lines = s.lines := rfl
@[simp] theorem modTime_net (f : TimeBase → TimeBase) : (s.modTime f).net = s.net := rfl
@[simp] theorem modTime_crypt (f : TimeBase → TimeBase) : (s.modTime f).crypt = s.crypt := rfl
@[simp] theorem modTime_spoor (f : TimeBase → TimeBase) : (s.modTime f).spoor = s.spoor := rfl
@[simp] theorem modTime_lynx (f : TimeBase → TimeBase) : (s.modTime f).lynx = s.lynx := rfl
@[simp] theorem modTime_ring (f : TimeBase → TimeBase) : (s.modTime f).ring = s.ring := rfl
@[simp] theorem modTime_spad (f : TimeBase → TimeBase) : (s.modTime f).spad = s.spad := rfl
@[simp] theorem modTime_acq (f : TimeBase → TimeBase) : (s.modTime f).acq = s.acq := rfl
@[simp] theorem modTime_time (f : TimeBase → TimeBase) : (s.modTime f).time = f s.time := rfl
@[simp] theorem modTime_power (f : TimeBase → TimeBase) : (s.modTime f).power = s.power := rfl
@[simp] theorem modTime_badger (f : TimeBase → TimeBase) : (s.modTime f).badger = s.badger := rfl
@[simp] theorem modTime_ports (f : TimeBase → TimeBase) : (s.modTime f).ports = s.ports := rfl
@[simp] theorem modTime_tests (f : TimeBase → TimeBase) : (s.modTime f).tests = s.tests := rfl
@[simp] theorem modTime_shale (f : TimeBase → TimeBase) : (s.modTime f).shale = s.shale := rfl
@[simp] theorem modTime_dbg (f : TimeBase → TimeBase) : (s.modTime f).dbg = s.dbg := rfl
@[simp] theorem modTime_boot (f : TimeBase → TimeBase) : (s.modTime f).boot = s.boot := rfl
@[simp] theorem modTime_host (f : TimeBase → TimeBase) : (s.modTime f).host = s.host := rfl
@[simp] theorem modTime_freeCount (f : TimeBase → TimeBase) : (s.modTime f).freeCount = s.freeCount := rfl

/-! ## modPort -/

@[simp] theorem modPort_pending (p : Nat) (f : Port → Port) : (s.modPort p f).pending = s.pending := rfl
@[simp] theorem modPort_fuses (p : Nat) (f : Port → Port) : (s.modPort p f).fuses = s.fuses := rfl
@[simp] theorem modPort_csr (p : Nat) (f : Port → Port) : (s.modPort p f).csr = s.csr := rfl
@[simp] theorem modPort_latchHi (p : Nat) (f : Port → Port) : (s.modPort p f).latchHi = s.latchHi := rfl
@[simp] theorem modPort_ddr (p : Nat) (f : Port → Port) : (s.modPort p f).ddr = s.ddr := rfl
@[simp] theorem modPort_bus (p : Nat) (f : Port → Port) : (s.modPort p f).bus = s.bus := rfl
@[simp] theorem modPort_tx (p : Nat) (f : Port → Port) : (s.modPort p f).tx = s.tx := rfl
@[simp] theorem modPort_faults (p : Nat) (f : Port → Port) : (s.modPort p f).faults = s.faults := rfl
@[simp] theorem modPort_rc (p : Nat) (f : Port → Port) : (s.modPort p f).rc = s.rc := rfl
@[simp] theorem modPort_clusters (p : Nat) (f : Port → Port) : (s.modPort p f).clusters = s.clusters := rfl
@[simp] theorem modPort_imem (p : Nat) (f : Port → Port) : (s.modPort p f).imem = s.imem := rfl
@[simp] theorem modPort_banks (p : Nat) (f : Port → Port) : (s.modPort p f).banks = s.banks := rfl
@[simp] theorem modPort_inbox (p : Nat) (f : Port → Port) : (s.modPort p f).inbox = s.inbox := rfl
@[simp] theorem modPort_held (p : Nat) (f : Port → Port) : (s.modPort p f).held = s.held := rfl
@[simp] theorem modPort_probes (p : Nat) (f : Port → Port) : (s.modPort p f).probes = s.probes := rfl
@[simp] theorem modPort_fabTrig (p : Nat) (f : Port → Port) : (s.modPort p f).fabTrig = s.fabTrig := rfl
@[simp] theorem modPort_dmb (p : Nat) (f : Port → Port) : (s.modPort p f).dmb = s.dmb := rfl
@[simp] theorem modPort_acc (p : Nat) (f : Port → Port) : (s.modPort p f).acc = s.acc := rfl
@[simp] theorem modPort_scrubPos (p : Nat) (f : Port → Port) : (s.modPort p f).scrubPos = s.scrubPos := rfl
@[simp] theorem modPort_stepped (p : Nat) (f : Port → Port) : (s.modPort p f).stepped = s.stepped := rfl
@[simp] theorem modPort_links (p : Nat) (f : Port → Port) : (s.modPort p f).links = s.links := rfl
@[simp] theorem modPort_lines (p : Nat) (f : Port → Port) : (s.modPort p f).lines = s.lines := rfl
@[simp] theorem modPort_net (p : Nat) (f : Port → Port) : (s.modPort p f).net = s.net := rfl
@[simp] theorem modPort_crypt (p : Nat) (f : Port → Port) : (s.modPort p f).crypt = s.crypt := rfl
@[simp] theorem modPort_spoor (p : Nat) (f : Port → Port) : (s.modPort p f).spoor = s.spoor := rfl
@[simp] theorem modPort_lynx (p : Nat) (f : Port → Port) : (s.modPort p f).lynx = s.lynx := rfl
@[simp] theorem modPort_ring (p : Nat) (f : Port → Port) : (s.modPort p f).ring = s.ring := rfl
@[simp] theorem modPort_spad (p : Nat) (f : Port → Port) : (s.modPort p f).spad = s.spad := rfl
@[simp] theorem modPort_acq (p : Nat) (f : Port → Port) : (s.modPort p f).acq = s.acq := rfl
@[simp] theorem modPort_time (p : Nat) (f : Port → Port) : (s.modPort p f).time = s.time := rfl
@[simp] theorem modPort_power (p : Nat) (f : Port → Port) : (s.modPort p f).power = s.power := rfl
@[simp] theorem modPort_badger (p : Nat) (f : Port → Port) : (s.modPort p f).badger = s.badger := rfl
@[simp] theorem modPort_ports (p : Nat) (f : Port → Port) : (s.modPort p f).ports = s.ports.set (fun _ => {}) p (f (s.prt p)) := rfl
@[simp] theorem modPort_tests (p : Nat) (f : Port → Port) : (s.modPort p f).tests = s.tests := rfl
@[simp] theorem modPort_shale (p : Nat) (f : Port → Port) : (s.modPort p f).shale = s.shale := rfl
@[simp] theorem modPort_dbg (p : Nat) (f : Port → Port) : (s.modPort p f).dbg = s.dbg := rfl
@[simp] theorem modPort_boot (p : Nat) (f : Port → Port) : (s.modPort p f).boot = s.boot := rfl
@[simp] theorem modPort_host (p : Nat) (f : Port → Port) : (s.modPort p f).host = s.host := rfl
@[simp] theorem modPort_freeCount (p : Nat) (f : Port → Port) : (s.modPort p f).freeCount = s.freeCount := rfl

end Sys2Proof.Machine
end

