-- ==== Sys2Proof/Laws/Ops.lean ====
section
/-!
SUPPORT. The laws of the shared operations: what a register write does to every register, and what an interrupt cause
or a fault record can change.
-/

namespace Sys2Proof.Machine

variable (s : State)

/-! ## Registers -/

/-- A register written reads as its 32 bits. -/
@[simp] theorem rd_wr_same (off v : Nat) : (s.wr off v).rd off = v % 2 ^ 32 := by
  simp only [State.rd, wr_csr, wr_fuses, Map.get_set_same, BitVec.toNat_ofNat]

/-- Every other register is left alone. -/
theorem rd_wr_other (off v r : Nat) (h : r ≠ off) : (s.wr off v).rd r = s.rd r := by
  simp only [State.rd, wr_csr, wr_fuses, Map.get_set_other _ _ _ _ _ h]

theorem rd_wr (off v r : Nat) : (s.wr off v).rd r = if r = off then v % 2 ^ 32 else s.rd r := by
  split_ifs with h
  · subst h; exact rd_wr_same s r v
  · exact rd_wr_other s off v r h

/-- A register is 32 bits. -/
theorem rd_lt (off : Nat) : s.rd off < 2 ^ 32 := (s.csr.get (regReset s.fuses) off).isLt

/-- What a register holds depends on the register file and the fuses alone. -/
theorem rd_congr {s t : State} (h : t.csr = s.csr) (hf : t.fuses = s.fuses) (off : Nat) : t.rd off = s.rd off := by
  simp only [State.rd, h, hf]

theorem rd_setFld_other (off l w v r : Nat) (h : r ≠ off) : (s.setFld off l w v).rd r = s.rd r := rd_wr_other s _ _ _ h
theorem rd_setFlag_other (off i r : Nat) (b : Bool) (h : r ≠ off) : (s.setFlag off i b).rd r = s.rd r :=
  rd_wr_other s _ _ _ h
theorem rd_count_other (off l w k r : Nat) (h : r ≠ off) : (s.count off l w k).rd r = s.rd r := rd_wr_other s _ _ _ h

@[simp] theorem rd_modRc (f : RunCtl → RunCtl) (off : Nat) : (s.modRc f).rd off = s.rd off := rfl
@[simp] theorem rd_emit (l : List TxItem) (off : Nat) : (s.emit l).rd off = s.rd off := rfl
@[simp] theorem rd_setCl (c : Nat) (v : Cluster) (off : Nat) : (s.setCl c v).rd off = s.rd off := rfl
@[simp] theorem rd_modBg (f : Badger → Badger) (off : Nat) : (s.modBg f).rd off = s.rd off := rfl

/-! ## Named parts -/

@[simp] theorem cl_setCl_same (c : Nat) (v : Cluster) : (s.setCl c v).cl c = v := by simp [State.cl]
theorem cl_setCl_other (c d : Nat) (v : Cluster) (h : d ≠ c) : (s.setCl c v).cl d = s.cl d := by
  simp [State.cl, Map.get_set_other _ _ _ _ _ h]
@[simp] theorem link_setLink_same (p : Nat) (v : Link) : (s.setLink p v).link p = v := by simp [State.link]
theorem link_setLink_other (p q : Nat) (v : Link) (h : q ≠ p) : (s.setLink p v).link q = s.link q := by
  simp [State.link, Map.get_set_other _ _ _ _ _ h]

/-! ## Interrupts and records

Each of these changes registers, the fault queues and what left the device, and nothing else. -/

theorem msix_eta (v : Nat) : s.msix v = { s with csr := (s.msix v).csr, tx := (s.msix v).tx } := by
  unfold State.msix; split_ifs <;> rfl

theorem irqEdges_eta (s0 : State) (l : List Nat) :
    State.irqEdges s0 s l = { s with csr := (State.irqEdges s0 s l).csr, tx := (State.irqEdges s0 s l).tx } := by
  unfold State.irqEdges
  generalize hs : s = u
  suffices h : ∀ (l : List Nat) (t : State), t = { u with csr := t.csr, tx := t.tx } →
      ∀ r, r = l.foldl (fun t i =>
        if !s0.asserted i && u.asserted i && u.flag (Reg.INT_ROUTE i) 31 then t.msix (u.fld (Reg.INT_ROUTE i) 24 6)
        else t) t → r = { u with csr := r.csr, tx := r.tx } from h l u rfl _ rfl
  intro l
  induction l with
  | nil => rintro t ht r rfl; exact ht
  | cons i l ih =>
    rintro t ht r rfl
    refine ih _ ?_ _ rfl
    beta_reduce
    split
    · have hm := msix_eta t (u.fld (Reg.INT_ROUTE i) 24 6)
      rw [ht] at hm ⊢
      exact hm
    · exact ht

theorem raise_eta (i b : Nat) : s.raise i b = { s with csr := (s.raise i b).csr, tx := (s.raise i b).tx } := by
  unfold State.raise
  cases intStatOf i with
  | none => rfl
  | some off => exact irqEdges_eta (s.setFlag off b true) s [i]

theorem queueRecord_eta (r : Record) : s.queueRecord r =
    { s with csr := (s.queueRecord r).csr, faults := (s.queueRecord r).faults, tx := (s.queueRecord r).tx } := by
  unfold State.queueRecord
  simp only
  split_ifs
  · rw [raise_eta]; rfl
  · rfl

theorem recordAt_eta (a b c d e : Nat) : s.recordAt a b c d e = { s with
    csr := (s.recordAt a b c d e).csr, faults := (s.recordAt a b c d e).faults, tx := (s.recordAt a b c d e).tx } :=
  queueRecord_eta s _

theorem record_eta (a b c d : Nat) : s.record a b c d = { s with
    csr := (s.record a b c d).csr, faults := (s.record a b c d).faults, tx := (s.record a b c d).tx } :=
  queueRecord_eta s _

theorem reject_eta (a b c : Nat) : s.reject a b c = { s with
    csr := (s.reject a b c).csr, faults := (s.reject a b c).faults, tx := (s.reject a b c).tx } :=
  queueRecord_eta s _

@[simp] theorem msix_pending (v : Nat) : (s.msix v).pending = s.pending := by rw [msix_eta]
@[simp] theorem msix_fuses (v : Nat) : (s.msix v).fuses = s.fuses := by rw [msix_eta]
@[simp] theorem msix_latchHi (v : Nat) : (s.msix v).latchHi = s.latchHi := by rw [msix_eta]
@[simp] theorem msix_ddr (v : Nat) : (s.msix v).ddr = s.ddr := by rw [msix_eta]
@[simp] theorem msix_bus (v : Nat) : (s.msix v).bus = s.bus := by rw [msix_eta]
@[simp] theorem msix_faults (v : Nat) : (s.msix v).faults = s.faults := by rw [msix_eta]
@[simp] theorem msix_rc (v : Nat) : (s.msix v).rc = s.rc := by rw [msix_eta]
@[simp] theorem msix_clusters (v : Nat) : (s.msix v).clusters = s.clusters := by rw [msix_eta]
@[simp] theorem msix_imem (v : Nat) : (s.msix v).imem = s.imem := by rw [msix_eta]
@[simp] theorem msix_banks (v : Nat) : (s.msix v).banks = s.banks := by rw [msix_eta]
@[simp] theorem msix_inbox (v : Nat) : (s.msix v).inbox = s.inbox := by rw [msix_eta]
@[simp] theorem msix_held (v : Nat) : (s.msix v).held = s.held := by rw [msix_eta]
@[simp] theorem msix_probes (v : Nat) : (s.msix v).probes = s.probes := by rw [msix_eta]
@[simp] theorem msix_fabTrig (v : Nat) : (s.msix v).fabTrig = s.fabTrig := by rw [msix_eta]
@[simp] theorem msix_dmb (v : Nat) : (s.msix v).dmb = s.dmb := by rw [msix_eta]
@[simp] theorem msix_acc (v : Nat) : (s.msix v).acc = s.acc := by rw [msix_eta]
@[simp] theorem msix_scrubPos (v : Nat) : (s.msix v).scrubPos = s.scrubPos := by rw [msix_eta]
@[simp] theorem msix_stepped (v : Nat) : (s.msix v).stepped = s.stepped := by rw [msix_eta]
@[simp] theorem msix_links (v : Nat) : (s.msix v).links = s.links := by rw [msix_eta]
@[simp] theorem msix_lines (v : Nat) : (s.msix v).lines = s.lines := by rw [msix_eta]
@[simp] theorem msix_net (v : Nat) : (s.msix v).net = s.net := by rw [msix_eta]
@[simp] theorem msix_crypt (v : Nat) : (s.msix v).crypt = s.crypt := by rw [msix_eta]
@[simp] theorem msix_spoor (v : Nat) : (s.msix v).spoor = s.spoor := by rw [msix_eta]
@[simp] theorem msix_lynx (v : Nat) : (s.msix v).lynx = s.lynx := by rw [msix_eta]
@[simp] theorem msix_ring (v : Nat) : (s.msix v).ring = s.ring := by rw [msix_eta]
@[simp] theorem msix_spad (v : Nat) : (s.msix v).spad = s.spad := by rw [msix_eta]
@[simp] theorem msix_acq (v : Nat) : (s.msix v).acq = s.acq := by rw [msix_eta]
@[simp] theorem msix_time (v : Nat) : (s.msix v).time = s.time := by rw [msix_eta]
@[simp] theorem msix_power (v : Nat) : (s.msix v).power = s.power := by rw [msix_eta]
@[simp] theorem msix_badger (v : Nat) : (s.msix v).badger = s.badger := by rw [msix_eta]
@[simp] theorem msix_ports (v : Nat) : (s.msix v).ports = s.ports := by rw [msix_eta]
@[simp] theorem msix_tests (v : Nat) : (s.msix v).tests = s.tests := by rw [msix_eta]
@[simp] theorem msix_shale (v : Nat) : (s.msix v).shale = s.shale := by rw [msix_eta]
@[simp] theorem msix_dbg (v : Nat) : (s.msix v).dbg = s.dbg := by rw [msix_eta]
@[simp] theorem msix_boot (v : Nat) : (s.msix v).boot = s.boot := by rw [msix_eta]
@[simp] theorem msix_host (v : Nat) : (s.msix v).host = s.host := by rw [msix_eta]
@[simp] theorem msix_freeCount (v : Nat) : (s.msix v).freeCount = s.freeCount := by rw [msix_eta]

@[simp] theorem raise_pending (i b : Nat) : (s.raise i b).pending = s.pending := by rw [raise_eta]
@[simp] theorem raise_fuses (i b : Nat) : (s.raise i b).fuses = s.fuses := by rw [raise_eta]
@[simp] theorem raise_latchHi (i b : Nat) : (s.raise i b).latchHi = s.latchHi := by rw [raise_eta]
@[simp] theorem raise_ddr (i b : Nat) : (s.raise i b).ddr = s.ddr := by rw [raise_eta]
@[simp] theorem raise_bus (i b : Nat) : (s.raise i b).bus = s.bus := by rw [raise_eta]
@[simp] theorem raise_faults (i b : Nat) : (s.raise i b).faults = s.faults := by rw [raise_eta]
@[simp] theorem raise_rc (i b : Nat) : (s.raise i b).rc = s.rc := by rw [raise_eta]
@[simp] theorem raise_clusters (i b : Nat) : (s.raise i b).clusters = s.clusters := by rw [raise_eta]
@[simp] theorem raise_imem (i b : Nat) : (s.raise i b).imem = s.imem := by rw [raise_eta]
@[simp] theorem raise_banks (i b : Nat) : (s.raise i b).banks = s.banks := by rw [raise_eta]
@[simp] theorem raise_inbox (i b : Nat) : (s.raise i b).inbox = s.inbox := by rw [raise_eta]
@[simp] theorem raise_held (i b : Nat) : (s.raise i b).held = s.held := by rw [raise_eta]
@[simp] theorem raise_probes (i b : Nat) : (s.raise i b).probes = s.probes := by rw [raise_eta]
@[simp] theorem raise_fabTrig (i b : Nat) : (s.raise i b).fabTrig = s.fabTrig := by rw [raise_eta]
@[simp] theorem raise_dmb (i b : Nat) : (s.raise i b).dmb = s.dmb := by rw [raise_eta]
@[simp] theorem raise_acc (i b : Nat) : (s.raise i b).acc = s.acc := by rw [raise_eta]
@[simp] theorem raise_scrubPos (i b : Nat) : (s.raise i b).scrubPos = s.scrubPos := by rw [raise_eta]
@[simp] theorem raise_stepped (i b : Nat) : (s.raise i b).stepped = s.stepped := by rw [raise_eta]
@[simp] theorem raise_links (i b : Nat) : (s.raise i b).links = s.links := by rw [raise_eta]
@[simp] theorem raise_lines (i b : Nat) : (s.raise i b).lines = s.lines := by rw [raise_eta]
@[simp] theorem raise_net (i b : Nat) : (s.raise i b).net = s.net := by rw [raise_eta]
@[simp] theorem raise_crypt (i b : Nat) : (s.raise i b).crypt = s.crypt := by rw [raise_eta]
@[simp] theorem raise_spoor (i b : Nat) : (s.raise i b).spoor = s.spoor := by rw [raise_eta]
@[simp] theorem raise_lynx (i b : Nat) : (s.raise i b).lynx = s.lynx := by rw [raise_eta]
@[simp] theorem raise_ring (i b : Nat) : (s.raise i b).ring = s.ring := by rw [raise_eta]
@[simp] theorem raise_spad (i b : Nat) : (s.raise i b).spad = s.spad := by rw [raise_eta]
@[simp] theorem raise_acq (i b : Nat) : (s.raise i b).acq = s.acq := by rw [raise_eta]
@[simp] theorem raise_time (i b : Nat) : (s.raise i b).time = s.time := by rw [raise_eta]
@[simp] theorem raise_power (i b : Nat) : (s.raise i b).power = s.power := by rw [raise_eta]
@[simp] theorem raise_badger (i b : Nat) : (s.raise i b).badger = s.badger := by rw [raise_eta]
@[simp] theorem raise_ports (i b : Nat) : (s.raise i b).ports = s.ports := by rw [raise_eta]
@[simp] theorem raise_tests (i b : Nat) : (s.raise i b).tests = s.tests := by rw [raise_eta]
@[simp] theorem raise_shale (i b : Nat) : (s.raise i b).shale = s.shale := by rw [raise_eta]
@[simp] theorem raise_dbg (i b : Nat) : (s.raise i b).dbg = s.dbg := by rw [raise_eta]
@[simp] theorem raise_boot (i b : Nat) : (s.raise i b).boot = s.boot := by rw [raise_eta]
@[simp] theorem raise_host (i b : Nat) : (s.raise i b).host = s.host := by rw [raise_eta]
@[simp] theorem raise_freeCount (i b : Nat) : (s.raise i b).freeCount = s.freeCount := by rw [raise_eta]

@[simp] theorem queueRecord_pending (r : Record) : (s.queueRecord r).pending = s.pending := by rw [queueRecord_eta]
@[simp] theorem queueRecord_fuses (r : Record) : (s.queueRecord r).fuses = s.fuses := by rw [queueRecord_eta]
@[simp] theorem queueRecord_latchHi (r : Record) : (s.queueRecord r).latchHi = s.latchHi := by rw [queueRecord_eta]
@[simp] theorem queueRecord_ddr (r : Record) : (s.queueRecord r).ddr = s.ddr := by rw [queueRecord_eta]
@[simp] theorem queueRecord_bus (r : Record) : (s.queueRecord r).bus = s.bus := by rw [queueRecord_eta]
@[simp] theorem queueRecord_rc (r : Record) : (s.queueRecord r).rc = s.rc := by rw [queueRecord_eta]
@[simp] theorem queueRecord_clusters (r : Record) : (s.queueRecord r).clusters = s.clusters := by rw [queueRecord_eta]
@[simp] theorem queueRecord_imem (r : Record) : (s.queueRecord r).imem = s.imem := by rw [queueRecord_eta]
@[simp] theorem queueRecord_banks (r : Record) : (s.queueRecord r).banks = s.banks := by rw [queueRecord_eta]
@[simp] theorem queueRecord_inbox (r : Record) : (s.queueRecord r).inbox = s.inbox := by rw [queueRecord_eta]
@[simp] theorem queueRecord_held (r : Record) : (s.queueRecord r).held = s.held := by rw [queueRecord_eta]
@[simp] theorem queueRecord_probes (r : Record) : (s.queueRecord r).probes = s.probes := by rw [queueRecord_eta]
@[simp] theorem queueRecord_fabTrig (r : Record) : (s.queueRecord r).fabTrig = s.fabTrig := by rw [queueRecord_eta]
@[simp] theorem queueRecord_dmb (r : Record) : (s.queueRecord r).dmb = s.dmb := by rw [queueRecord_eta]
@[simp] theorem queueRecord_acc (r : Record) : (s.queueRecord r).acc = s.acc := by rw [queueRecord_eta]
@[simp] theorem queueRecord_scrubPos (r : Record) : (s.queueRecord r).scrubPos = s.scrubPos := by rw [queueRecord_eta]
@[simp] theorem queueRecord_stepped (r : Record) : (s.queueRecord r).stepped = s.stepped := by rw [queueRecord_eta]
@[simp] theorem queueRecord_links (r : Record) : (s.queueRecord r).links = s.links := by rw [queueRecord_eta]
@[simp] theorem queueRecord_lines (r : Record) : (s.queueRecord r).lines = s.lines := by rw [queueRecord_eta]
@[simp] theorem queueRecord_net (r : Record) : (s.queueRecord r).net = s.net := by rw [queueRecord_eta]
@[simp] theorem queueRecord_crypt (r : Record) : (s.queueRecord r).crypt = s.crypt := by rw [queueRecord_eta]
@[simp] theorem queueRecord_spoor (r : Record) : (s.queueRecord r).spoor = s.spoor := by rw [queueRecord_eta]
@[simp] theorem queueRecord_lynx (r : Record) : (s.queueRecord r).lynx = s.lynx := by rw [queueRecord_eta]
@[simp] theorem queueRecord_ring (r : Record) : (s.queueRecord r).ring = s.ring := by rw [queueRecord_eta]
@[simp] theorem queueRecord_spad (r : Record) : (s.queueRecord r).spad = s.spad := by rw [queueRecord_eta]
@[simp] theorem queueRecord_acq (r : Record) : (s.queueRecord r).acq = s.acq := by rw [queueRecord_eta]
@[simp] theorem queueRecord_time (r : Record) : (s.queueRecord r).time = s.time := by rw [queueRecord_eta]
@[simp] theorem queueRecord_power (r : Record) : (s.queueRecord r).power = s.power := by rw [queueRecord_eta]
@[simp] theorem queueRecord_badger (r : Record) : (s.queueRecord r).badger = s.badger := by rw [queueRecord_eta]
@[simp] theorem queueRecord_ports (r : Record) : (s.queueRecord r).ports = s.ports := by rw [queueRecord_eta]
@[simp] theorem queueRecord_tests (r : Record) : (s.queueRecord r).tests = s.tests := by rw [queueRecord_eta]
@[simp] theorem queueRecord_shale (r : Record) : (s.queueRecord r).shale = s.shale := by rw [queueRecord_eta]
@[simp] theorem queueRecord_dbg (r : Record) : (s.queueRecord r).dbg = s.dbg := by rw [queueRecord_eta]
@[simp] theorem queueRecord_boot (r : Record) : (s.queueRecord r).boot = s.boot := by rw [queueRecord_eta]
@[simp] theorem queueRecord_host (r : Record) : (s.queueRecord r).host = s.host := by rw [queueRecord_eta]
@[simp] theorem queueRecord_freeCount (r : Record) : (s.queueRecord r).freeCount = s.freeCount := by rw [queueRecord_eta]

@[simp] theorem recordAt_pending (a b c d e : Nat) : (s.recordAt a b c d e).pending = s.pending := by rw [recordAt_eta]
@[simp] theorem recordAt_fuses (a b c d e : Nat) : (s.recordAt a b c d e).fuses = s.fuses := by rw [recordAt_eta]
@[simp] theorem recordAt_latchHi (a b c d e : Nat) : (s.recordAt a b c d e).latchHi = s.latchHi := by rw [recordAt_eta]
@[simp] theorem recordAt_ddr (a b c d e : Nat) : (s.recordAt a b c d e).ddr = s.ddr := by rw [recordAt_eta]
@[simp] theorem recordAt_bus (a b c d e : Nat) : (s.recordAt a b c d e).bus = s.bus := by rw [recordAt_eta]
@[simp] theorem recordAt_rc (a b c d e : Nat) : (s.recordAt a b c d e).rc = s.rc := by rw [recordAt_eta]
@[simp] theorem recordAt_clusters (a b c d e : Nat) : (s.recordAt a b c d e).clusters = s.clusters := by rw [recordAt_eta]
@[simp] theorem recordAt_imem (a b c d e : Nat) : (s.recordAt a b c d e).imem = s.imem := by rw [recordAt_eta]
@[simp] theorem recordAt_banks (a b c d e : Nat) : (s.recordAt a b c d e).banks = s.banks := by rw [recordAt_eta]
@[simp] theorem recordAt_inbox (a b c d e : Nat) : (s.recordAt a b c d e).inbox = s.inbox := by rw [recordAt_eta]
@[simp] theorem recordAt_held (a b c d e : Nat) : (s.recordAt a b c d e).held = s.held := by rw [recordAt_eta]
@[simp] theorem recordAt_probes (a b c d e : Nat) : (s.recordAt a b c d e).probes = s.probes := by rw [recordAt_eta]
@[simp] theorem recordAt_fabTrig (a b c d e : Nat) : (s.recordAt a b c d e).fabTrig = s.fabTrig := by rw [recordAt_eta]
@[simp] theorem recordAt_dmb (a b c d e : Nat) : (s.recordAt a b c d e).dmb = s.dmb := by rw [recordAt_eta]
@[simp] theorem recordAt_acc (a b c d e : Nat) : (s.recordAt a b c d e).acc = s.acc := by rw [recordAt_eta]
@[simp] theorem recordAt_scrubPos (a b c d e : Nat) : (s.recordAt a b c d e).scrubPos = s.scrubPos := by rw [recordAt_eta]
@[simp] theorem recordAt_stepped (a b c d e : Nat) : (s.recordAt a b c d e).stepped = s.stepped := by rw [recordAt_eta]
@[simp] theorem recordAt_links (a b c d e : Nat) : (s.recordAt a b c d e).links = s.links := by rw [recordAt_eta]
@[simp] theorem recordAt_lines (a b c d e : Nat) : (s.recordAt a b c d e).lines = s.lines := by rw [recordAt_eta]
@[simp] theorem recordAt_net (a b c d e : Nat) : (s.recordAt a b c d e).net = s.net := by rw [recordAt_eta]
@[simp] theorem recordAt_crypt (a b c d e : Nat) : (s.recordAt a b c d e).crypt = s.crypt := by rw [recordAt_eta]
@[simp] theorem recordAt_spoor (a b c d e : Nat) : (s.recordAt a b c d e).spoor = s.spoor := by rw [recordAt_eta]
@[simp] theorem recordAt_lynx (a b c d e : Nat) : (s.recordAt a b c d e).lynx = s.lynx := by rw [recordAt_eta]
@[simp] theorem recordAt_ring (a b c d e : Nat) : (s.recordAt a b c d e).ring = s.ring := by rw [recordAt_eta]
@[simp] theorem recordAt_spad (a b c d e : Nat) : (s.recordAt a b c d e).spad = s.spad := by rw [recordAt_eta]
@[simp] theorem recordAt_acq (a b c d e : Nat) : (s.recordAt a b c d e).acq = s.acq := by rw [recordAt_eta]
@[simp] theorem recordAt_time (a b c d e : Nat) : (s.recordAt a b c d e).time = s.time := by rw [recordAt_eta]
@[simp] theorem recordAt_power (a b c d e : Nat) : (s.recordAt a b c d e).power = s.power := by rw [recordAt_eta]
@[simp] theorem recordAt_badger (a b c d e : Nat) : (s.recordAt a b c d e).badger = s.badger := by rw [recordAt_eta]
@[simp] theorem recordAt_ports (a b c d e : Nat) : (s.recordAt a b c d e).ports = s.ports := by rw [recordAt_eta]
@[simp] theorem recordAt_tests (a b c d e : Nat) : (s.recordAt a b c d e).tests = s.tests := by rw [recordAt_eta]
@[simp] theorem recordAt_shale (a b c d e : Nat) : (s.recordAt a b c d e).shale = s.shale := by rw [recordAt_eta]
@[simp] theorem recordAt_dbg (a b c d e : Nat) : (s.recordAt a b c d e).dbg = s.dbg := by rw [recordAt_eta]
@[simp] theorem recordAt_boot (a b c d e : Nat) : (s.recordAt a b c d e).boot = s.boot := by rw [recordAt_eta]
@[simp] theorem recordAt_host (a b c d e : Nat) : (s.recordAt a b c d e).host = s.host := by rw [recordAt_eta]
@[simp] theorem recordAt_freeCount (a b c d e : Nat) : (s.recordAt a b c d e).freeCount = s.freeCount := by rw [recordAt_eta]

@[simp] theorem record_pending (a b c d : Nat) : (s.record a b c d).pending = s.pending := by rw [record_eta]
@[simp] theorem record_fuses (a b c d : Nat) : (s.record a b c d).fuses = s.fuses := by rw [record_eta]
@[simp] theorem record_latchHi (a b c d : Nat) : (s.record a b c d).latchHi = s.latchHi := by rw [record_eta]
@[simp] theorem record_ddr (a b c d : Nat) : (s.record a b c d).ddr = s.ddr := by rw [record_eta]
@[simp] theorem record_bus (a b c d : Nat) : (s.record a b c d).bus = s.bus := by rw [record_eta]
@[simp] theorem record_rc (a b c d : Nat) : (s.record a b c d).rc = s.rc := by rw [record_eta]
@[simp] theorem record_clusters (a b c d : Nat) : (s.record a b c d).clusters = s.clusters := by rw [record_eta]
@[simp] theorem record_imem (a b c d : Nat) : (s.record a b c d).imem = s.imem := by rw [record_eta]
@[simp] theorem record_banks (a b c d : Nat) : (s.record a b c d).banks = s.banks := by rw [record_eta]
@[simp] theorem record_inbox (a b c d : Nat) : (s.record a b c d).inbox = s.inbox := by rw [record_eta]
@[simp] theorem record_held (a b c d : Nat) : (s.record a b c d).held = s.held := by rw [record_eta]
@[simp] theorem record_probes (a b c d : Nat) : (s.record a b c d).probes = s.probes := by rw [record_eta]
@[simp] theorem record_fabTrig (a b c d : Nat) : (s.record a b c d).fabTrig = s.fabTrig := by rw [record_eta]
@[simp] theorem record_dmb (a b c d : Nat) : (s.record a b c d).dmb = s.dmb := by rw [record_eta]
@[simp] theorem record_acc (a b c d : Nat) : (s.record a b c d).acc = s.acc := by rw [record_eta]
@[simp] theorem record_scrubPos (a b c d : Nat) : (s.record a b c d).scrubPos = s.scrubPos := by rw [record_eta]
@[simp] theorem record_stepped (a b c d : Nat) : (s.record a b c d).stepped = s.stepped := by rw [record_eta]
@[simp] theorem record_links (a b c d : Nat) : (s.record a b c d).links = s.links := by rw [record_eta]
@[simp] theorem record_lines (a b c d : Nat) : (s.record a b c d).lines = s.lines := by rw [record_eta]
@[simp] theorem record_net (a b c d : Nat) : (s.record a b c d).net = s.net := by rw [record_eta]
@[simp] theorem record_crypt (a b c d : Nat) : (s.record a b c d).crypt = s.crypt := by rw [record_eta]
@[simp] theorem record_spoor (a b c d : Nat) : (s.record a b c d).spoor = s.spoor := by rw [record_eta]
@[simp] theorem record_lynx (a b c d : Nat) : (s.record a b c d).lynx = s.lynx := by rw [record_eta]
@[simp] theorem record_ring (a b c d : Nat) : (s.record a b c d).ring = s.ring := by rw [record_eta]
@[simp] theorem record_spad (a b c d : Nat) : (s.record a b c d).spad = s.spad := by rw [record_eta]
@[simp] theorem record_acq (a b c d : Nat) : (s.record a b c d).acq = s.acq := by rw [record_eta]
@[simp] theorem record_time (a b c d : Nat) : (s.record a b c d).time = s.time := by rw [record_eta]
@[simp] theorem record_power (a b c d : Nat) : (s.record a b c d).power = s.power := by rw [record_eta]
@[simp] theorem record_badger (a b c d : Nat) : (s.record a b c d).badger = s.badger := by rw [record_eta]
@[simp] theorem record_ports (a b c d : Nat) : (s.record a b c d).ports = s.ports := by rw [record_eta]
@[simp] theorem record_tests (a b c d : Nat) : (s.record a b c d).tests = s.tests := by rw [record_eta]
@[simp] theorem record_shale (a b c d : Nat) : (s.record a b c d).shale = s.shale := by rw [record_eta]
@[simp] theorem record_dbg (a b c d : Nat) : (s.record a b c d).dbg = s.dbg := by rw [record_eta]
@[simp] theorem record_boot (a b c d : Nat) : (s.record a b c d).boot = s.boot := by rw [record_eta]
@[simp] theorem record_host (a b c d : Nat) : (s.record a b c d).host = s.host := by rw [record_eta]
@[simp] theorem record_freeCount (a b c d : Nat) : (s.record a b c d).freeCount = s.freeCount := by rw [record_eta]

@[simp] theorem reject_pending (a b c : Nat) : (s.reject a b c).pending = s.pending := by rw [reject_eta]
@[simp] theorem reject_fuses (a b c : Nat) : (s.reject a b c).fuses = s.fuses := by rw [reject_eta]
@[simp] theorem reject_latchHi (a b c : Nat) : (s.reject a b c).latchHi = s.latchHi := by rw [reject_eta]
@[simp] theorem reject_ddr (a b c : Nat) : (s.reject a b c).ddr = s.ddr := by rw [reject_eta]
@[simp] theorem reject_bus (a b c : Nat) : (s.reject a b c).bus = s.bus := by rw [reject_eta]
@[simp] theorem reject_rc (a b c : Nat) : (s.reject a b c).rc = s.rc := by rw [reject_eta]
@[simp] theorem reject_clusters (a b c : Nat) : (s.reject a b c).clusters = s.clusters := by rw [reject_eta]
@[simp] theorem reject_imem (a b c : Nat) : (s.reject a b c).imem = s.imem := by rw [reject_eta]
@[simp] theorem reject_banks (a b c : Nat) : (s.reject a b c).banks = s.banks := by rw [reject_eta]
@[simp] theorem reject_inbox (a b c : Nat) : (s.reject a b c).inbox = s.inbox := by rw [reject_eta]
@[simp] theorem reject_held (a b c : Nat) : (s.reject a b c).held = s.held := by rw [reject_eta]
@[simp] theorem reject_probes (a b c : Nat) : (s.reject a b c).probes = s.probes := by rw [reject_eta]
@[simp] theorem reject_fabTrig (a b c : Nat) : (s.reject a b c).fabTrig = s.fabTrig := by rw [reject_eta]
@[simp] theorem reject_dmb (a b c : Nat) : (s.reject a b c).dmb = s.dmb := by rw [reject_eta]
@[simp] theorem reject_acc (a b c : Nat) : (s.reject a b c).acc = s.acc := by rw [reject_eta]
@[simp] theorem reject_scrubPos (a b c : Nat) : (s.reject a b c).scrubPos = s.scrubPos := by rw [reject_eta]
@[simp] theorem reject_stepped (a b c : Nat) : (s.reject a b c).stepped = s.stepped := by rw [reject_eta]
@[simp] theorem reject_links (a b c : Nat) : (s.reject a b c).links = s.links := by rw [reject_eta]
@[simp] theorem reject_lines (a b c : Nat) : (s.reject a b c).lines = s.lines := by rw [reject_eta]
@[simp] theorem reject_net (a b c : Nat) : (s.reject a b c).net = s.net := by rw [reject_eta]
@[simp] theorem reject_crypt (a b c : Nat) : (s.reject a b c).crypt = s.crypt := by rw [reject_eta]
@[simp] theorem reject_spoor (a b c : Nat) : (s.reject a b c).spoor = s.spoor := by rw [reject_eta]
@[simp] theorem reject_lynx (a b c : Nat) : (s.reject a b c).lynx = s.lynx := by rw [reject_eta]
@[simp] theorem reject_ring (a b c : Nat) : (s.reject a b c).ring = s.ring := by rw [reject_eta]
@[simp] theorem reject_spad (a b c : Nat) : (s.reject a b c).spad = s.spad := by rw [reject_eta]
@[simp] theorem reject_acq (a b c : Nat) : (s.reject a b c).acq = s.acq := by rw [reject_eta]
@[simp] theorem reject_time (a b c : Nat) : (s.reject a b c).time = s.time := by rw [reject_eta]
@[simp] theorem reject_power (a b c : Nat) : (s.reject a b c).power = s.power := by rw [reject_eta]
@[simp] theorem reject_badger (a b c : Nat) : (s.reject a b c).badger = s.badger := by rw [reject_eta]
@[simp] theorem reject_ports (a b c : Nat) : (s.reject a b c).ports = s.ports := by rw [reject_eta]
@[simp] theorem reject_tests (a b c : Nat) : (s.reject a b c).tests = s.tests := by rw [reject_eta]
@[simp] theorem reject_shale (a b c : Nat) : (s.reject a b c).shale = s.shale := by rw [reject_eta]
@[simp] theorem reject_dbg (a b c : Nat) : (s.reject a b c).dbg = s.dbg := by rw [reject_eta]
@[simp] theorem reject_boot (a b c : Nat) : (s.reject a b c).boot = s.boot := by rw [reject_eta]
@[simp] theorem reject_host (a b c : Nat) : (s.reject a b c).host = s.host := by rw [reject_eta]
@[simp] theorem reject_freeCount (a b c : Nat) : (s.reject a b c).freeCount = s.freeCount := by rw [reject_eta]

/-! What they do to registers: the INT_STAT bit, and `noteRegs`. -/

theorem rd_msix (v off : Nat) (hv : v < 64) (h : off ∉ noteRegs) : (s.msix v).rd off = s.rd off := by
  have h0 : off ≠ Reg.MSIX_PBA 0 := fun e => h (by simp [noteRegs, e])
  have h1 : off ≠ Reg.MSIX_PBA 1 := fun e => h (by simp [noteRegs, e])
  unfold State.msix
  split
  · refine rd_setFlag_other s _ _ _ _ ?_
    rcases (by omega : v / 32 = 0 ∨ v / 32 = 1) with e | e <;> rw [e] <;> assumption
  · rfl

theorem fld_lt (off l w : Nat) : s.fld off l w < 2 ^ w := Nat.mod_lt _ (Nat.two_pow_pos w)

theorem rd_irqEdges (s0 : State) (l : List Nat) (off : Nat) (h : off ∉ noteRegs) :
    (State.irqEdges s0 s l).rd off = s.rd off := by
  unfold State.irqEdges
  suffices hh : ∀ (u : State) (l : List Nat) (t : State), t.rd off = s.rd off →
      (l.foldl (fun t i =>
        if !s0.asserted i && u.asserted i && u.flag (Reg.INT_ROUTE i) 31 then t.msix (u.fld (Reg.INT_ROUTE i) 24 6)
        else t) t).rd off = s.rd off from hh s l s rfl
  intro u l
  induction l with
  | nil => intro t ht; exact ht
  | cons i l ih =>
    intro t ht
    refine ih _ ?_
    beta_reduce
    split
    · rw [rd_msix _ _ _ (fld_lt u _ 24 6) h, ht]
    · exact ht

theorem rd_raise (i b off : Nat) (h : off ∉ noteRegs) (hi : intStatOf i ≠ some off) :
    (s.raise i b).rd off = s.rd off := by
  unfold State.raise
  cases hs : intStatOf i with
  | none => rfl
  | some o =>
    have ho : off ≠ o := fun e => hi (by rw [hs, e])
    show (State.irqEdges s (s.setFlag o b true) [i]).rd off = _
    rw [rd_irqEdges _ _ _ _ h, rd_setFlag_other _ _ _ _ _ ho]

theorem rd_queueRecord (r : Record) (off : Nat) (h : off ∉ noteRegs) : (s.queueRecord r).rd off = s.rd off := by
  unfold State.queueRecord
  simp only
  split_ifs
  · rw [rd_raise _ _ _ _ h, rd_count_other]
    · exact fun e => h (by simp [noteRegs, e])
    · intro e; exact h (by simp [noteRegs, ← Option.some.inj e])
  · rfl

theorem rd_recordAt (a b c d e off : Nat) (h : off ∉ noteRegs) : (s.recordAt a b c d e).rd off = s.rd off :=
  rd_queueRecord s _ _ h
theorem rd_record (a b c d off : Nat) (h : off ∉ noteRegs) : (s.record a b c d).rd off = s.rd off :=
  rd_queueRecord s _ _ h
theorem rd_reject (a b c off : Nat) (h : off ∉ noteRegs) : (s.reject a b c).rd off = s.rd off :=
  rd_queueRecord s _ _ h

end Sys2Proof.Machine
end

