-- ==== Sys2Proof/Laws/Access.lean ====
section
/-!
SUPPORT. What an access to a register does besides the work of its block, for a device that is awake (`State.serves`): nothing.
-/

namespace Sys2Proof.Machine

variable (s : State)

/-- A fold whose step leaves the state it begins with leaves it. -/
theorem foldl_stays {α β : Type} (f : β → α → β) (b : β) (l : List α) (h : ∀ a ∈ l, f b a = b) : l.foldl f b = b := by
  induction l with
  | nil => rfl
  | cons a l ih =>
    rw [List.foldl_cons, h a List.mem_cons_self]
    exact ih fun x hx => h x (List.mem_cons_of_mem _ hx)

/-- A domain in RUN that stays there need not wake. -/
theorem mustWake_awake (h : s.awake) (d : Nat) : s.mustWake d = false := by
  simp [State.mustWake, (h d).1, (h d).2]

/-- No domain wakes where none is below HOLD or on its way there. -/
theorem settlePower_awake (h : s.awake) : s.settlePower = s :=
  foldl_stays _ _ _ fun d _ => by simp [mustWake_awake s h d]

/-- Nothing is shown to Shale where it has seen every EPR_LOCK. -/
theorem showEpr_shown (h : s.eprShown) : s.showEpr = s :=
  foldl_stays _ _ _ fun l hl => by simp [h l (List.mem_range.mp hl)]

/-- The access reaches its block, and nothing follows it where its work leaves the device awake. -/
theorem toBlock_serves (a : RegAcc) (f : State → State) (h : s.serves a.init a.off)
    (ha : (f (s.reach (targetOf a.off) (regDomain a.off))).awake)
    (he : (f (s.reach (targetOf a.off) (regDomain a.off))).eprShown) :
    s.toBlock a f = f (s.reach (targetOf a.off) (regDomain a.off)) := by
  simp only [State.toBlock, h.1, h.2.1, Bool.false_eq_true, if_false]
  rw [showEpr_shown _ he, settlePower_awake _ ha]

/-- An access of the host to a block that a SYSTEM reset in progress resets answers 0 (R454). -/
theorem toBlock_deaf (a : RegAcc) (f : State → State) (h : s.deaf a.init a.off = true) : s.toBlock a f = s.answer 0 := by
  simp [State.toBlock, h]

/-- An access to an isolated target gets an error response (R385). -/
theorem toBlock_isolated (a : RegAcc) (f : State → State) (h : s.deaf a.init a.off = false)
    (hi : s.isolated (targetOf a.off) = true) : s.toBlock a f = s.busError := by
  simp [State.toBlock, h, hi]

end Sys2Proof.Machine
end

