-- ==== Sys2Proof/Laws/Frame.lean ====
section
/-!
SUPPORT. What the shared operations of records, trace, power domains, the dispatcher and FATAL can change, said once as
five relations, each wider than the one before: a meaning that goes through one of these operations leaves every other
part of the state as it was.
-/

namespace Sys2Proof.Machine

/-- A record or an interrupt: registers, fault queues, what left the device. -/
def State.Noted (s t : State) : Prop := t = { s with csr := t.csr, faults := t.faults, tx := t.tx }

/-- And the trace stream. -/
def State.Traced (s t : State) : Prop := t = { s with csr := t.csr, faults := t.faults, tx := t.tx, spoor := t.spoor }

/-- And the power domains and the fences of the rings. -/
def State.Woken (s t : State) : Prop :=
  t = { s with csr := t.csr, faults := t.faults, tx := t.tx, spoor := t.spoor, power := t.power, ring := t.ring }

/-- And the cores and the dispatcher. -/
def State.Ordered (s t : State) : Prop :=
  t = { s with csr := t.csr, faults := t.faults, tx := t.tx, spoor := t.spoor, power := t.power, ring := t.ring
               badger := t.badger }

/-- And the lines of the ports, run control and the state of the trees: what an entry into FATAL changes. -/
def State.Halted (s t : State) : Prop :=
  t = { s with csr := t.csr, faults := t.faults, tx := t.tx, spoor := t.spoor, power := t.power, ring := t.ring
               badger := t.badger, lines := t.lines, rc := t.rc, net := t.net }

variable {s t u : State}

theorem State.Noted.trans (h : s.Noted t) (h' : t.Noted u) : s.Noted u := Eq.trans h' (by rw [h])
theorem State.Traced.trans (h : s.Traced t) (h' : t.Traced u) : s.Traced u := Eq.trans h' (by rw [h])
theorem State.Woken.trans (h : s.Woken t) (h' : t.Woken u) : s.Woken u := Eq.trans h' (by rw [h])
theorem State.Ordered.trans (h : s.Ordered t) (h' : t.Ordered u) : s.Ordered u := Eq.trans h' (by rw [h])
theorem State.Halted.trans (h : s.Halted t) (h' : t.Halted u) : s.Halted u := Eq.trans h' (by rw [h])

theorem State.Noted.traced (h : s.Noted t) : s.Traced t :=
  Eq.trans h (by rw [show t.spoor = s.spoor by rw [h]])
theorem State.Traced.woken (h : s.Traced t) : s.Woken t :=
  Eq.trans h (by rw [show t.power = s.power by rw [h], show t.ring = s.ring by rw [h]])
theorem State.Woken.ordered (h : s.Woken t) : s.Ordered t :=
  Eq.trans h (by rw [show t.badger = s.badger by rw [h]])
theorem State.Ordered.halted (h : s.Ordered t) : s.Halted t :=
  Eq.trans h (by rw [show t.lines = s.lines by rw [h], show t.rc = s.rc by rw [h], show t.net = s.net by rw [h]])

/-- A fold of an operation that a relation allows is allowed by it. -/
theorem foldl_rel {α : Type} (R : State → State → Prop) (hr : ∀ s, R s s) (ht : ∀ s t u, R s t → R t u → R s u)
    (f : State → α → State) (h : ∀ s a, R s (f s a)) (l : List α) (s : State) : R s (l.foldl f s) := by
  induction l generalizing s with
  | nil => exact hr s
  | cons a l ih => exact ht _ _ _ (h s a) (ih (f s a))

theorem State.Noted.foldl {α : Type} (f : State → α → State) (h : ∀ s a, State.Noted s (f s a)) (l : List α) (s : State) :
    State.Noted s (l.foldl f s) := foldl_rel State.Noted (fun _ => rfl) (fun _ _ _ => State.Noted.trans) f h l s
theorem State.Traced.foldl {α : Type} (f : State → α → State) (h : ∀ s a, State.Traced s (f s a)) (l : List α) (s : State) :
    State.Traced s (l.foldl f s) := foldl_rel State.Traced (fun _ => rfl) (fun _ _ _ => State.Traced.trans) f h l s
theorem State.Woken.foldl {α : Type} (f : State → α → State) (h : ∀ s a, State.Woken s (f s a)) (l : List α) (s : State) :
    State.Woken s (l.foldl f s) := foldl_rel State.Woken (fun _ => rfl) (fun _ _ _ => State.Woken.trans) f h l s
theorem State.Ordered.foldl {α : Type} (f : State → α → State) (h : ∀ s a, State.Ordered s (f s a)) (l : List α) (s : State) :
    State.Ordered s (l.foldl f s) := foldl_rel State.Ordered (fun _ => rfl) (fun _ _ _ => State.Ordered.trans) f h l s

variable (s)

/-! ## Registers, records and interrupts -/

theorem noted_wr (off v : Nat) : s.Noted (s.wr off v) := rfl
theorem noted_setFld (off l w v : Nat) : s.Noted (s.setFld off l w v) := rfl
theorem noted_setFlag (off i : Nat) (b : Bool) : s.Noted (s.setFlag off i b) := rfl
theorem noted_count (off l w k : Nat) : s.Noted (s.count off l w k) := rfl
theorem noted_wr64 (off v : Nat) : s.Noted (s.wr64 off v) := rfl
theorem noted_raise (i b : Nat) : s.Noted (s.raise i b) := by
  unfold State.Noted; rw [raise_eta]
theorem noted_irqEdges (s0 : State) (l : List Nat) : s.Noted (State.irqEdges s0 s l) := by
  unfold State.Noted; rw [irqEdges_eta]
theorem noted_record (a b c d : Nat) : s.Noted (s.record a b c d) := record_eta s a b c d
theorem noted_recordAt (a b c d e : Nat) : s.Noted (s.recordAt a b c d e) := recordAt_eta s a b c d e
theorem noted_reject (a b c : Nat) : s.Noted (s.reject a b c) := reject_eta s a b c
theorem noted_queueRecord (r : Record) : s.Noted (s.queueRecord r) := queueRecord_eta s r

/-- CLAMPED is a record. -/
theorem noted_clamped (init : Initiator) (a b c d e : Nat) : s.Noted (s.clamped init a b c d e) := noted_queueRecord s _

theorem noted_corrections (init : Initiator) (off v : Nat) (l : List (Nat × Nat × Nat)) :
    s.Noted (l.foldl (fun t c => t.clamped init off c.1 c.2.1 v c.2.2) s) := by
  apply State.Noted.foldl
  intro t c
  exact noted_clamped t init off c.1 c.2.1 v c.2.2

theorem noted_reservedAccess (init : Initiator) (addr : Nat) : s.Noted (s.reservedAccess init addr) := by
  unfold State.reservedAccess; split <;> exact noted_reject s _ _ _

/-- Whatever a write of a register does to its fields, nothing but registers, the fault queues and what left the device
changes. -/
theorem noted_csrWrite (init : Initiator) (off v : Nat) (r : FieldSpec → Bool) (lock : Bool) (code : Nat) :
    s.Noted (s.csrWrite init off v r lock code).2 := by
  unfold State.csrWrite
  split
  · exact noted_reservedAccess s _ _
  · rename_i spec _
    dsimp only
    split
    · exact noted_record s _ _ _ _
    · split
      · exact noted_reject s _ _ _
      · have h := (noted_wr s off (s.wordAfter spec.fields off v lock)).trans
          (noted_corrections _ init off v (s.corrections spec.fields off v lock))
        dsimp only
        split
        · exact h.trans (noted_reject _ _ _ _)
        · exact h

theorem noted_cmdStatus (a b : Nat) : s.Noted (s.cmdStatus a b) := by
  have h := (noted_setFld s Reg.CMD_STATUS 28 4 a).trans (noted_setFld _ Reg.CMD_STATUS 16 8 b)
  unfold State.cmdStatus
  dsimp only
  split
  · exact h.trans (noted_raise _ _ _)
  · split
    · exact h
    · exact h.trans (noted_raise _ _ _)

/-! ## The trace stream -/

theorem traced_modSp (f : Spoor → Spoor) : s.Traced (s.modSp f) := rfl

theorem traced_spAppend (l : List Byte) : s.Traced (s.spAppend l) := by
  unfold State.spAppend
  exact (traced_modSp s _).trans (noted_wr64 _ _ _).traced

theorem traced_spPad (m : Nat) : s.Traced (s.spPad m) := traced_spAppend s _

/-- A packet that is lost is counted, and recorded once. -/
theorem traced_spLose (src : Nat) : s.Traced (s.spLose src) := by
  unfold State.spLose
  have h := (traced_modSp s fun x => { x with lost := x.lost.set (fun _ => 0) src (x.lost.get (fun _ => 0) src + 1) }).trans
    (noted_count _ Reg.SPOOR_LOST 0 32 1).traced
  dsimp only
  split
  · exact h
  · exact h.trans ((noted_record _ _ _ _ _).trans (noted_raise _ _ _)).traced

theorem traced_spPut (src : Nat) (l : List Byte) : s.Traced (s.spPut src l) := by
  unfold State.spPut
  dsimp only
  split
  · exact (traced_modSp s _).trans (traced_spAppend _ _)
  · exact traced_spLose s src

theorem traced_spAtomOut (k : Nat) : s.Traced (s.spAtomOut k) := by
  unfold State.spAtomOut
  split
  · rfl
  · exact State.Traced.trans (traced_modSp s fun x => { x with atoms := x.atoms.set (fun _ => []) k [] }) (traced_spPut _ k _)

theorem traced_spSyncPacket : s.Traced s.spSyncPacket := by
  unfold State.spSyncPacket
  dsimp only
  split
  · exact (traced_modSp s _).trans (traced_spAppend _ _)
  · exact traced_spLose s 10

theorem traced_spFullSync : s.Traced s.spFullSync := by
  unfold State.spFullSync
  dsimp only
  refine State.Traced.trans (State.Traced.foldl _ (fun t k => ?_) _ s) (State.Traced.trans (traced_spSyncPacket _)
    (State.Traced.trans (traced_spPut _ _ _) (State.Traced.foldl _ (fun t k => ?_) _ _)))
  · split
    · exact traced_spAtomOut t k
    · rfl
  · split
    · exact traced_spPut _ _ _
    · rfl

theorem traced_spDue : s.Traced s.spDue := by
  unfold State.spDue; split
  · exact traced_spFullSync s
  · rfl

theorem traced_spStore (src : Nat) (l : List Byte) : s.Traced (s.spStore src l) :=
  State.Traced.trans (traced_spDue s) (traced_spPut _ _ _)

theorem traced_spEmit (src : Nat) (l : List Byte) : s.Traced (s.spEmit src l) := by
  unfold State.spEmit; split
  · exact traced_spStore s _ _
  · rfl

theorem traced_spTrigger (c : Nat) : s.Traced (s.spTrigger c) := by
  unfold State.spTrigger; split
  · exact (traced_spStore s 10 _).trans ((noted_wr64 _ _ _).traced.trans ((noted_setFld _ _ _ _ _).traced.trans
      ((traced_modSp _ _).trans (noted_raise _ _ _).traced)))
  · rfl

theorem traced_ringEvent (a b c d : Nat) : s.Traced (s.ringEvent a b c d) := by
  unfold State.ringEvent; split
  · exact traced_spEmit s _ _
  · rfl

theorem traced_spCoreWoken (k : Nat) : s.Traced (s.spCoreWoken k) := by
  unfold State.spCoreWoken; split
  · exact traced_spFullSync s
  · rfl

/-! ## Power domains -/

theorem woken_modDom (d : Nat) (f : Domain → Domain) : s.Woken (s.modDom d f) := rfl
theorem woken_ringErrors (l : List RingReq) : s.Woken (s.ringErrors l) := rfl
theorem woken_touch (d : Nat) : s.Woken (s.touch d) := rfl
theorem woken_modRing (f : Ring → Ring) : s.Woken (s.modRing f) := rfl

theorem noted_showStop (n : Nat) : s.Noted (s.showStop n) := by
  unfold State.showStop
  exact (noted_setFlag s _ _ _).trans ((noted_setFlag _ _ _ _).trans ((noted_setFlag _ _ _ _).trans (noted_setFld _ _ _ _ _)))

theorem woken_unfence (d : Nat) : s.Woken (s.unfence d) := by
  unfold State.unfence
  refine State.Woken.foldl _ (fun t stop => ?_) _ _
  dsimp only
  split
  · exact (woken_modRing t _).trans ((woken_modRing _ _).trans ((noted_showStop _ stop).traced.woken.trans
      ((woken_ringErrors _ _).trans (traced_ringEvent _ _ _ _ _).woken)))
  · exact (woken_modRing t _).trans ((woken_modRing _ _).trans ((noted_showStop _ stop).traced.woken.trans (woken_ringErrors _ _)))

theorem woken_leaveDom (d : Nat) : s.Woken (s.leaveDom d) := by
  unfold State.leaveDom
  dsimp only
  split
  · exact woken_touch s d
  · refine State.Woken.trans ?_ ((woken_modDom _ d _).trans (woken_unfence _ _))
    split
    · rfl
    · exact State.Woken.foldl _ (fun t e => (noted_count t _ _ _ _).traced.woken) _ _

theorem woken_wakeCore (k : Nat) : s.Woken (s.wakeCore k) := by
  unfold State.wakeCore
  dsimp only
  split
  · exact (woken_leaveDom s _).trans (traced_spCoreWoken _ _).woken
  · exact woken_leaveDom s _

/-! ## The dispatcher -/

theorem ordered_modBg (f : Badger → Badger) : s.Ordered (s.modBg f) := rfl
theorem ordered_modCore (k : Nat) (f : Core → Core) : s.Ordered (s.modCore k f) := rfl
theorem ordered_retire (k : Nat) (v : W64) : s.Ordered (s.retire k v) := rfl
theorem ordered_modTask (t : Nat) (f : Task → Task) : s.Ordered (s.modTask t f) := rfl

theorem ordered_give (t k : Nat) : s.Ordered (s.give t k) := by
  unfold State.give
  exact (ordered_modBg s _).trans ((ordered_modTask _ _ _).trans ((ordered_modCore _ _ _).trans ((ordered_retire _ _ _).trans
    (woken_wakeCore _ _).ordered)))

theorem ordered_offer (t : Nat) : s.Ordered (s.offer t) := by
  unfold State.offer
  split
  · split
    · exact ordered_give s _ _
    · rfl
  · rfl

theorem ordered_offerAll : s.Ordered s.offerAll := by
  unfold State.offerAll
  exact State.Ordered.foldl _ (fun t _ => State.Ordered.foldl _ (fun t a => ordered_offer t a) _ _) _ _

theorem ordered_becomeReady (t : Nat) : s.Ordered (s.becomeReady t) := by
  unfold State.becomeReady
  exact (ordered_modBg s _).trans ((ordered_modTask _ _ _).trans (ordered_offer _ _))

theorem ordered_enterOrderly (c : Nat) : s.Ordered (s.enterOrderly c) := by
  have h := (noted_setFlag s Reg.DISP_STAT (31 - c) true).trans (noted_setFlag _ Reg.DISP_CTRL 0 true)
  unfold State.enterOrderly
  dsimp only
  split
  · exact h.traced.woken.ordered
  · exact (h.trans ((noted_record _ _ _ _ _).trans (noted_raise _ _ _))).traced.woken.ordered.trans
      ((ordered_modBg _ _).trans (ordered_offerAll _))

/-! ## FATAL -/

theorem halted_modRc (f : RunCtl → RunCtl) : s.Halted (s.modRc f) := rfl

theorem halted_cancelCmd : s.Halted s.cancelCmd := by
  unfold State.cancelCmd
  split
  · rfl
  · exact (halted_modRc s _).trans (noted_cmdStatus _ _ _).traced.woken.ordered.halted

theorem halted_emit (l : List TxItem) : s.Halted (s.emit l) := rfl

theorem halted_sendUpAs (t g : Nat) (m : Msg) : s.Halted (s.sendUpAs t g m) := by
  unfold State.sendUpAs; split
  · rfl
  · exact halted_emit s _

theorem halted_sendUp (t : Nat) (m : Msg) : s.Halted (s.sendUp t m) := halted_sendUpAs s _ _ _

theorem halted_sendFrHalt : s.Halted s.sendFrHalt := halted_emit s _

theorem halted_sendDeviceDown (r : Nat) : s.Halted (s.sendDeviceDown r) := by
  unfold State.sendDeviceDown
  exact (halted_emit s _).trans (halted_sendFrHalt _)

theorem halted_net (n : Net) : s.Halted { s with net := n } := rfl

theorem woken_dropGoals : s.Woken s.dropGoals := by
  unfold State.dropGoals
  refine State.Woken.foldl _ (fun t d => ?_) _ _
  split
  · rfl
  · split
    · exact woken_leaveDom t d
    · exact woken_modDom t d _

theorem halted_enterFatal : s.Halted s.enterFatal := by
  unfold State.enterFatal
  split
  · rfl
  · dsimp only
    exact (halted_cancelCmd s).trans ((woken_dropGoals _).ordered.halted.trans ((halted_sendUp _ _ _).trans
      ((halted_sendUp _ _ _).trans ((halted_modRc _ _).trans
      ((noted_raise _ 2 4).traced.woken.ordered.halted.trans ((halted_sendDeviceDown _ _).trans
      ((halted_net _ _).trans (ordered_enterOrderly _ _).halted)))))))

theorem halted_fatal (a b c : Nat) : s.Halted (s.fatal a b c) := by
  unfold State.fatal
  dsimp only
  refine (noted_record s cFatal a b c).traced.woken.ordered.halted.trans (State.Halted.trans ?_ (halted_enterFatal _))
  split
  · exact (traced_spTrigger _ _).woken.ordered.halted
  · rfl

end Sys2Proof.Machine
end

