-- ==== Sys2Proof/Laws/Memory.lean ====
section
/-!
SUPPORT. The laws of DDR and of the scratchpads: reads change no byte, and every write keeps the canonical form of the
contents, from the write of part of a line up to the writes that the blocks make.
-/

namespace Sys2Proof.Machine

/-- The canonical form of DDR. -/
abbrev State.ddrWf (s : State) : Prop := s.ddr.wf (fun _ => 0) = true

/-- The canonical form of the scratchpads. -/
abbrev State.spadWf (s : State) : Prop := s.spad.mem.wf (fun _ => 0) = true

theorem reset_ddrWf : State.reset.ddrWf := rfl
theorem reset_spadWf : State.reset.spadWf := rfl

/-! ## What leaves DDR alone -/

section frames
variable {s t : State}
theorem State.Noted.ddr (h : s.Noted t) : t.ddr = s.ddr := by rw [h]
theorem State.Woken.ddr (h : s.Woken t) : t.ddr = s.ddr := by rw [h]
theorem State.Halted.ddr (h : s.Halted t) : t.ddr = s.ddr := by rw [h]
end frames

variable (s : State)

@[simp] theorem deny_ddr (r : Nat) (who : Initiator) (op : DdrOp) (a : Nat) : (s.deny r who op a).ddr = s.ddr :=
  ((noted_record s _ _ _ _).trans ((noted_count _ _ _ _ _).trans (noted_raise _ _ _))).ddr

@[simp] theorem leaveDom_ddr (d : Nat) : (s.leaveDom d).ddr = s.ddr := (woken_leaveDom s d).ddr

/-- Judging an access changes no byte. -/
@[simp] theorem judge_ddr (who : Initiator) (op : DdrOp) (a : Nat) : (s.judge who op a).2.ddr = s.ddr := by
  unfold State.judge
  split
  · split
    · rfl
    · exact (noted_reservedAccess s _ _).ddr
  · split
    · rfl
    · split
      · rfl
      · dsimp only
        split
        · simp
        · split
          · exact ((woken_leaveDom s 110).trans (noted_record _ _ _ _ _).traced.woken).ddr
          · split <;> split <;> simp

@[simp] theorem free_ddr : s.free.2.ddr = s.ddr := rfl
@[simp] theorem retag_ddr (lo hi : Nat) (f : Option LineTag) : (s.retag lo hi f).ddr = s.ddr := rfl

@[simp] theorem fatalIntegrity_ddr (who : Initiator) (node : Bool) (a : Nat) :
    (s.fatalIntegrity who node a).ddr = s.ddr := by
  unfold State.fatalIntegrity
  exact (halted_fatal _ _ _ _).ddr.trans ((noted_setFlag _ _ _ _).ddr.trans (modCry_ddr s _))

@[simp] theorem showBusy_ddr : s.showBusy.ddr = s.ddr := by
  unfold State.showBusy
  split <;> rw [setFld_ddr, setFlag_ddr]

@[simp] theorem startRekey_ddr (r : Nat) (e : Bool) : (s.startRekey r e).ddr = s.ddr := by
  unfold State.startRekey
  dsimp only
  split
  · rw [(noted_raise _ 15 4).ddr, (noted_record _ _ _ _ _).ddr, setFld_ddr]; split <;> rfl
  · split
    · rw [setFld_ddr]; split <;> rfl
    · rw [(noted_record _ _ _ _ _).ddr, showBusy_ddr, setFld_ddr, setFld_ddr, modCry_ddr]

@[simp] theorem noteEnd_ddr (r c : Nat) : (s.noteEnd r c).ddr = s.ddr := by
  unfold State.noteEnd; split <;> simp

@[simp] theorem setNodeCtr_ddr (r l i v : Nat) : (s.setNodeCtr r l i v).ddr = s.ddr := by
  unfold State.setNodeCtr; dsimp only; split <;> rfl

@[simp] theorem dirtyNode_ddr (r l i : Nat) : (s.dirtyNode r l i).ddr = s.ddr := by
  unfold State.dirtyNode; dsimp only; split
  · rfl
  · exact modCry_ddr s _

@[simp] theorem writeNode_ddr (r l i : Nat) : (s.writeNode r l i).ddr = s.ddr := by
  unfold State.writeNode
  dsimp only
  rw [noteEnd_ddr]
  split <;> simp

@[simp] theorem writeBackNode_ddr (line r : Nat) (x : Option (Nat × Nat)) : (s.writeBackNode line r x).ddr = s.ddr := by
  unfold State.writeBackNode
  rcases x with _ | ⟨l, i⟩
  · rfl
  · dsimp only
    split
    · rfl
    · exact writeNode_ddr s r l i

@[simp] theorem evictNode_ddr (line : Nat) : (s.evictNode line).ddr = s.ddr := by
  unfold State.evictNode
  split
  · split
    · rfl
    · exact (modCry_ddr _ _).trans (writeBackNode_ddr s _ _ _)
  · rfl

@[simp] theorem cacheNode_ddr (line r : Nat) (keep : List Nat) : (s.cacheNode line r keep).ddr = s.ddr := by
  unfold State.cacheNode
  dsimp only
  split <;> simp

/-- A check that is made again is recorded. -/
@[simp] theorem reread_ddr (who : Initiator) (node : Bool) (line : Nat) : (s.reread who node line).ddr = s.ddr := by
  unfold State.reread
  split
  · exact (((noted_record _ _ _ _ _).trans (noted_count _ _ _ _ _)).trans (noted_raise _ _ _)).ddr.trans (modCry_ddr s _)
  · rfl

@[simp] theorem loadNode_ddr (r l i : Nat) : (s.loadNode r l i).ddr = s.ddr := by
  unfold State.loadNode; dsimp only; split <;> rfl

/-- Fetching a node changes no byte, whether it verifies or not. -/
@[simp] theorem fetchNode_ddr (who : Initiator) (r l i : Nat) (keep : List Nat) :
    (s.fetchNode who r l i keep).2.ddr = s.ddr := by
  unfold State.fetchNode
  dsimp only
  split
  · simp
  · split
    · split <;> simp
    · split
      · split
        · split <;> simp
        · simp [(noted_raise _ 15 2).ddr, (noted_record _ _ _ _ _).ddr]
      · rfl

/-- A fold of steps each of which changes no byte changes none. -/
theorem foldl_ddr {α β : Type} (f : α × State → β → α × State) (h : ∀ x b, (f x b).2.ddr = x.2.ddr) (l : List β)
    (x : α × State) : (l.foldl f x).2.ddr = x.2.ddr := by
  induction l generalizing x with
  | nil => rfl
  | cons b l ih => exact (ih _).trans (h x b)

@[simp] theorem fetchPath_ddr (who : Initiator) (r line : Nat) : (s.fetchPath who r line).2.ddr = s.ddr := by
  unfold State.fetchPath
  dsimp only
  refine foldl_ddr _ (fun x n => ?_) _ _
  split <;> simp

@[simp] theorem checkLine_ddr (who : Initiator) (r line : Nat) : (s.checkLine who r line).2.ddr = s.ddr := by
  have h := fetchPath_ddr s who r line
  unfold State.checkLine
  split <;> rename_i hq <;> rw [hq] at h
  · exact h
  · dsimp only
    split <;> simpa using h

@[simp] theorem checkLines_ddr (who : Initiator) (r a n : Nat) : (s.checkLines who r a n).2.ddr = s.ddr := by
  unfold State.checkLines
  refine foldl_ddr _ (fun x k => ?_) _ _
  split <;> simp

@[simp] theorem bumpCtr_ddr (r line : Nat) : (s.bumpCtr r line).ddr = s.ddr := by
  unfold State.bumpCtr
  dsimp only
  rw [noteEnd_ddr]
  split <;> split <;> simp

/-- A judged range read changes no byte, whatever it answers. -/
@[simp] theorem judgeAll_ddr (who : Initiator) (op : DdrOp) (a n : Nat) : (s.judgeAll who op a n).2.ddr = s.ddr := by
  unfold State.judgeAll
  refine foldl_ddr _ (fun acc p => ?_) _ _
  split
  · rfl
  · have hj := judge_ddr acc.2 who op p.1
    split <;> rename_i hq <;> rw [hq] at hj <;> exact hj

/-- One part of a judged read. -/
def getPart (who : Initiator) (addr : Nat) (acc : Except (DdrErr × Nat) (Map Byte) × State) (p : Nat × Nat) :
    Except (DdrErr × Nat) (Map Byte) × State :=
  match acc.1 with
  | .error _ => acc
  | .ok m =>
    let s := acc.2
    match s.regionOf p.1 with
    | none => (.ok m, s)
    | some r =>
      match if s.regionMode r = 2 then s.checkLines who r p.1 p.2 else (none, s) with
      | (some line, s) => (.error (.halted, line * 64 - addr), s)
      | (none, s) => (.ok (m ++ (s.formParts r p.1 p.2).flatMap (fun q => s.seenPart r addr q.1 q.2)), s)

/-- The check of the lines of one part, where its region has one. -/
theorem partCheck_ddr (who : Initiator) (r a n : Nat) :
    (if s.regionMode r = 2 then s.checkLines who r a n else (none, s)).2.ddr = s.ddr := by split <;> simp

theorem getPart_ddr (who : Initiator) (addr : Nat) (acc : Except (DdrErr × Nat) (Map Byte) × State) (p : Nat × Nat) :
    (getPart who addr acc p).2.ddr = acc.2.ddr := by
  unfold getPart
  split
  · rfl
  · dsimp only
    split
    · rfl
    · rename_i r _
      have h := partCheck_ddr acc.2 who r p.1 p.2
      split <;> rename_i hq <;> rw [hq] at h <;> exact h

@[simp] theorem ddrGet_ddr (who : Initiator) (op : DdrOp) (a n : Nat) : (s.ddrGet who op a n).2.ddr = s.ddr := by
  have hj := judgeAll_ddr s who op a n
  unfold State.ddrGet
  split
  · rename_i hq; rw [hq] at hj; exact hj
  · rename_i s1 hq
    rw [hq] at hj
    have h := foldl_ddr (getPart who a) (getPart_ddr who a) (s1.judgeParts who a n) (.ok [], s1)
    change (match (s1.judgeParts who a n).foldl (getPart who a) (.ok [], s1) with
      | (.ok m, s) => (Except.ok (m.setAll (fun _ => 0) (s.waitBytes a n)), s)
      | (.error e, s) => (.error e, s) : Except (DdrErr × Nat) (Map Byte) × State).2.ddr = s.ddr
    split <;> rename_i hr <;> rw [hr] at h <;> exact h.trans hj

variable {s}

/-! ## What a read answers is canonical -/

/-- A map of bytes that is canonical and whose keys all lie in `[lo, hi)`. -/
def Within (m : Map Byte) (lo hi : Nat) : Prop := m.wf (fun _ => 0) = true ∧ ∀ e ∈ m, lo ≤ e.1 ∧ e.1 < hi

theorem Within.append {a b : Map Byte} {lo mid hi : Nat} (ha : Within a lo mid) (hb : Within b mid hi) (h1 : lo ≤ mid)
    (h2 : mid ≤ hi) : Within (a ++ b) lo hi := by
  obtain ⟨wa, ka⟩ := ha
  obtain ⟨wb, kb⟩ := hb
  rw [Map.wf_iff] at wa wb
  refine ⟨?_, ?_⟩
  · rw [Map.wf_iff]
    refine ⟨List.pairwise_append.2 ⟨wa.1, wb.1, fun e he f hf => ?_⟩, fun e he => ?_⟩
    · have := ka e he; have := kb f hf; omega
    · rcases List.mem_append.1 he with he | he
      · exact wa.2 e he
      · exact wb.2 e he
  · intro e he
    rcases List.mem_append.1 he with he | he
    · have := ka e he; omega
    · have := kb e he; omega

theorem within_nil (lo hi : Nat) : Within [] lo hi := ⟨rfl, by simp⟩

theorem seenPart_within (r base addr n : Nat) (h : s.ddrWf) (hb : base ≤ addr) :
    Within (s.seenPart r base addr n) (addr - base) (addr + n - base) := by
  unfold State.seenPart
  have hd := h
  rw [State.ddrWf, Map.wf_iff] at hd
  split
  · refine ⟨?_, ?_⟩
    · rw [Map.wf_iff]
      refine ⟨?_, ?_⟩
      · rw [List.pairwise_map]
        refine List.Pairwise.imp_of_mem ?_ (hd.1.filter _)
        intro e f he hf hef
        simp only [Map.range, List.mem_filter, Bool.and_eq_true, decide_eq_true_eq] at he hf
        omega
      · intro e he
        simp only [Map.range, List.mem_map, List.mem_filter] at he
        obtain ⟨g, hg, rfl⟩ := he
        exact hd.2 g hg.1
    · intro e he
      simp only [Map.range, List.mem_map, List.mem_filter, Bool.and_eq_true, decide_eq_true_eq] at he
      obtain ⟨g, hg, rfl⟩ := he
      dsimp only
      omega
  · refine ⟨?_, ?_⟩
    · rw [Map.wf_iff]
      refine ⟨?_, ?_⟩
      · rw [List.pairwise_filterMap]
        refine List.pairwise_lt_range.imp ?_
        intro a b hab e he f hf
        dsimp only at he hf
        split at he
        · cases he
        · split at hf
          · cases hf
          · cases he
            cases hf
            dsimp only
            omega
      · intro e he
        simp only [List.mem_filterMap] at he
        obtain ⟨k, _, hk⟩ := he
        split at hk
        · simp at hk
        · rename_i hne
          simp only [Option.some.injEq] at hk
          subst hk
          exact hne
    · intro e he
      simp only [List.mem_filterMap, List.mem_range] at he
      obtain ⟨k, hlt, hk⟩ := he
      split at hk
      · simp at hk
      · simp only [Option.some.injEq] at hk
        subst hk
        dsimp only
        omega


theorem Within.mono {m : Map Byte} {lo hi hi' : Nat} (h : Within m lo hi) (hh : hi ≤ hi') : Within m lo hi' :=
  ⟨h.1, fun e he => ⟨(h.2 e he).1, (h.2 e he).2.trans_le hh⟩⟩

theorem cutAt_flatMap_within (r base unit : Nat) (h : s.ddrWf) (k : Nat) : ∀ a n, base ≤ a →
    Within ((cutAt unit k a n).flatMap fun q => s.seenPart r base q.1 q.2) (a - base) (a + n - base) := by
  induction k with
  | zero => intro a n _; exact within_nil _ _
  | succ k ih =>
    intro a n hb
    unfold cutAt
    split
    · exact within_nil _ _
    · dsimp only
      rw [List.flatMap_cons]
      have hm : min n (unit - a % unit) ≤ n := Nat.min_le_left _ _
      have h2 := ih (a + min n (unit - a % unit)) (n - min n (unit - a % unit)) (by omega)
      refine (seenPart_within r base a _ h hb).append (h2.mono ?_) ?_ ?_ <;> omega

theorem formParts_within (r base a n : Nat) (h : s.ddrWf) (hb : base ≤ a) :
    Within ((s.formParts r a n).flatMap fun q => s.seenPart r base q.1 q.2) (a - base) (a + n - base) := by
  unfold State.formParts
  split
  · simpa using seenPart_within r base a n h hb
  · exact cutAt_flatMap_within r base 4096 h _ a n hb

theorem cutAt_getPart (who : Initiator) (addr unit : Nat) (k : Nat) :
    ∀ a n (acc : Except (DdrErr × Nat) (Map Byte) × State),
    addr ≤ a → acc.2.ddrWf → (∀ m, acc.1 = .ok m → Within m 0 (a - addr)) →
    ∀ m, ((cutAt unit k a n).foldl (getPart who addr) acc).1 = .ok m → Within m 0 (a + n - addr) := by
  induction k with
  | zero => intro a n acc ha _ hw m hm; exact (hw m hm).mono (by omega)
  | succ k ih =>
    intro a n acc ha hd hw m hm
    unfold cutAt at hm
    split at hm
    · exact (hw m hm).mono (by omega)
    · dsimp only at hm
      rw [List.foldl_cons] at hm
      generalize hmin : min n (unit - a % unit) = j at hm
      have hj : j ≤ n := hmin ▸ Nat.min_le_left _ _
      refine (ih (a + j) (n - j) _ (by omega) ?_ ?_ m hm).mono (by omega)
      · show Map.wf _ (getPart who addr acc (a, j)).2.ddr = true
        rw [getPart_ddr]; exact hd
      · intro m' hm'
        unfold getPart at hm'
        split at hm'
        · exact (hw m' hm').mono (by omega)
        · rename_i m0 hacc
          dsimp only at hm'
          split at hm'
          · cases hm'; exact (hw _ hacc).mono (by omega)
          · rename_i r _
            have h := partCheck_ddr acc.2 who r a j
            split at hm' <;> rename_i hq <;> rw [hq] at h
            · cases hm'
            · rename_i s1
              cases hm'
              have h1 : State.ddrWf s1 := by show Map.wf _ (State.ddr s1) = true; rw [show State.ddr s1 = acc.2.ddr from h]; exact hd
              exact (hw _ hacc).append (formParts_within _ addr a j h1 ha) (by omega) (by omega)

/-- What a read of DDR answers is a canonical map of bytes. -/
theorem ddrGet_wf (who : Initiator) (op : DdrOp) (addr n : Nat) (m : Map Byte) (t : State) (h : s.ddrWf)
    (hg : s.ddrGet who op addr n = (.ok m, t)) : m.wf (fun _ => 0) = true := by
  have hj := judgeAll_ddr s who op addr n
  unfold State.ddrGet at hg
  split at hg
  · cases hg
  · rename_i s1 hq
    rw [hq] at hj
    have h1 : s1.ddrWf := by show Map.wf _ s1.ddr = true; rw [show s1.ddr = s.ddr from hj]; exact h
    change (match (s1.judgeParts who addr n).foldl (getPart who addr) (.ok [], s1) with
      | (.ok m, s) => (Except.ok (m.setAll (fun _ => 0) (s.waitBytes addr n)), s)
      | (.error e, s) => (.error e, s) : Except (DdrErr × Nat) (Map Byte) × State) = (.ok m, t) at hg
    split at hg
    · rename_i m0 s2 hf
      cases hg
      refine Map.wf_setAll _ _ _ ?_
      have hf : ((s1.judgeParts who addr n).foldl (getPart who addr) (.ok [], s1)).1 = .ok m0 := congrArg Prod.fst hf
      unfold State.judgeParts at hf
      refine (cutAt_getPart who addr _ _ addr n (.ok [], s1) (Nat.le_refl _) h1 ?_ m0 hf).1
      intro m' hm'
      cases hm'
      exact within_nil _ _
    · cases hg

/-! ## Writes keep the canonical form -/

theorem convertLine_wf (r line : Nat) (h : s.ddrWf) : (s.convertLine r line).ddrWf := by
  unfold State.convertLine
  split
  · exact h
  · exact Map.wf_setAll _ _ _ h

theorem mergeLine_wf (r line : Nat) (l : List (Nat × Byte)) (h : s.ddrWf) : (s.mergeLine r line l).ddrWf := by
  unfold State.mergeLine
  split
  · exact h
  · refine Map.wf_setAll _ _ _ ?_
    split
    · split <;> exact h
    · exact convertLine_wf r line h

theorem storeInt_wf (who : Initiator) (r line : Nat) (l : List (Nat × Byte)) (h : s.ddrWf) :
    (s.storeInt who r line l).2.ddrWf := by
  have hc : (if wholeLine l then s.fetchPath who r line else s.checkLine who r line).2.ddr = s.ddr := by split <;> simp
  unfold State.storeInt
  split
  · exact h
  · split
    · exact h
    · split <;> rename_i hq <;> rw [hq] at hc
      · show Map.wf _ _ = true; rw [hc]; exact h
      · rename_i s1
        have h1 : State.ddrWf s1 := by show Map.wf _ (State.ddr s1) = true; rw [show State.ddr s1 = s.ddr from hc]; exact h
        refine Map.wf_setAll _ _ _ ?_
        rw [bumpCtr_ddr]
        split
        · exact h1
        · exact convertLine_wf r line h1

/-- A map of bytes of `n` bytes shifted to an address, spliced between what lies below and above it. -/
theorem splice_wf (d m : Map Byte) (base addr n : Nat) (hd : d.wf (fun _ => 0) = true) (hm : m.wf (fun _ => 0) = true)
    (hb : base ≤ addr) :
    Map.wf (fun _ => 0) (d.range 0 addr ++ (m.range (addr - base) (addr - base + n)).map (fun e => (e.1 + base, e.2)) ++
      d.filter (fun e => addr + n ≤ e.1)) = true := by
  rw [Map.wf_iff] at hd hm ⊢
  refine ⟨List.pairwise_append.2 ⟨List.pairwise_append.2 ⟨hd.1.filter _, ?_, ?_⟩, hd.1.filter _, ?_⟩, ?_⟩
  · rw [List.pairwise_map]
    exact (hm.1.filter _).imp (fun h => by simpa using h)
  · intro e he f hf
    simp only [Map.range, List.mem_filter, List.mem_map, Bool.and_eq_true, decide_eq_true_eq] at he hf
    obtain ⟨g, hg, rfl⟩ := hf
    dsimp only
    omega
  · intro e he f hf
    simp only [Map.range, List.mem_append, List.mem_filter, List.mem_map, Bool.and_eq_true, decide_eq_true_eq] at he hf
    rcases he with he | ⟨g, hg, rfl⟩
    · omega
    · dsimp only; omega
  · intro e he
    simp only [Map.range, List.mem_append, List.mem_filter, List.mem_map] at he
    rcases he with (he | ⟨g, hg, rfl⟩) | he
    · exact hd.2 e he.1
    · exact hm.2 g hg.1
    · exact hd.2 e he.1

theorem fillLines_wf (r base addr n : Nat) (m : Map Byte) (h : s.ddrWf) (hm : m.wf (fun _ => 0) = true) (hb : base ≤ addr) :
    (s.fillLines r base addr n m).ddrWf := splice_wf s.ddr m base addr n h hm hb

theorem storePart_wf (r base addr n : Nat) (m : Map Byte) (h : s.ddrWf) (hm : m.wf (fun _ => 0) = true) (hb : base ≤ addr) :
    (s.storePart r base addr n m).ddrWf := by
  unfold State.storePart
  refine mergeLine_wf r _ _ ?_
  split
  · exact mergeLine_wf r _ _ h
  · exact fillLines_wf r base _ _ m (mergeLine_wf r _ _ h) hm (by omega)

/-- A fold of steps each of which keeps the canonical form keeps it. -/
theorem foldl_wf {α β : Type} (f : α × State → β → α × State) (h : ∀ x b, x.2.ddrWf → (f x b).2.ddrWf) (l : List β)
    (x : α × State) (hx : x.2.ddrWf) : (l.foldl f x).2.ddrWf := by
  induction l generalizing x with
  | nil => exact hx
  | cons b l ih => exact ih _ (h x b hx)

theorem storeLines_wf (who : Initiator) (r base addr n : Nat) (m : Map Byte) (h : s.ddrWf) :
    (s.storeLines who r base addr n m).2.ddrWf := by
  unfold State.storeLines
  refine foldl_wf _ (fun x p hx => ?_) _ _ h
  split
  · exact hx
  · exact storeInt_wf who r _ _ hx

theorem cutAt_le (unit k : Nat) : ∀ addr n p, p ∈ cutAt unit k addr n → addr ≤ p.1 := by
  induction k with
  | zero => intro addr n p hp; simp [cutAt] at hp
  | succ k ih =>
    intro addr n p hp
    unfold cutAt at hp
    split at hp
    · simp at hp
    · rcases List.mem_cons.1 hp with rfl | hp
      · exact Nat.le_refl _
      · have := ih _ _ _ hp; omega

theorem formParts_le (r addr n : Nat) (q : Nat × Nat) (hq : q ∈ s.formParts r addr n) : addr ≤ q.1 := by
  unfold State.formParts at hq
  split at hq
  · rw [List.mem_singleton.1 hq]
  · exact cutAt_le _ _ _ _ _ hq

theorem foldl_storePart_wf (r base : Nat) (m : Map Byte) (hm : m.wf (fun _ => 0) = true)
    (l : List (Nat × Nat)) : ∀ s : State, s.ddrWf → (∀ q ∈ l, base ≤ q.1) →
      (l.foldl (fun (s : State) q => s.storePart r base q.1 q.2 m) s).ddrWf := by
  induction l with
  | nil => exact fun _ h _ => h
  | cons q l ih =>
    exact fun s h hb => ih _ (storePart_wf r base q.1 q.2 m h hm (hb q List.mem_cons_self))
      fun p hp => hb p (List.mem_cons_of_mem _ hp)

/-- The write of a range from a map of bytes keeps the canonical form, whatever it answers. -/
theorem ddrPut_wf (who : Initiator) (op : DdrOp) (addr n : Nat) (m : Map Byte) (h : s.ddrWf)
    (hm : m.wf (fun _ => 0) = true) : (s.ddrPut who op addr n m).2.ddrWf := by
  unfold State.ddrPut
  have hp : ∀ p ∈ s.judgeParts who addr n, addr ≤ p.1 := fun p hp => cutAt_le _ _ _ _ _ hp
  generalize s.judgeParts who addr n = l at hp
  suffices key : ∀ (l : List (Nat × Nat)) (acc : Option (DdrErr × Nat) × State), acc.2.ddrWf → (∀ p ∈ l, addr ≤ p.1) →
      (l.foldl (fun (acc : Option (DdrErr × Nat) × State) p =>
        if acc.1.isSome && !onRing who then acc
        else match acc.2.judge who op p.1 with
          | (some e, s) => (acc.1.or (some (e, p.1 - addr)), s)
          | (none, s) =>
            match s.regionOf p.1 with
            | none => (acc.1, s)
            | some r =>
              if s.regionMode r = 2 then
                let x := s.storeLines who r addr p.1 p.2 m
                (acc.1.or (x.1.map fun line => (.halted, line * 64 - addr)), x.2)
              else (acc.1, (s.formParts r p.1 p.2).foldl (fun s q => s.storePart r addr q.1 q.2 m) s)) acc).2.ddrWf from
    key l (none, s) h hp
  intro l
  induction l with
  | nil => intro acc h _; exact h
  | cons p l ih =>
    intro acc h hl
    refine ih _ ?_ fun q hq => hl q (List.mem_cons_of_mem _ hq)
    dsimp only
    split
    · exact h
    · have hj := judge_ddr acc.2 who op p.1
      split
      · rename_i hq; rw [hq] at hj; show Map.wf _ _ = true; rw [hj]; exact h
      · rename_i s1 hq
        rw [hq] at hj
        have h1 : s1.ddrWf := by show Map.wf _ s1.ddr = true; rw [show s1.ddr = acc.2.ddr from hj]; exact h
        split
        · exact h1
        · rename_i r _
          split
          · exact storeLines_wf who r addr p.1 p.2 m h1
          · exact foldl_storePart_wf r addr m hm (s1.formParts r p.1 p.2) s1 h1
              fun q hq => (hl p List.mem_cons_self).trans (formParts_le r _ _ q hq)

/-- A map of bytes made from a list is canonical. -/
theorem mapOfBytes_wf (l : List Byte) : (mapOfBytes l).wf (fun _ => 0) = true := by
  rw [Map.wf_iff]
  unfold mapOfBytes
  refine ⟨List.Pairwise.filter _ ?_, fun e he => by simpa using (List.mem_filter.1 he).2⟩
  have h : ((List.range l.length).zip l).map Prod.fst = List.range l.length := by
    rw [List.map_fst_zip]; simp
  have hp : (List.range l.length).Pairwise (· < ·) := List.pairwise_lt_range
  rw [← h, List.pairwise_map] at hp
  exact hp

theorem ddrWrite_wf (who : Initiator) (addr n v : Nat) (h : s.ddrWf) : (s.ddrWrite who addr n v).2.ddrWf := by
  have := ddrPut_wf who .write addr n (mapOfBytes (bytesOfNat v n)) h (mapOfBytes_wf _)
  unfold State.ddrWrite
  split <;> rename_i hq <;> rw [hq] at this <;> exact this

theorem ddrFill_wf (who : Initiator) (addr n : Nat) (m : Map Byte) (h : s.ddrWf) (hm : m.wf (fun _ => 0) = true) :
    (s.ddrFill who addr n m).2.ddrWf := by
  have := ddrPut_wf who .write addr n m h hm
  unfold State.ddrFill
  split <;> rename_i hq <;> rw [hq] at this <;> exact this

@[simp] theorem ddrMap_ddr (who : Initiator) (addr n : Nat) : (s.ddrMap who addr n).2.ddr = s.ddr := by
  have h := ddrGet_ddr s who .read addr n
  unfold State.ddrMap
  split <;> rename_i hq <;> rw [hq] at h <;> exact h

theorem ddrMap_wf (who : Initiator) (addr n : Nat) (m : Map Byte) (t : State) (h : s.ddrWf)
    (hm : s.ddrMap who addr n = (some m, t)) : m.wf (fun _ => 0) = true := by
  unfold State.ddrMap at hm
  split at hm
  · rename_i hq; cases hm; exact ddrGet_wf who .read addr n _ _ h hq
  · cases hm

/-- A copy keeps the canonical form. -/
theorem ddrCopy_wf (who : Initiator) (src dst n : Nat) (h : s.ddrWf) : (s.ddrCopy who src dst n).2.ddrWf := by
  have hd := ddrMap_ddr (s := s) who src n
  unfold State.ddrCopy
  split
  · rename_i hq; rw [hq] at hd; show Map.wf _ _ = true; rw [show _ = s.ddr from hd]; exact h
  · rename_i m t hq
    rw [hq] at hd
    have ht : t.ddrWf := by show Map.wf _ t.ddr = true; rw [show t.ddr = s.ddr from hd]; exact h
    exact ddrFill_wf who dst n m ht (ddrMap_wf who src n m t h hq)

theorem ddrWriteBe_wf (who : Initiator) (addr be : Nat) (v : W64) (h : s.ddrWf) :
    (s.ddrWriteBe who addr be v).2.ddrWf := by
  have hj := judge_ddr s who .write addr
  unfold State.ddrWriteBe
  split
  · rename_i hq; rw [hq] at hj; show Map.wf _ _ = true; rw [show _ = s.ddr from hj]; exact h
  · rename_i s1 hq
    rw [hq] at hj
    have h1 : s1.ddrWf := by show Map.wf _ s1.ddr = true; rw [show s1.ddr = s.ddr from hj]; exact h
    split
    · exact h1
    · dsimp only
      split
      · exact storeInt_wf who _ _ _ h1
      · exact mergeLine_wf _ _ _ h1

/-! ## Scratchpads -/

theorem State.Noted.spadWf {s t : State} (hn : s.Noted t) (h : s.spadWf) : t.spadWf := by
  show Map.wf _ t.spad.mem = true
  rw [show t.spad = s.spad by rw [hn]]
  exact h

theorem noted_spadUncorrectable (who : Initiator) (k off : Nat) : s.Noted (s.spadUncorrectable who k off) := by
  unfold State.spadUncorrectable
  exact (noted_record s _ _ _ _).trans ((noted_count _ _ _ _ _).trans (noted_raise _ _ _))

theorem noted_spadRefuse (who : Initiator) (k off : Nat) (g : SpadGate) : s.Noted (s.spadRefuse who k off g) := by
  unfold State.spadRefuse
  split
  · exact noted_record s _ _ _ _
  · exact noted_record s _ _ _ _
  · rfl

theorem noted_spadCorrected (who : Initiator) (k off : Nat) : s.Noted (s.spadCorrected who k off) := by
  unfold State.spadCorrected
  exact (noted_record s _ _ _ _).trans ((noted_count _ _ _ _ _).trans (noted_raise _ _ _))

/-- The check of a word changes no byte. -/
theorem spadCheck_wf (who : Initiator) (w : Nat) (h : s.spadWf) : (s.spadCheck who w).2.spadWf := by
  unfold State.spadCheck
  dsimp only
  split
  · exact (noted_spadUncorrectable who _ _).spadWf h
  · split
    · exact (noted_spadCorrected who _ _).spadWf h
    · exact h

/-- A fold of steps each of which keeps the canonical form of the scratchpads keeps it. -/
theorem foldl_spadWf {α β : Type} (f : α × State → β → α × State) (h : ∀ x b, x.2.spadWf → (f x b).2.spadWf) (l : List β)
    (x : α × State) (hx : x.2.spadWf) : (l.foldl f x).2.spadWf := by
  induction l generalizing x with
  | nil => exact hx
  | cons b l ih => exact ih _ (h x b hx)

theorem spadCheckAll_wf (who : Initiator) (l : List Nat) (h : s.spadWf) : (s.spadCheckAll who l).2.spadWf :=
  foldl_spadWf (fun x w => (x.1 || (x.2.spadCheck who w).1, (x.2.spadCheck who w).2)) (fun _ w hx => spadCheck_wf who w hx) l
    (false, s) h

theorem spadRead_wf (who : Initiator) (k off n : Nat) (h : s.spadWf) : (s.spadRead who k off n).2.2.spadWf := by
  unfold State.spadRead
  split
  · have hc := spadCheckAll_wf (s := s.touch (82 + k)) who (bankWords (k * 2 ^ 18 + off) n) h
    dsimp only
    split <;> rename_i hq <;> rw [hq] at hc <;> exact hc
  · exact (noted_spadRefuse who k off _).spadWf h

theorem spadWriteWord_wf (who : Initiator) (w : Nat) (l : List (Nat × Byte)) (h : s.spadWf) :
    (s.spadWriteWord who w l).2.spadWf := by
  unfold State.spadWriteWord
  dsimp only
  split
  · exact Map.wf_setAll _ _ _ h
  · have hc := spadCheck_wf who w h
    split <;> rename_i hq <;> rw [hq] at hc
    · exact hc
    · exact Map.wf_setAll _ _ _ hc

theorem spadWrite_wf (who : Initiator) (k off : Nat) (l : List (Nat × Byte)) (h : s.spadWf) :
    (s.spadWrite who k off l).2.spadWf := by
  unfold State.spadWrite
  split
  · refine foldl_spadWf _ (fun x w hx => ?_) _ _ h
    exact spadWriteWord_wf who w _ hx
  · exact (noted_spadRefuse who k off _).spadWf h

theorem aliasWord_wf (set : Bool) (who : Initiator) (k off : Nat) (l : List Byte) (h : s.spadWf) :
    (s.aliasWord set who k off l).2.spadWf := by
  have hc := spadCheckAll_wf who (bankWords (k * 2 ^ 18 + off) l.length) h
  unfold State.aliasWord
  dsimp only
  split <;> rename_i hq <;> rw [hq] at hc
  · exact hc
  · exact Map.wf_setAll _ _ _ hc

theorem aliasPut_wf (set : Bool) (who : Initiator) (k off : Nat) (l : List Byte) (h : s.spadWf) :
    (s.aliasPut set who k off l).2.spadWf := by
  unfold State.aliasPut
  split
  · split
    · exact foldl_spadWf _ (fun x p hx => aliasWord_wf set who k p.1 _ hx) _ _ h
    · exact (noted_record s _ _ _ _).spadWf h
  · exact (noted_spadRefuse who k off _).spadWf h

theorem spadClear_wf (k : Nat) (h : s.spadWf) : (s.spadClear k).spadWf := by
  unfold State.spadClear; exact Map.wf_without _ _ _ _ h

end Sys2Proof.Machine
end

