-- ==== Sys2Proof/WellFormed.lean ====
section
/-!
DEFINITION. Which terms of `Instr` name a command that the device can be given: every index names a part that a device
has, every field fits its width. The meanings are total, so that a statement needs no well-formedness where it holds
without.
-/

namespace Sys2Proof

/-- A Badger core number (R352). -/
def Initiator.wf : Initiator → Bool
  | .core k => decide (k < 8)
  | .self => false
  | _ => true

/-- A word of one of the checked memories (R59). -/
def EccErr.wf (e : EccErr) : Bool := decide (e.cluster < 64) && decide (e.bp < 256)

/-- A Boolean processor (R33). -/
def BpSel.wf (b : BpSel) : Bool := decide (b.cluster < 64) && decide (b.bp < 256) && b.err.all EccErr.wf

/-- What every control ordered set carries (R213). -/
def SetHdr.wf (h : SetHdr) : Bool := 
  decide (h.port < 8) && decide (h.tree < 3) && decide (h.gen < 16) && decide (h.crc < 2 ^ 16)

/-- A write of CMD (R239). -/
def CmdWrite.wf (w : CmdWrite) : Bool := w.init.wf && decide (w.param < 2 ^ 16)

/-- An access of the internal registers and windows (R25): they take the internal addresses from 0x40_0000_0000 on. The host
reaches the CSR window by BAR0 and the port and mailbox window by BAR4 (R27). -/
def RegAcc.wf (a : RegAcc) : Bool :=
  a.init.wf && decide (a.off < 2 ^ 40 - 2 ^ 38) &&
  (a.init != .hostMmio || decide (a.off < 2 ^ 26) || (decide (0x8000_0000 ≤ a.off) && decide (a.off < 0x8010_0000))) && (a.width == 8 || a.width == 16 || a.width == 32 || a.width == 64)

/-- A port (R171). -/
def portOk (p : Nat) : Bool := decide (p < 8)

/-- A port and a lane of it. -/
def laneOk (p n : Nat) : Bool := decide (p < 8) && decide (n < 8)

/-- An ECN as an ordered set carries it: 48 bits (R213). -/
def ecnOk (n : Nat) : Bool := decide (n < 2 ^ 48)

/-- A device ID (R195). -/
def devOk (n : Nat) : Bool := decide (n < 2 ^ 13)

/-- A 32-bit register word. -/
def wordOk (v : Nat) : Bool := decide (v < 2 ^ 32)

/-- A time-exchange set (R339). -/
def ExchSet.wf (x : ExchSet) : Bool :=
  portOk x.port && decide (x.tree < 2) && decide (x.seq < 256) && devOk x.master && decide (x.stamp < 2 ^ 64) &&
    decide (x.crc < 2 ^ 16) && decide (x.frac < 2 ^ 16)

/-- A training sequence (R179). -/
def Tseq.wf (t : Tseq) : Bool :=
  laneOk t.port t.lane && decide (t.num < 8) && decide (t.mask < 256) && decide (t.role < 4) && decide (t.rate < 8) &&
    devOk t.device && portOk t.peerPort && decide (t.sum < 256)

/-- What the lanes of a port of width 2, 4 or 8 deliver (R177). -/
def RxFrame.wf (f : RxFrame) : Bool := portOk f.port && [2, 4, 8].contains f.lanes.length

/-- The settings of a trained link (R232). -/
def LinkCfg.wf (c : LinkCfg) : Bool :=
  [1, 2, 4, 8].contains c.width && [2500, 5000, 8000, 16000, 32000].contains c.rate && [128, 256, 512].contains c.maxPayload &&
    [128, 256, 512, 1024, 2048, 4096].contains c.maxRead

/-- An instruction of a core (R357). -/
def CoreInst.wf (d : CoreInst) : Bool := decide (d.core < 8) && decide (d.pc < 2 ^ 64)

/-- Words of the Spoor buffer that an error strikes (R425). -/
def bufWords (l : List (Nat × Bool)) : Bool := l.all fun e => decide (e.1 < 2 ^ 17)

/-- A ring packet (R378). -/
def Pkt.wf (p : Pkt) : Bool :=
  decide (p.key.vc < 3) && p.rivals.all (fun k => decide (k.vc < 3)) && p.who.wf && decide (p.unit < 28) && decide (p.target < 64) && decide (p.ring < 2) && decide (p.at_ < 28)

/-- The term names a command that the device can be given. -/
def Instr.wf : Instr → Bool
  | .haltDrainComplete | .rewindRestore | .pcieLinkDown | .triggerAmountReached | .stopped | .ts
  | .dspDescriptor | .timeSyncLost | .tb1TargetReturn | .dispTick | .lanePllUnlock | .lanePllLock | .repeatTimer
  | .mapLoadDone | .trimDone | .shSourceError | .flr | .lockTimeout | .idcode | .highz | .clamp
  | .testLogicReset | .faultRecordWrite => true
  | .nop b | .lut b | .send b | .memb b | .arib b | .portb b | .probe b | .trigb b | .waitq b | .waitp b | .pop b
  | .mark b | .endBp b | .reservedOpcode b => b.wf
  | .xqResponse c _ _ | .fabStallWatchdog c | .backgroundPassRead c _ | .imemLoadDone c | .dmLoadDone c => decide (c < 64)
  | .cycleStart errs | .commit errs | .rollback errs | .snapshotCopyDone _ errs => errs.all EccErr.wf
  | .committed h w | .globalSeal h w => h.wf && ecnOk w
  | .drainWrite _ => true
  | .abortUp h n dev | .schedStop h n dev => h.wf && ecnOk n && devOk dev
  | .abort h n | .rolledBack h n | .schedPause h n => h.wf && ecnOk n
  | .replayGo h n gen | .rewindGo h n gen => h.wf && ecnOk n && decide (gen < 16)
  | .haltReport h dev => h.wf && devOk dev
  | .systemHalt h ecn dev => h.wf && ecnOk ecn && devOk dev
  | .rewindReport h e _ reason => h.wf && ecnOk e && decide (reason < 16)
  | .command h target cseq code param | .commandRelay h target cseq code param =>
    h.wf && ecnOk target && decide (cseq < 2 ^ 16) && decide (code < 256) && decide (param < 2 ^ 16)
  | .cmdNone w code => w.wf && decide (code < 256)
  | .loadBegin w | .loadEnd w | .unload w | .run w | .step w | .pause w | .rewind w | .halt w => w.wf
  | .push ini ch _ | .hostOutPop ini ch | .peek ini ch | .level ini ch => ini.wf && decide (ch < 16)
  | .dmaDescriptor k _ _ => decide (k < 8)
  | .ddrAccess who _ addr n data _ => who.wf && decide (addr + n ≤ 2 ^ 38) && decide (data.length ≤ n)
  | .keyLoad ini slot | .keyGen ini slot | .keyZero ini slot => ini.wf && decide (slot < 32)
  | .regionEnable ini r w | .rekey ini r w => ini.wf && decide (r < 16) && wordOk w
  | .initDone r | .rekeyPage r => decide (r < 16)
  | .cryptLock ini | .start ini | .stop ini | .trigger ini | .arm ini | .disarm ini | .dspGo ini | .setNow ini
  | .setAtEdge ini | .load ini | .swapNow ini | .tailSync ini => ini.wf
  | .spoorPacket k _ pc _ => decide (k < 8) && decide (pc < 2 ^ 40)
  | .spoorDdrError _ l => bufWords l
  | .spoorBufData ini l => ini.wf && bufWords l
  | .scope ini v | .tb0Adj ini v | .dispReady ini v | .policy ini v | .mapSwapEcnHi ini v | .jrnlTrim ini v
  | .devRst ini v => ini.wf && wordOk v
  | .ingressAccept b _ | .launch b | .egressWord b _ => decide (b < 8)
  | .lxEgDisable ini b => ini.wf && decide (b < 8)
  | .packet p => p.wf
  | .ringTargetIsolated t => decide (t < 48)
  | .ringTargetRestored ini t => ini.wf && decide (t < 48)
  | .fenceReq st d | .fenceAck st d => decide (st < 28) && decide (d < 111)
  | .spadAccess who bank off n _ l => who.wf && decide (bank < 16) && decide (off + n ≤ 2 ^ 18) && l.all (fun e => decide (e.1 < 2 ^ 19))
  | .setAliasWrite who bank off n v l | .clearAliasWrite who bank off n v l => l.all (fun e => decide (e.1 < 2 ^ 19)) &&
    who.wf && decide (bank < 16) && decide (off + n ≤ 2 ^ 18) && decide (v < 256 ^ n)
  | .handover ini k owner _ => ini.wf && decide (k < 16) && decide (owner < 16)
  | .handoverDone k => decide (k < 16)
  | .trigInputEvent pin _ | .pulseEnd pin => decide (pin < 9)
  | .resAck ini block seq => ini.wf && decide (block < 5) && decide (seq < 2 ^ 16)
  | .measEnable ini m => ini.wf && decide (m < 4)
  | .disciplineEdge pin _ => pin.all (fun k => decide (k < 9))
  | .exchangeDue port tree frac => portOk port && decide (tree < 2) && decide (frac < 2 ^ 16)
  | .sync x | .followUp x | .delayReq x | .delayResp x => x.wf
  | .exchLost port tree _ => portOk port && decide (tree < 2)
  | .servoHoldover t => decide (t < 2)
  | .timerPulse k | .timerArm k | .timerCommand k => decide (k < 8)
  | .take d | .tryTake d | .ready d | .done d | .defer_ d | .clean d | .cinv d | .cflush d => d.wf
  | .holdExpiry t => decide (t < 1024)
  | .coreReset ini k | .coreRun ini k _ => ini.wf && decide (k < 8)
  | .wordWrite who m _ | .wordRead who m | .statusWrite who m _ => who.wf && decide (m < 64)
  | .cacheLineCheck a => decide (a.core < 8) && decide (a.addr < 2 ^ 40)
  | .train ini p | .down ini p => ini.wf && portOk p
  | .tseq1 t | .tseq2 t => t.wf
  | .portUp p | .laneTrainFail p | .replayTimeout p | .ackTimer p | .receiveWord p _ | .frameTransmit p _ => portOk p
  | .laneFailure p n _ | .los p n _ | .lol p n _ | .symbolLock p n _ _ | .chkLock p n _ => laneOk p n
  | .errInject ini p n | .cntClr ini p n => ini.wf && laneOk p n
  | .frame f => f.wf
  | .ack h seq limit => h.wf && decide (seq < 256) && decide (limit < 256)
  | .nak h seq => h.wf && decide (seq < 256)
  | .netTreeSilent p tree => portOk p && decide (tree < 2)
  | .deviceDown h ecn dev reason => h.wf && ecnOk ecn && devOk dev && decide (reason < 16)
  | .triggerUp h ecn origin seq lines | .systemTrigger h ecn origin seq lines =>
    h.wf && ecnOk ecn && devOk origin && decide (seq < 256) && decide (lines < 256)
  | .init p id peer sum => portOk p && devOk id && portOk peer && decide (sum < 256)
  | .forerunnerFrame f => f.wf
  | .netFrHalt p id sum => portOk p && devOk id && decide (sum < 256)
  | .imemLoad ini c _ | .dmLoad ini c _ => ini.wf && decide (c < 64)
  | .shLoad ini src _ => ini.wf && decide (src < 3)
  | .frameRecord data again => decide (data.length ≤ 264) && decide (again.length ≤ 264)
  | .releaseSequence supplies => decide (supplies.length ≤ 4)
  | .chainByte _ | .scrubFrame _ _ | .cfgDone _ => true
  | .shLoopLost j | .loopLock j _ => decide (j < 8)
  | .vddioExcursion bank => decide (bank < 4)
  | .registerWindowAccess a _ _ | .shWinNoResponse a _ => a.wf && decide (0x81_0000 ≤ a.off) && decide (a.off < 0x82_0000)
  | .domainIdleExpiry d | .domainWake d => decide (d < 111)
  | .powLtr ini g v => ini.wf && decide (g < 8) && wordOk v
  | .pmbusEn ini mode => ini.wf && mode.all (fun m => decide (m < 256))
  | .pmbusPoll m r => m.all (fun m => decide (m < 256)) && r.all (fun x => decide (x.1 < 2 ^ 16) && decide (x.2 < 2 ^ 16))
  | .powPmbusAlert status => status.all (fun m => decide (m < 2 ^ 16))
  | .powPmbusError cmd => decide (cmd < 256)
  | .powerDecision maxPs => decide (maxPs < 2 ^ 16)
  | .sensorReading n _ => decide (n < 16)
  | .vrefStep pin centre => decide (pin < 128) && decide (centre < 64)
  | .ddrRetrain sub _ => decide (sub < 8)
  | .pcieLinkUp c => c.wf
  | .coldRstN straps | .sysRstN straps | .boot straps => decide (straps.bootMode < 4) && decide (straps.port67 < 4)
  | .supplyMonitor _ _ _ straps => decide (straps.bootMode < 4) && decide (straps.port67 < 4)
  | .perstN _ | .ddrTrainingDone _ | .imageFetchDone _ | .dbgReq _ | .d3hot _ => true
  | .extest _ _ | .samplePreload _ _ => true
  | .bypass code => decide (code < 256)
  | .dbgAccess core _ addr data moduleData hlt =>
    decide (core < 8) && decide (addr < 2 ^ 40) && wordOk data && wordOk moduleData && hlt.all (fun x => decide (x.1 < 8))
  | .fuseProg slot _ revoke svn => decide (slot < 4) && decide (revoke < 16) && decide (svn < 64)
  | .dbgAuthChanged ini lv => ini.wf && decide (lv < 4)
  | .registerWrite a v => a.wf && decide (v < 2 ^ a.width)
  | .rcRead a _ | .loReadLatch a => a.wf
  | .bar2Access off n _ => decide (off + n ≤ 2 ^ 38)

end Sys2Proof
end

