-- ==== Sys2Proof/Tests/Slice0.lean ====
section
/-!
SUPPORT. The model's own tests: an ill-formed term for each check of WellFormed, a concrete state and operands that meet
the hypotheses of each statement (a witness for every clause that has its own), and single steps whose outcome the spec
gives.
-/

namespace Sys2Proof.Tests.Slice0

open Sys2Proof Sys2Proof.Machine

-- One theorem at a time: together their evaluations outgrow the memory of a check.
set_option Elab.async false

/-! ## Small states -/

/-- The state after reset with the registers of `l` at the values beside them. -/
def regs (l : List (Nat × Nat)) : State := l.foldl (fun s e => s.wr e.1 e.2) State.reset

/-- Every domain is in RUN. -/
theorem all_run (s : State) (h : s.power.doms = []) (d : Nat) : (s.dom d).level = 0 ∧ (s.dom d).goal = none := by
  unfold State.dom; rw [h]; exact ⟨rfl, rfl⟩

/-- An access of `init` to register `off` reaches its block: `serves`, as a check. -/
def canServe (s : State) (init : Initiator) (off : Nat) : Bool :=
  !s.deaf init off && !s.isolated (targetOf off) && s.power.doms.isEmpty &&
    (List.range 16).all fun l => s.eprLock l == s.shale.eprLock.contains l

theorem serves_of {s : State} {init : Initiator} {off : Nat} (h : canServe s init off = true) : s.serves init off := by
  simp only [canServe, Bool.and_eq_true, Bool.not_eq_true', List.isEmpty_iff, List.all_eq_true, List.mem_range,
    beq_iff_eq] at h
  exact ⟨h.1.1.1, h.1.1.2, all_run s h.1.2, h.2⟩

/-- A step instruction of R69 with the four operands at the constant 0. -/
def inst (op tt dest aux : Nat) : W96 :=
  BitVec.ofNat 96 (op * 2 ^ 92 + tt * 2 ^ 76 + 0x1800 * (2 ^ 63 + 2 ^ 50 + 2 ^ 37 + 2 ^ 24) + dest * 2 ^ 12 + aux)

/-- BP 254 of cluster 31. -/
def bp : BpSel := ⟨31, 254, none⟩

/-- Key of the IMEM word of `bp` at step `k`. -/
def imemKey (k : Nat) : Nat := (31 * 2048 + k) * 256 + 254

/-- Run control in cycle 5, which has begun and whose steps run. -/
def running : RunCtl := { state := .running, ecn := 5, begun := true, stepping := true, fresh := false }

/-- Cluster 31 at step 7, opened: `w` stands at `bp`, and a LUT at BP 255. -/
def at7 (w : W96) (cl : Cluster := {}) : State :=
  { regs [(Reg.CL_CTRL 31, 1), (Reg.FAB_CFG, 0x40800)] with
    rc := running
    imem := [(imemKey 7, w), (imemKey 7 + 1, inst 1 0 0x800 0)]
    clusters := [(31, { cl with phase := .stepping, step := 7, opened := true })] }

/-! ## WellFormed refuses an ill-formed term of each check -/

/-- A good set, access and write of CMD, to be spoilt in one field. -/
def okHdr : SetHdr := ⟨7, 2, 15, false, 2 ^ 16 - 1⟩
def okAcc : RegAcc := ⟨.hostMmio, 2 ^ 26 - 4, 32⟩
def okCmd : CmdWrite := ⟨.core 7, true, 2 ^ 16 - 1⟩
def okExch : ExchSet := ⟨7, 1, 255, 2 ^ 13 - 1, 2 ^ 64 - 1, false, 2 ^ 16 - 1, 2 ^ 16 - 1⟩
def okFrame : RxFrame := ⟨7, [[0], [0]], 0⟩
def okTseq : Tseq := ⟨7, 7, 7, 255, 3, 7, 2 ^ 13 - 1, 7, 255⟩
def okPkt : Pkt := ⟨.core 7, 27, 0, 63, ⟨2, 0, true⟩, [⟨2, 0, false⟩], 1, 27, none, 0⟩
def okInst : CoreInst := ⟨7, 0, 0, 0, 2 ^ 64 - 1⟩
def okCfg : LinkCfg := ⟨8, 16000, 512, 4096, true, true, false⟩
def okPhys : DdrPhys := ⟨[], [], [], [], []⟩

theorem wf_accepts_the_bounds :
    [Instr.lut ⟨63, 255, some ⟨.dmb, 63, 255, 0, true⟩⟩, .committed okHdr (2 ^ 48 - 1), .run okCmd, .registerWrite okAcc 0,
     .sync okExch, .frame okFrame, .tseq1 okTseq, .packet okPkt, .take okInst, .pcieLinkUp okCfg, .spoorBufData .hostMmio [(2 ^ 17 - 1, true)],
     .registerWindowAccess ⟨.core 0, 0x81_FFFC, 32⟩ none 0, .push .hostMmio 15 0, .keyLoad (.core 7) 31,
     .handover .lynx 15 15 true,
     .registerWrite ⟨.core 0, 2 ^ 40 - 2 ^ 38 - 1, 8⟩ 0, .forerunnerFrame okFrame, .sensorReading 15 0, .bar2Access 0 8 none, .flr].all Instr.wf = true := by
  decide

theorem wf_refuses_step_and_cycle_terms :
    [Instr.nop ⟨64, 0, none⟩, .lut ⟨0, 256, none⟩, .endBp ⟨0, 0, some ⟨.imem, 64, 0, 0, false⟩⟩,
     .send ⟨0, 0, some ⟨.imem, 0, 256, 0, false⟩⟩, .xqResponse 64 0 false, .fabStallWatchdog 64, .backgroundPassRead 64 none,
     .imemLoadDone 64, .dmLoadDone 64, .commit [⟨.dmb, 64, 0, 0, true⟩], .rollback [⟨.dmb, 0, 256, 0, true⟩],
     .snapshotCopyDone true [⟨.state, 64, 0, 0, true⟩]].any Instr.wf = false := by decide

theorem wf_refuses_set_terms :
    [Instr.committed { okHdr with port := 8 } 0, .committed { okHdr with tree := 3 } 0, .committed { okHdr with gen := 16 } 0, .committed { okHdr with crc := 2 ^ 16 } 0,
     .globalSeal okHdr (2 ^ 48), .abortUp okHdr (2 ^ 48) 0, .abortUp okHdr 0 (2 ^ 13), .schedStop okHdr 0 (2 ^ 13),
     .abort okHdr (2 ^ 48), .rolledBack okHdr (2 ^ 48), .schedPause okHdr (2 ^ 48), .replayGo okHdr 0 16,
     .rewindGo okHdr (2 ^ 48) 0, .haltReport okHdr (2 ^ 13), .systemHalt okHdr 0 (2 ^ 13), .rewindReport okHdr 0 true 16,
     .command okHdr (2 ^ 48) 0 0 0, .command okHdr 0 (2 ^ 16) 0 0, .commandRelay okHdr 0 0 256 0,
     .commandRelay okHdr 0 0 0 (2 ^ 16), .ack okHdr 256 0, .ack okHdr 0 256, .nak okHdr 256,
     .deviceDown okHdr 0 0 16, .triggerUp okHdr 0 0 256 0, .systemTrigger okHdr 0 0 0 256].any Instr.wf = false := by decide

theorem wf_refuses_host_terms :
    [Instr.cmdNone okCmd 256, .cmdNone { okCmd with param := 2 ^ 16 } 0, .loadBegin { okCmd with init := .core 8 },
     .run { okCmd with init := .self }, .halt { okCmd with param := 2 ^ 16 }, .push .hostMmio 16 0, .peek .self 0,
     .hostOutPop .hostMmio 16, .level .hostMmio 16, .dmaDescriptor 8 false [], .pmbusEn .hostMmio (some 256), .pmbusPoll (some 256) none, .pmbusPoll none (some (2 ^ 16, 0)),
     .pcieLinkUp { okCfg with width := 3 }, .pcieLinkUp { okCfg with rate := 1 }, .pcieLinkUp { okCfg with maxPayload := 64 },
     .pcieLinkUp { okCfg with maxRead := 64 },
     .powerDecision (2 ^ 16),
     .powPmbusAlert (some (2 ^ 16)), .powPmbusError 256, .powLtr .hostMmio 8 0, .powLtr .hostMmio 0 (2 ^ 32)].any Instr.wf =
      false := by decide

theorem wf_refuses_memory_and_trace_terms :
    [Instr.ddrAccess .self .read 0 1 [] okPhys,
     .ddrAccess .hostMmio .read (2 ^ 38) 1 [] okPhys,
     .ddrAccess .hostMmio .write 0 0 [0] okPhys, .keyLoad .self 0, .keyGen (.core 0) 32,
     .keyZero (.core 0) 32, .regionEnable (.core 0) 16 0, .rekey (.core 0) 0 (2 ^ 32), .initDone 16, .rekeyPage 16,
     .cryptLock .self, .spoorPacket 8 .resume 0 false, .spoorPacket 0 .resume (2 ^ 40) false, .scope .hostMmio (2 ^ 32),
     .spoorDdrError true [(2 ^ 17, false)], .spoorBufData .self [], .spoorBufData .hostMmio [(2 ^ 17, true)],
     .ingressAccept 8 0, .launch 8, .egressWord 8 none, .lxEgDisable .hostMmio 8, .packet { okPkt with who := .core 8 }, .packet { okPkt with unit := 28 },
     .packet { okPkt with target := 64 }, .packet { okPkt with ring := 2 }, .packet { okPkt with at_ := 28 },
     .packet { okPkt with key := ⟨3, 0, true⟩ }, .packet { okPkt with rivals := [⟨3, 0, true⟩] },
     .ringTargetIsolated 48, .ringTargetRestored (.core 0) 48, .fenceReq 28 0, .fenceAck 0 111,
     .spadAccess (.core 0) 16 0 1 none [], .spadAccess (.core 0) 0 0 1 none [(2 ^ 19, true)],
     .setAliasWrite (.core 0) 0 (2 ^ 18) 1 0 [],
     .clearAliasWrite (.core 0) 0 0 1 256 [], .handover (.core 0) 16 0 false, .handover (.core 0) 0 16 false,
     .handoverDone 16].any Instr.wf = false := by decide

theorem wf_refuses_time_and_core_terms :
    [Instr.trigInputEvent 9 true, .pulseEnd 9, .resAck (.core 0) 5 0, .resAck (.core 0) 0 (2 ^ 16), .measEnable (.core 0) 4,
     .disciplineEdge (some 9) true, .exchangeDue 8 0 0, .exchangeDue 0 2 0, .exchangeDue 0 0 (2 ^ 16),
     .sync { okExch with port := 8 }, .followUp { okExch with tree := 2 }, .delayReq { okExch with seq := 256 },
     .delayResp { okExch with master := 2 ^ 13 }, .sync { okExch with stamp := 2 ^ 64 },
     .sync { okExch with frac := 2 ^ 16 }, .sync { okExch with crc := 2 ^ 16 }, .exchLost 8 0 true, .exchLost 0 2 true, .servoHoldover 2, .timerPulse 8,
     .tb0Adj (.core 0) (2 ^ 32), .take { okInst with core := 8 }, .tryTake { okInst with core := 8 },
     .ready { okInst with core := 8 }, .done { okInst with core := 8 }, .defer_ { okInst with core := 8 },
     .clean { okInst with core := 8 }, .cinv { okInst with pc := 2 ^ 64 }, .cflush { okInst with core := 8 },
     .dispReady .self 0, .holdExpiry 1024, .policy .self 0, .coreReset (.core 0) 8, .coreRun .self 0 true,
     .wordWrite .hostMmio 64 0, .wordRead .self 0, .statusWrite .hostMmio 64 0,
     .cacheLineCheck ⟨8, .fence, 0, none, 0, none⟩, .cacheLineCheck ⟨0, .fetch 4, 2 ^ 40, none, 0, none⟩].any
      Instr.wf = false := by decide

theorem wf_refuses_lane_and_link_terms :
    [Instr.train .self 0, .down (.core 0) 8, .tseq1 { okTseq with port := 8 }, .tseq2 { okTseq with lane := 8 },
     .tseq1 { okTseq with mask := 256 }, .tseq1 { okTseq with num := 8 }, .tseq1 { okTseq with role := 4 },
     .tseq1 { okTseq with rate := 8 }, .tseq1 { okTseq with device := 2 ^ 13 }, .tseq1 { okTseq with peerPort := 8 },
     .tseq1 { okTseq with sum := 256 }, .portUp 8, .laneFailure 8 0 .los, .los 0 8 true, .chkLock 8 0 [],
     .errInject .self 0 0, .cntClr .hostMmio 0 8, .frame { okFrame with port := 8 }, .frame { okFrame with lanes := [[0]] },
     .frame { okFrame with lanes := [[0], [0], [0]] }, .netTreeSilent 8 0, .netTreeSilent 0 2, .init 8 0 0 0,
     .init 0 (2 ^ 13) 0 0, .init 0 0 8 0, .init 0 0 0 256, .forerunnerFrame { okFrame with port := 8 },
     .netFrHalt 0 (2 ^ 13) 0, .netFrHalt 0 0 256, .netFrHalt 8 0 0].any Instr.wf =
      false := by decide

theorem wf_refuses_device_terms :
    [Instr.imemLoad .self 0 true, .dmLoad .hostMmio 64 true, .shLoad .hostMmio 3 [], .frameRecord (List.replicate 265 0) [],
     .frameRecord [] (List.replicate 265 0), .releaseSequence [0, 0, 0, 0, 0], .loopLock 8 0, .shLoopLost 8, .vddioExcursion 4,
     .registerWindowAccess ⟨.core 0, 0x80_FFFC, 32⟩ none 0, .shWinNoResponse ⟨.core 0, 0x82_0000, 32⟩ none,
     .domainIdleExpiry 111, .domainWake 111, .sensorReading 16 0, .vrefStep 128 0, .vrefStep 0 64, .ddrRetrain 8 0,
     .coldRstN { bootMode := 4 }, .sysRstN { port67 := 4 }, .supplyMonitor 0 0 0 { bootMode := 4 }, .bypass 256,
     .dbgAccess 8 false 0 0 0 none, .dbgAccess 0 false (2 ^ 40) 0 0 none, .dbgAccess 0 true 0 (2 ^ 32) 0 none,
     .dbgAccess 0 true 0 0 (2 ^ 32) none, .dbgAccess 0 false 0 0 0 (some (8, true)), .fuseProg 4 0 0 0, .fuseProg 0 0 16 0,
     .fuseProg 0 0 0 64, .boot { port67 := 4 }, .dbgAuthChanged .self 0, .dbgAuthChanged (.core 0) 4, .registerWrite { okAcc with width := 24 } 0,
     .registerWrite { okAcc with off := 2 ^ 26 } 0, .registerWrite { okAcc with init := .self } 0,
     .registerWrite okAcc (2 ^ 32), .rcRead { okAcc with width := 0 } none, .rcRead ⟨.core 0, 2 ^ 40 - 2 ^ 38, 8⟩ none, .loReadLatch { okAcc with off := 2 ^ 26 },
     .bar2Access (2 ^ 38) 1 none].any Instr.wf = false := by decide +kernel

/-! ## Witnesses: the queue and the step instructions -/

theorem witness_StepRunsFrontCommand :
    ({ State.reset with pending := [.idcode, .flr] } : State).pending = Instr.idcode :: [.flr] := rfl

theorem witness_EmptyQueueStepPassesTime :
    State.reset.pending = [] ∧ State.reset.boot.low = false ∧ State.reset.boot.inReset = false ∧
      State.reset.time.rate = 0 ∧ State.reset.time.slew = 0 ∧ State.reset.ports = [] ∧ State.reset.power.doms = [] ∧ ({ boot := { low := true } } : State).boot.low = true := by
  decide +kernel

theorem witness_EveryStepKeepsTheTapInvariant : State.reset.tapInvariant ∧ ∃ t, Machine.step State.reset = .next t :=
  ⟨⟨by decide, by decide, fun _ h => nomatch h⟩, _, rfl⟩

theorem witness_NopLutEndAreR81 :
    (at7 (inst 1 0xFFFF 0 0)).mayExecute bp 1 ∧ (at7 (inst 0xF 0 0 0)).mayExecute bp 0xF ∧
    ∀ double ∈ [false, true], let e : EccErr := ⟨.imem, 31, 254, 6, double⟩
      let s := at7 (inst 1 0 0 0)
      e.mem = .imem ∧ wOp (s.word 31 e.word 254) = 0 ∧ s.fetched 31 254 e.word = true := by
  unfold State.mayExecute; and_intros <;> decide +kernel

theorem witness_LutWritesItsResultAndFaultsGoOn :
    (let s := at7 (inst 1 0xFFFF 0x3FF 0)
     s.mayExecute bp 1 ∧ s.othersToGo bp ∧ s.cleanOperands bp ∧ destValid (wDest (s.wordFor bp))) ∧
    (let s := at7 (inst 1 0xFFFF 0x4FF 0)
     s.mayExecute bp 1 ∧ s.othersToGo bp ∧ s.cleanOperands bp ∧ destValid (wDest (s.wordFor bp))) ∧
    (State.reset.operand 31 254 0x3FF).2 ≠ none ∧
    (let s := at7 (inst 1 0xFFFF 0x500 0)
     s.mayExecute bp 1 ∧ s.othersToGo bp ∧ s.rc.begun = true ∧ s.rc.fresh = false ∧ s.rc.stop = none ∧
       s.isRoot 0 = false ∧ s.isRoot 1 = false ∧ ¬ destValid (wDest (s.wordFor bp))) ∧
    (let s := at7 (inst 1 0xFFFF 0 0 - BitVec.ofNat 96 (0x1800 * 2 ^ 63))
     s.mayExecute bp 1 ∧ s.othersToGo bp ∧ s.isRoot 0 = false ∧ s.isRoot 1 = false ∧ ¬ s.cleanOperands bp ∧
       destValid (wDest (s.wordFor bp))) := by
  unfold State.mayExecute State.othersToGo State.cleanOperands destValid; dsimp only; and_intros <;> decide +kernel

/-- Cluster 31 with the send map entry `v` at outbox bit 4095. -/
def sending (v : Nat) : State :=
  { at7 (inst 2 0xFFFF 0x800 4095) with
    net := { active := { send := [(31 * 4096 + 4095, BitVec.ofNat 32 v)] } } }

theorem witness_SendFillsInboxEntry :
    let s := sending (2 ^ 31 + 31 * 2 ^ 11 + 2047)
    s.mayExecute bp 2 ∧ s.othersToGo bp ∧ s.cleanOperands bp ∧ destValid (wDest (s.wordFor bp)) ∧
      s.sendsFirst bp.cluster bp.bp 4095 = true ∧ s.sendTo s.rc.ecn bp.cluster 4095 = .inbox 31 2047 ∧
      s.enabled 31 = true ∧ s.judgeArrival 31 2047 (s.rc.ecn % 4) = .stored := by
  unfold State.mayExecute State.othersToGo State.cleanOperands destValid; dsimp only; and_intros <;> decide +kernel

/-- BP `bp` may execute `op` with what every deposit needs besides. -/
def ready (s : State) (op : Nat) : Prop :=
  s.mayExecute bp op ∧ s.othersToGo bp ∧ s.cleanOperands bp ∧ destValid (wDest (s.wordFor bp))

theorem witness_DepositsAndWaitsReachTheirObjects :
    ready (at7 (inst 3 1 0x800 0x17F)) 3 ∧ ready (at7 (inst 3 1 0x800 0x07F)) 3 ∧
    ready (at7 (inst 4 1 0x800 53)) 4 ∧ ready (at7 (inst 4 1 0x800 (0x80 + 117))) 4 ∧
    ready (at7 (inst 5 1 0x800 (0x800 + 23 * 64 + 63))) 5 ∧ ready (at7 (inst 6 1 0x800 4095)) 6 ∧
    ready { at7 (inst 7 1 0x800 15) with fabTrig := [(15, some ⟨true, 32, 0, 0⟩)] } 7 ∧
    ready { at7 (inst 7 1 0x800 15) with fabTrig := [(15, some ⟨true, 30, 0, 0⟩)] } 7 ∧
    (∀ m ∈ [(at7 0).cl 31 |>.xqReq, (at7 0).cl 31 |>.dmReq, (at7 0).cl 31 |>.arReq, (at7 0).cl 31 |>.staging],
      m = []) := by
  unfold ready State.mayExecute State.othersToGo State.cleanOperands destValid; dsimp only; and_intros <;> decide +kernel

theorem witness_WaitsPopAndMarkGatherTheirWork :
    (let s := at7 (inst 8 0 0 31) { tags := [(31, some ⟨0, 0, true, none, 0⟩)] }
     s.mayExecute bp 8 ∧ s.othersToGo bp ∧ ((s.cl 31).tags.get (fun _ => none) 31).isSome) ∧
    (at7 (inst 9 0 0 15)).mayExecute bp 9 ∧
    (let s := at7 (inst 0xA 0 0x800 15) { windows := [(15, { word := some 1 })] }
     ready s 0xA ∧ ((s.cl 31).windows.get (fun _ => {}) 15).word.isSome) ∧
    (let s := at7 (inst 0xE 0 0x800 0xFFF)
     ready s 0xE ∧ s.flag Reg.SPOOR_SRC 16 = false ∧ s.flag Reg.SPOOR_TRIG_CFG 2 = false ∧ s.rc.again = false ∧
       s.rc.state = .running) := by
  unfold ready State.mayExecute State.othersToGo State.cleanOperands destValid; dsimp only; and_intros <;> decide +kernel

theorem witness_ReservedOpcodeRaisesFault :
    ∀ op ∈ [0xB, 0xD], let s := at7 (inst op 0 0 0)
      0xB ≤ op ∧ op ≤ 0xD ∧ s.mayExecute bp op ∧ s.othersToGo bp ∧ s.rc.begun = true ∧ s.rc.fresh = false ∧
        s.rc.stop = none ∧ s.rc.schedPause = none ∧ s.isRoot 0 = false ∧ s.isRoot 1 = false := by
  unfold State.mayExecute State.othersToGo; decide +kernel

theorem witness_LastExecutionEndsTheStep :
    ∀ k ∈ [8, 2047], let s := { at7 0 { doneBps := [255] } with
        imem := [(imemKey 7, inst 1 1 0x800 0), (imemKey 7 + 1, inst 1 1 0x800 0), (imemKey k, inst 0xF 0 0 0)] }
      s.mayExecute bp 1 ∧ s.cleanOperands bp ∧ destValid (wDest (s.wordFor bp)) ∧
        (∀ e ∈ s.busyWords bp.cluster (s.cl 31).step, e.1 = bp.bp ∨ e.1 ∈ (s.cl 31).doneBps) ∧
        (s.cl 31).goDm = [] ∧ (s.cl 31).goXq = [] ∧ (s.cl 31).goAr = [] ∧ (s.cl 31).pushNow = [] ∧
        (s.cl 31).retire = [] ∧ (s.cl 31).waitqBad = [] ∧ s.nextBusy bp.cluster ((s.cl 31).step + 1) = some k := by
  unfold State.mayExecute State.cleanOperands destValid; decide +kernel

/-! ## Witnesses: commit, replay and run control -/

/-- Run control in state `st` at cycle 5, with seal `n`. -/
def rcAt (st : RcState) (n : Nat := 0) : RunCtl := { state := st, ecn := 5, fresh := false, sealNext := n }

/-- Bridge 7 paced a millisecond ahead at cycle 5. -/
def paced (rc : RunCtl) : State :=
  { regs [(Reg.LX_IN_CFG 7, 2 ^ 31 + 2 ^ 24), (Reg.LX_PACE_PERIOD 7, 2 ^ 31)] with rc := rc }

theorem witness_CycleBeginsWithItsSeal :
    (∀ n ∈ [0, 1, 4, 5], let s := { State.reset with rc := rcAt .running n }
      s.rc.state = .running ∧ s.mayBegin = true ∧ s.rc.waits = [] ∧ s.paceLacking = [] ∧
        s.flag Reg.SNAP_CFG 31 = false ∧ s.sealHeld = decide (5 < n + s.window)) ∧
    (let s := paced { rcAt .running 5 with waits := [(.seal, 3)] }
     s.mayBegin = true ∧ s.rc.waits = [(.seal, 3)] ∧ s.sealHeld = true ∧ s.paceLacking ≠ []) := by
  and_intros <;> decide +kernel

theorem witness_CommitEndsTheCycle :
    let s := { State.reset with rc := running, clusters := (List.range 64).map fun c => (c, { phase := .waitCommit }) }
    s.live = true ∧ s.rc.begun = true ∧ s.rc.stepping = true ∧ s.allAtEnd = true ∧ s.sendsAccepted = true ∧
      s.stopping = false ∧ s.held = [] := by decide +kernel

/-- A snapshot of cycle 0 in slot 0: VALID, and the CRC of a header of zeros. -/
def oneSnapshot : State :=
  { regs [(Reg.SNAP_CFG, 2 ^ 16)] with
    ddr := [(0xE0, 1), (0xE4, 0x63), (0xE5, 0x5B), (0xE6, 0x21), (0xE7, 0x3D)] }

theorem witness_RollbackReturns :
    (let a : Abort := { n := 5, since := 0, received := true }
     let s := { State.reset with rc := { running with abort := some a } }
     s.rc.abort = some a ∧ a.received = true ∧ a.rolled = false ∧ s.live = true ∧ s.rc.halting = false ∧
       s.atBoundary = true ∧ s.rc.stop = none ∧
       s.rc.schedPause = none ∧ a.n ≤ s.rc.ecn ∧ s.isRoot 0 = false ∧ s.isRoot 1 = false) ∧
    (let s := { State.reset with rc := { running with halting := true } }
     s.live = true ∧ s.rc.halting = true ∧ s.atBoundary = true) := by decide +kernel

theorem witness_RewindRestoreBeginsTheReplay :
    let s := { oneSnapshot with rc := { rcAt .paused with rewind := some 0, rewindGone := true } }
    let u := (s.slotOf true 0).2
    s.rc.rewind = some 0 ∧ s.rc.rewindGone = true ∧ (s.slotOf true 0).1 = some 0 ∧ s.validRegions = [] ∧
      s.rd64 Reg.JRNL_HEAD_LO = s.rd64 Reg.JRNL_TAIL_LO ∧
      (u.fabricReset.restoreSlot (u.slotAddr 0)).rc.state ≠ .fatal ∧
      (((u.fabricReset.restoreSlot (u.slotAddr 0)).wr64 Reg.JRNL_HEAD_LO (s.rd64 Reg.JRNL_TAIL_LO)).slotRead
        (u.slotAddr 0) 0x20 192).2.rc.state ≠ .fatal := by
  dsimp only; and_intros <;> decide +kernel

/-- A control set of tree A (1) or B (2) that arrives on port 7 and spells `m`. -/
def setOn (tree gen : Nat) (m : Msg) : SetHdr := ⟨7, tree, gen, false, m.crc tree gen⟩

/-- `s` acts on `m` from port 7. -/
def heard (s : State) (tree gen : Nat) (m : Msg) : Prop := s.hears (setOn tree gen m) m

/-- Port 7 is UP and the parent on both trees. -/
def child (rc : RunCtl) : State :=
  { regs [(Reg.TREE_CFG 0, 7 * 2 ^ 24), (Reg.TREE_CFG 1, 7 * 2 ^ 24), (Reg.PORT_STAT 7, 2 ^ 31)] with rc := rc }

theorem witness_DrainAndSnapshot :
    (let w : XqWrite := ⟨4, 63, 15, 0, 255, 1⟩
     let s := { State.reset with rc := { rcAt .running 5 with pendingStore := [w] } }
     s.rc.pendingStore = [w] ∧ w.ecn < s.rc.sealNext ∧ s.rc.state ≠ .fatal ∧
       (s.flag Reg.JRNL_CFG 31 && s.flag (Reg.XQ_REGION_CFG w.cluster w.region) 29) = false ∧
       s.rc.drainWait = none ∧ (s.ddrWriteBe .fabric (s.xqAddr w) w.be w.data).1 = false) ∧
    (let s := { State.reset with rc := rcAt .halted }
     s.rc.state = .halted ∧ s.rc.pendingStore = []) ∧
    (∀ bank ∈ [true, false],
     let j : SnapJob := { ecn := 5, slot := 0, bank := 1, bankHeld := bank, content := [], header := [] }
     let s := { State.reset with rc := { rcAt .running 5 with snap := some j } }
     s.rc.snap = some j ∧ j.ecn ≤ s.rc.sealNext ∧ s.rc.state ≠ .fatal ∧
       (s.slotFill (s.slotParts.take 1) (s.slotAddr j.slot) j.bytes).1 = none ∧
       (s.slotFill (if bank then s.slotParts else s.slotParts.drop 1) (s.slotAddr j.slot) j.bytes).1 = none) := by
  and_intros <;> decide +kernel

theorem witness_WatermarksRise :
    ∀ tree ∈ [1, 2], let s := { State.reset with rc := rcAt .running }
      heard s tree 0 (.committed 5) ∧ heard s tree 0 (.globalSeal 5) ∧ s.notRoot ∧ s.accepts 0 5 = true ∧
        s.widenEcn 5 = 5 ∧ s.live = true ∧ s.net.lastSealUp < 5 + 1 := by
  unfold heard State.hears State.notRoot; decide +kernel

theorem witness_SetsThatAreNotActedOn :
    (setOn 1 0 (.abort 5)).bad = false ∧ (setOn 1 0 (.abort 5)).crc ≠ (Msg.abort 6).crc 1 0 ∧
    (({ links := [(7, { peerDown := true })] } : State).link 7).peerDown = true ∧
    (let s := { State.reset with rc := rcAt .running }
     s.cmdLegal 0x01 true = false ∧ canServe s .hostMmio Reg.CMD = true) ∧
    State.reset.cmdLegal 0x02 false = false ∧ State.reset.cmdLegal 0x03 false = false ∧
    State.reset.isRoot 0 = false ∧ canServe State.reset (.core 7) Reg.CMD = true ∧
    (let s := regs [(Reg.TREE_CFG 0, 2 ^ 31)]
     s.isRoot 0 = true ∧ s.cmdLegal 0x10 false = false ∧ canServe s .hostMmio Reg.CMD = true) := by
  decide +kernel

theorem witness_AbortReplayPauseAndHaltSets :
    (let s := { State.reset with rc := rcAt .replaying, net := { gen := 15, aborts := [(5, 1)] } }
     heard s 1 15 (.abort 5) ∧ s.live = true ∧ s.rc.abort = none ∧ s.acted (.abort 5) 15 = false ∧
       s.rc.sealNext ≤ 5 ∧ (∀ a ∈ s.net.aborts, a.1 = 5 → a.2 < 2) ∧
       heard s 1 15 (.replayGo 5 0) ∧ 0 % 16 = (s.net.gen + 1) % 16) ∧
    (let s := { State.reset with rc := { rcAt .paused with rewind := some 0 }, net := { gen := 15 } }
     heard s 2 15 (.rewindGo 0 0) ∧ s.rc.rewind = some 0 ∧ 0 % 16 = (s.net.gen + 1) % 16) ∧
    (let s := { State.reset with rc := { running with schedPause := some 7 } }
     heard s 1 0 (.schedPause 6) ∧ s.live = true ∧ s.net.gen = 0 ∧ s.rc.begun = true ∧
       (∀ q ∈ s.rc.schedPause, 6 < q) ∧ heard s 1 0 (.systemHalt 6 8191) ∧ s.acted (.systemHalt 6 8191) 0 = false) ∧
    (let s := { State.reset with rc := rcAt .paused }
     heard s 2 0 (.systemHalt 6 8191) ∧ s.acted (.systemHalt 6 8191) 0 = false ∧ s.rc.state = .paused) := by
  unfold heard State.hears; dsimp only; and_intros <;> decide +kernel

theorem witness_ReportsGoUpTheirTree :
    ∀ tree ∈ [1, 2], let s := { child (rcAt .running) with
        net := { rolledA := [(8, 5)], rolledB := [(8, 5)], rewindA := [(8, 5)], rewindB := [(8, 5)] } }
      let r := { s with rc := { rcAt .paused with rewind := some 5 } }
      heard r tree 0 (.rewindReport 5 false 0) ∧ r.rc.rewind = some 5 ∧ r.net.gen = 0 ∧ r.widenEcn 5 = 5 ∧ r.notRoot ∧
      s.notRoot ∧ s.portSends (s.parent (tree - 1)) = true ∧ s.live = true ∧ s.net.gen = 0 ∧ s.widenEcn 5 = 5 ∧
        heard s tree 0 (.abortUp 5 8191) ∧ heard s tree 0 (.schedStop 5 8191) ∧ heard s tree 0 (.haltReport 8191) ∧
        heard s tree 0 (.triggerUp 5 8191 255 255) ∧ heard s tree 0 (.commandRelay 5 1 0x10 0) ∧
        heard s tree 0 (.rewindReport 5 true 2) ∧
        heard s tree 0 (.rolledBack 5) ∧
        ∀ l ∈ [s.net.rolledA, s.net.rolledB, s.net.rewindA, s.net.rewindB],
          ∀ p ∈ 8 :: s.children (tree - 1), p = 7 ∨ (p, 5) ∈ l := by
  unfold heard State.hears State.notRoot
  rintro tree (_ | ⟨_, _ | ⟨_, ⟨⟩⟩⟩) <;> dsimp only <;> and_intros <;> decide +kernel

theorem witness_CommandAndTriggerSetsTakeEffect :
    let s := { State.reset with rc := { state := .loaded } }
    heard s 1 0 (.command 9 1 0x15 0) ∧ s.acted (.command 9 1 0x15 0) 0 = false ∧
      heard s 1 0 (.command 9 2 0x10 0) ∧ s.acted (.command 9 2 0x10 0) 0 = false ∧
      s.rc.state = .loaded ∧ s.rc.inReplay = false ∧ s.rc.rewind = none ∧
      (let t := { regs [(Reg.TREE_CFG 0, 2 ^ 31), (Reg.TREE_CFG 1, 2 ^ 31)] with rc := { state := .loaded } }
       heard t 1 0 (.command 9 2 0x10 0) ∧ t.rc.state = .loaded ∧ t.window + 1 ≤ t.nBanks ∧ t.treeCheck = none ∧
         t.power.doms = []) ∧
      heard s 2 0 (.trigger 5 8191 255 255) ∧ s.acted (.trigger 5 8191 255 255) 0 = false ∧ s.rc.state ≠ .replaying ∧
      s.net.trigWait = [] := by
  unfold heard State.hears; dsimp only; and_intros <;> decide +kernel

theorem witness_LocalCommandsChangeTheState :
    (∀ code ∈ [0x04, 0x0F, 0xFF], code % 256 ∉ cmdCodes) ∧ canServe State.reset .hostMmio Reg.CMD = true ∧
    State.reset.cmdLegal 0x01 (decide (1 % 2 = 1)) = true ∧
    (∀ v ∈ [false, true], let s := { regs [(Reg.IMG_CFG, 2048 + 4 * 2 ^ 16 + 5 * 2 ^ 24)] with
       rc := { state := .loading, variant := v, ret := .halted } }
     s.cmdLegal 0x02 false = true ∧ s.loadBlock = none ∧ s.imageMismatches = [] ∧ s.cmdLegal 0x03 false = true ∧
       canServe s (.core 0) Reg.CMD = true) := by
  decide +kernel

/-- A root of both trees with no child, in run-control state `st`. -/
def root (rc : RunCtl) : State := { regs [(Reg.TREE_CFG 0, 2 ^ 31), (Reg.TREE_CFG 1, 2 ^ 31)] with rc := rc }

theorem witness_SystemCommandsOfTheRoot :
    (∀ rc ∈ [{ state := .loaded }, rcAt .paused, { rcAt .paused with inReplay := true }], let s := root rc
     canServe s .hostMmio Reg.CMD = true ∧ s.isRoot 0 = true ∧ s.rc.cmd = none ∧ (s.rc.state = .loaded ∨ s.rc.state = .paused) ∧ s.window + 1 ≤ s.nBanks ∧
       s.treeCheck = none ∧ s.acted (.command 0 ((s.rc.cseq + 1) % 65536) 0 0) 0 = false ∧
       s.acted (.systemHalt 0 0) s.net.gen = false) ∧
    (let s := root { running with sealNext := 5 }
     canServe s .hostMmio Reg.CMD = true ∧ s.isRoot 0 = true ∧ s.live = true ∧ s.net.acted = [] ∧ s.rc.cmd = none ∧ s.rc.stop = none ∧ s.rc.schedPause = none ∧
       s.acted (.command 0 1 0 0) 0 = false ∧ s.rc.ecn < s.rc.sealNext + s.window - 1 + s.fld Reg.RC_CFG 0 8) ∧
    (let s := { root (rcAt .paused) with ddr := oneSnapshot.ddr, csr := ((root {}).wr Reg.SNAP_CFG (2 ^ 16)).csr }
     canServe s .hostMmio Reg.CMD = true ∧ s.isRoot 0 = true ∧ s.rc.state = .paused ∧ s.rc.cmd = none ∧ s.acted (.command 0 1 0 0) 0 = false ∧
       s.acted (.command 0 2 0 0) 0 = false ∧ (s.slotOf false (s.rd64 Reg.CMD_TARGET_LO)).1.isSome ∧
       (s.slotOf false (s.rd64 Reg.CMD_TARGET_LO)).2.rc.state ≠ .fatal) := by
  dsimp only; and_intros <;> decide +kernel

/-! ## Witnesses: fabric checks, loads, the journal and memory protection -/

theorem witness_XqResponsesAndBackgroundChecks :
    (let x : XqTag := ⟨9, 3, false, none, 0⟩
     let s := { State.reset with clusters := [(63, { tags := [(31, some x)] })] }
     s.xqTagOf 63 9 = some (31, x) ∧ s.rc.state ≠ .fatal ∧ s.xqTagOf 63 8 = none ∧ s.isRoot 0 = false ∧
       s.isRoot 1 = false ∧ s.rc.sealNext ≤ s.rc.ecn ∧ s.rc.unsealed = [] ∧ s.rc.abort = none) ∧
    (let st : Stall := ⟨.inbox, .inbox, 0, 0, 0, false⟩
     let s := { regs [(Reg.FAB_WD, 1)] with clusters := [(63, { stall := some st })], time := { clock := 1001 } }
     (s.cl 63).stall = some st ∧ st.wdDone = false ∧ s.fld Reg.FAB_WD 0 16 ≠ 0 ∧
       st.began + s.fld Reg.FAB_WD 0 16 * 1000 < s.now) ∧
    (let s := regs [(Reg.FAB_SCRUB, 1), (Reg.FAB_CFG, 0x50001)]
     63 < s.nClusters ∧ s.flag Reg.FAB_SCRUB 0 = true ∧ (s.cl 63).opened = false ∧ (s.dom 63).level < 2 ∧
       s.passLocation (s.scrubPos.get (fun _ => 0) 63) = some 256 ∧ 256 < 524288) := by
  and_intros <;> decide +kernel

theorem witness_LoadsBeginAndEnd :
    (∀ st ∈ [RcState.idle, .loading], let s := { State.reset with rc := { state := st } }
      63 < s.nClusters ∧ s.rc.variant = false ∧ (s.rc.state = .idle ∨ s.rc.state = .loading) ∧ 63 ∉ s.rc.loadBusy ∧
        63 ∉ s.rc.dmBusy ∧ canServe s .hostMmio (Reg.IMEM_CTRL 63) = true ∧ canServe s (.core 0) (Reg.DM_CTRL 63) = true) ∧
    (let s := { regs [(Reg.FAB_CFG, 0x50001)] with
       rc := { state := .loading, loadBusy := [63], dmBusy := [63], lastZero := [(63, true)] } }
     63 < 64 ∧ 63 ∈ s.rc.loadBusy ∧ 63 ∉ s.rc.loadInit ∧ 63 ∈ s.rc.dmBusy ∧
       s.rc.lastZero.get (fun _ => false) 63 = true ∧
       let u := (s.modRc fun r => { r with loadBusy := r.loadBusy.filter (· ≠ 63), loadInit := r.loadInit.filter (· ≠ 63) }).setFlag
         (Reg.IMEM_CTRL 63) 30 false
       (u.loaderRead (u.baseOf (Reg.IMEM_BASE_LO 63)) (u.cycleLen * 3072)).1 = .ok []) := by
  dsimp only; and_intros <;> decide +kernel

theorem witness_JournalTailAndTrim :
    (State.reset.preRun = true ∧ State.reset.rc.trim = none ∧ State.reset.flag Reg.JRNL_CFG 30 = false ∧
      canServe State.reset .hostMmio Reg.JRNL_CFG = true ∧ canServe State.reset .hostMmio Reg.JRNL_TRIM_HI = true) ∧
    (let s := { State.reset with rc := { trim := some 0 }, power := { doms := [(0, { level := 3 })] } }
     s.rc.trim = some 0 ∧ (∃ c ∈ s.clusterIds, (s.dom c).level < 2) ∧
       s.rd64 Reg.JRNL_HEAD_LO ≤ s.rd64 Reg.JRNL_TAIL_LO) := by decide +kernel

/-- The state after reset but for the rights of region 0. -/
def rights (v : Nat) : State := regs [(Reg.CR_REG_RIGHTS 0, v)]

theorem witness_DdrAccessFollowsItsRights :
    ∀ who ∈ [Initiator.hostMmio, .core 7, .engine], ∀ r ∈ [2 ^ 32 - 1, 0], let s := rights r
      s.plainAccess who (2 ^ 24 - 8) 8 0 ∧ s.ddr.wf (fun _ => 0) = true ∧
        (s.rd (Reg.CR_REG_RIGHTS 0)).testBit (2 * who.num) = decide (r ≠ 0) ∧
        (s.rd (Reg.CR_REG_RIGHTS 0)).testBit (2 * who.num + 1) = decide (r ≠ 0) := by
  unfold State.plainAccess; decide +kernel

theorem witness_leavesDdr : leavesDdr ⟨[0], [], [64], [3], []⟩ := ⟨rfl, rfl⟩

theorem witness_DdrAccessKeepsCanonicalForm : ({ ddr := [(3, 1), (7, 255)] } : State).ddr.wf (fun _ => 0) = true := by
  decide

theorem witness_KeyCommandsActOnFreeSlotsOnly :
    (∀ slot ∈ [0, 31], slot < 32 ∧ State.reset.flag Reg.CRYPT_KEY_STAT slot = false ∧
      (regs [(Reg.CRYPT_KEY_STAT, 2 ^ 31 + 1)]).flag Reg.CRYPT_KEY_STAT slot = true) ∧
    State.reset.slotInUse 31 = false ∧ (regs [(Reg.CR_REG_CFG 15, 2 ^ 31 + 2 ^ 17 + 31)]).slotInUse 31 = true ∧
    Initiator.core 1 ≠ .core 0 ∧
    (∀ s ∈ [State.reset, regs [(Reg.CRYPT_KEY_STAT, 2 ^ 31 + 1)], regs [(Reg.CR_REG_CFG 15, 2 ^ 31 + 2 ^ 17 + 31)]],
      ∀ init ∈ [Initiator.core 0, .core 1, .hostMmio], canServe s init Reg.CRYPT_KEY_CMD = true) ∧
    State.reset.anyCounts (Reg.CR_REG_CFG 15) (2 ^ 31 + 2 ^ 31 % 2 ^ 31) = true := by decide +kernel

/-- A CONF_INT region 15 of five units, its lines in the form of key 0, in re-key at page 0. -/
def conf2 : State :=
  { regs [(Reg.CR_REG_CFG 15, 2 ^ 31 + 2 * 2 ^ 16), (Reg.CR_REG_SIZE 15, 5), (Reg.CR_REG_STAT 15, 2 * 2 ^ 29)] with
    crypt := { tags := [(2 ^ 20, 2 ^ 20 + 2 ^ 18, .metadata 0 15 (2 ^ 26) 16384), (0, 2 ^ 20, .int 0 15)] } }

theorem witness_RegionsAreEnabledLockedAndRekeyed :
    (∀ word ∈ [0, 2 ^ 16 + 31, 2 ^ 17 + 31], let s := regs [(Reg.CRYPT_KEY_STAT, 2 ^ 31)]
      canServe s (.core 0) (Reg.CR_REG_CFG 15) = true ∧ canServe s (.core 0) Reg.CRYPT_CTRL = true ∧ s.flag Reg.CRYPT_CTRL 31 = false ∧ s.flag (Reg.CR_REG_CFG 15) 31 = false ∧ s.regionState 15 = 0 ∧
        word.testBit 30 = false ∧ bits word 16 2 ≤ 2 ∧
        (bits word 16 2 = 0 ∨ s.flag Reg.CRYPT_KEY_STAT (bits word 0 5) = true)) ∧
    (let s := regs [(Reg.CR_REG_STAT 15, 2 ^ 29)]
     s.regionState 15 = 1 ∧ s.flag Reg.CRYPT_STAT 31 = false) ∧
    (∀ mode ∈ [1, 2], let s := regs [(Reg.CR_REG_CFG 15, 2 ^ 31 + mode * 2 ^ 16 + 31 * 2 ^ 8), (Reg.CRYPT_KEY_STAT, 2 ^ 31)]
      canServe s (.core 0) (Reg.CR_REG_CFG 15) = true ∧ s.flag Reg.CRYPT_CTRL 31 = false ∧ s.flag (Reg.CR_REG_CFG 15) 31 = true ∧
        (s.regionMode 15 = 1 ∨ s.regionMode 15 = 2) ∧ s.regionState 15 = 0 ∧ (∀ q < 16, s.regionState q ≠ 2) ∧
        s.flag Reg.CRYPT_KEY_STAT (s.fld (Reg.CR_REG_CFG 15) 8 5) = true) ∧
    (∀ size ∈ [1, 16384], let s := regs [(Reg.CR_REG_CFG 15, 2 ^ 31 + 2 ^ 16), (Reg.CR_REG_SIZE 15, size),
        (Reg.CR_REG_STAT 15, 2 * 2 ^ 29 + (size * 4096 - 2))]
      s.regionState 15 = 2 ∧ s.flag Reg.CRYPT_STAT 31 = false ∧ s.crypt.waits = [] ∧
        s.fld (Reg.CR_REG_SIZE 15) 0 15 ≤ 16384 ∧ s.fld (Reg.CR_REG_STAT 15) 0 26 + 1 < s.dataSize 15 / 4096 ∧
        s.regionMode 15 = 1) ∧
    (let s := conf2
     s.regionState 15 = 2 ∧ s.flag Reg.CRYPT_STAT 31 = false ∧ s.crypt.waits = [] ∧ s.fld (Reg.CR_REG_SIZE 15) 0 15 ≤ 16384 ∧
       s.fld (Reg.CR_REG_STAT 15) 0 26 + 1 < s.dataSize 15 / 4096 ∧ s.regionMode 15 = 2 ∧
       (s.checkLines .engine 15 ((s.regionBase 15 / 64 + s.fld (Reg.CR_REG_STAT 15) 0 26 * 64) * 64) 4096).1 = none) := by
  dsimp only; and_intros <;> decide +kernel

/-! ## Witnesses: trace, bridges, host, rings and scratchpads -/

/-- Spoor in state `k`, with DDR = 0. -/
def spoorIn (k : Nat) : State := regs [(Reg.SPOOR_STAT, k * 2 ^ 29)]

theorem witness_SpoorFollowsItsCommandsAndPackets :
    (∀ k ∈ [0, 1, 2, 3, 4, 5], (spoorIn k).spState = k ∧ (spoorIn k).spoor.upsets = [] ∧
      ∀ off ∈ [Reg.SPOOR_CTRL, Reg.SPOOR_BUF_DATA, Reg.SPOOR_SCOPE], canServe (spoorIn k) .hostMmio off = true) ∧
    (∀ level ∈ [0, 2], (regs [(Reg.DBG_AUTH, level)]).flag Reg.SPOOR_SCOPE 0 = false ∧
      canServe (regs [(Reg.DBG_AUTH, level)]) .debug Reg.SPOOR_SCOPE = true) ∧
    (∀ st ∈ [2, 3], let s := { State.reset with badger := { cores := [(7, { state := st })] } }
       (s.core 7).state = st ∧ s.irqOf 7 (7 % 64) = true ∧ s.irqOf 7 (16 % 64) = false) ∧
    (let s := { regs [(Reg.SPOOR_STAT, 2 * 2 ^ 29), (Reg.SPOOR_STOP, 7)] with time := { clock := 7000 } }
     s.spState = 2 ∧ s.flag Reg.SPOOR_TRIG_CFG 31 = false ∧ s.rd Reg.SPOOR_STOP * 1000 ≤ s.now - s.spoor.trigAt) ∧
    (let s := { regs [(Reg.SPOOR_STAT, 2 * 2 ^ 29), (Reg.SPOOR_TRIG_CFG, 2 ^ 31), (Reg.SPOOR_STOP, 64)] with
       spoor := { pos := 64 } }
     s.spState = 2 ∧ s.flag Reg.SPOOR_TRIG_CFG 31 = true ∧ s.rd Reg.SPOOR_STOP ≤ s.spoor.pos - s.spoor.trigEnd) ∧
    (spoorIn 3).flag Reg.SPOOR_CFG 31 = false ∧
    (State.reset.flag Reg.SPOOR_SRC 7 = false ∧ State.reset.flag Reg.SPOOR_SRC 15 = false) ∧
    (let s := { spoorIn 2 with time := { clock := 100000 } }
     s.spOn = true ∧ s.spoor.tsAt + s.fld Reg.SPOOR_CFG 0 10 * 1000 ≤ s.now ∧ s.flag Reg.SPOOR_CFG 31 = false) ∧
    ((State.reset.core 0).state = 1 ∧ (State.reset.core 7).state ≠ 1 ∧ 0 ∉ State.reset.spoor.resumed) ∧
    (let s := { spoorIn 1 with spoor := { queue := List.replicate 64 0 } }
     64 ≤ s.spoor.queue.length ∧ s.spoor.err = false ∧ s.spOn = true) := by
  dsimp only; and_intros <;> decide +kernel

/-- Shale configured with every bridge connected, and every ingress channel enabled. -/
def bridges (l : List (Nat × Nat)) : State :=
  { regs ([(Reg.SH_STATUS, 4 * 2 ^ 29), (Reg.LX_IN_CFG 7, 2 ^ 31)] ++ l) with
    shale := { frames := [(17172, BitVec.allOnes 2048)], holds := [(8, { resets := false, writes := false, outputs := false })] } }

theorem witness_LynxWordsEnterAndLeave :
    (let s := bridges []
     s.flag (Reg.LX_IN_CFG 7) 31 = true ∧ s.lxOpen 7 = true ∧ s.lxFree 7 ≠ 0 ∧ s.flag (Reg.LX_IN_CFG 7) 28 = false) ∧
    (let s := bridges [(Reg.LX_IN_CFG 7, 3 * 2 ^ 30), (Reg.LX_IN_WRITE_POS_LO 7, 8192)]
     s.flag (Reg.LX_IN_CFG 7) 31 = true ∧ s.lxOpen 7 = true ∧ s.lxFree 7 = 0 ∧ s.flag (Reg.LX_IN_CFG 7) 30 = true) ∧
    (let s := bridges [(Reg.LX_IN_WRITE_POS_LO 7, 8192)]
     s.flag (Reg.LX_IN_CFG 7) 31 = true ∧ s.lxOpen 7 = true ∧ s.lxFree 7 = 0 ∧ s.flag (Reg.LX_IN_CFG 7) 30 = false ∧
       (s.dom 105).level = 0 ∧ (s.dom 105).goal = none) ∧
    (∀ v ∈ [0, 2 ^ 31], let s := regs [(Reg.LX_EG_CFG 7, v)]
     s.preRun = true ∧ canServe s .hostMmio (Reg.LX_EG_CFG 7) = true ∧ s.flag (Reg.LX_EG_CFG 7) 31 = decide (v ≠ 0)) ∧
    (∀ mode ∈ [0, 1, 2, 3], let f : LxFrame := ⟨5, mode, 0, 1, 0, [1], 0, 0, false⟩
     let s := { bridges [] with lynx := { waiting := [(7, [f])] }, time := { tb0 := 2 ^ 40 } }
     s.egCurrent 7 = none ∧ s.egWaiting 7 = [f] ∧ f.due ≤ s.baseTime (s.egBase f) ∧
       s.rc.state ≠ .fatal ∧ s.lxOpen 7 = true) ∧
    (let f : LxFrame := ⟨5, 0, 0, 0, 0, [1], 0, 0, true⟩
     let s := { bridges [] with lynx := { current := [(7, some f)] } }
     s.egCurrent 7 = some f ∧ f.words = [1] ∧ s.flag (Reg.LX_EG_CFG 7) 28 = false ∧ s.lxOpen 7 = true ∧ s.preRun = true) := by
  dsimp only; and_intros <;> decide +kernel

/-- Message port 15, both ways, with a ring of 2^4 words at 0, and `n` words in the host-out ring. -/
def ports (n : Nat) : State :=
  regs [(Reg.MP_IN_CFG 15, 2 ^ 31 + 4), (Reg.MP_OUT_CFG 15, 2 ^ 31 + 4), (Reg.MP_OUT_WRITE_POS_LO 15, n)]

theorem witness_HostLinkAndMessagePorts :
    (let s := { regs [(Reg.BAR2_CTRL, 2 ^ 31 + 0x22)] with host := {} }
     s.host.up = false ∧ s.host.perst = false ∧ s.flag Reg.BAR2_CTRL 31 = true) ∧
    ({ host := { up := true } } : State).host.up = true ∧
    (∀ s ∈ [State.reset, ports 1], s.hostDeaf .hostMmio = false) ∧
    ({ boot := { inReset := true } } : State).hostDeaf .hostMmio = true ∧
    (let s := ports 0
     s.flag (Reg.MP_IN_CFG 15) 31 = true ∧ s.inCredit 15 ≠ 0 ∧ s.outHeld 15 = 0 ∧
       (s.mpPut (Reg.MP_IN_BASE_LO 15) (Reg.MP_IN_CFG 15) (s.rd64 (Reg.MP_IN_WRITE_POS_LO 15)) 7).1 = false) ∧
    State.reset.flag (Reg.MP_IN_CFG 0) 31 = false ∧
    (let s := regs [(Reg.MP_IN_CFG 15, 2 ^ 31 + 4), (Reg.MP_IN_WRITE_POS_LO 15, 16)]
     s.flag (Reg.MP_IN_CFG 15) 31 = true ∧ s.inCredit 15 = 0) ∧
    (let s := ports 1
     s.outHeld 15 ≠ 0 ∧
       (s.mpWord (Reg.MP_OUT_BASE_LO 15) (Reg.MP_OUT_CFG 15) (s.rd64 (Reg.MP_OUT_READ_POS_LO 15))).1 = some 0) ∧
    (State.reset.isolated 10 = false ∧ (regs [(Reg.RING_ISO_LO, 2 ^ 10)]).isolated 10 = true) := by
  dsimp only; and_intros <;> decide +kernel

/-- DMA channel 7 with one descriptor at address 0: host address 8, internal address 2^24, `n` bytes, direction `dir`. -/
def dma (n dir : Nat) : State :=
  { regs [(Reg.DMA_CFG 7, 2 ^ 31 + 4), (Reg.DMA_TAIL 7, 1)] with
    ddr := Map.setAll (fun _ => 0) [] ((List.range 32).zip
      (bytesOfNat (8 + 2 ^ 24 * 2 ^ 64 + n * 2 ^ 128 + dir * 2 ^ 160) 32))
    host := { up := true, maxPayload := 512, maxRead := 128 } }

theorem witness_DmaMovesItsBytes :
    ∀ n ∈ [4, 2 ^ 24], ∀ dir ∈ [0, 1], let s := dma n dir
      let v := natOfBytes ((List.range 32).map fun j => s.ddr.get (fun _ => 0) (0 + j))
      s.flag (Reg.DMA_CFG 7) 31 = true ∧ s.fld (Reg.DMA_HEAD 7) 0 12 ≠ s.fld (Reg.DMA_TAIL 7) 0 12 ∧
        s.rd64 (Reg.DMA_RING_BASE_LO 7) % 2 ^ 40 + s.fld (Reg.DMA_HEAD 7) 0 12 * 32 = 0 ∧
        s.ddr.wf (fun _ => 0) = true ∧ s.plainAccess .hostDma 0 32 0 ∧ s.plainAccess .hostDma (2 ^ 24) n 0 ∧
        (s.rd (Reg.CR_REG_RIGHTS 0)).testBit 2 = true ∧ (s.rd (Reg.CR_REG_RIGHTS 0)).testBit 3 = true ∧
        s.host.up = true ∧ 0 < s.host.maxPayload ∧ 0 < s.host.maxRead ∧ bits v 0 64 = 8 ∧ bits v 64 64 = 2 ^ 24 ∧ bits v 128 32 = n ∧ bits v 160 1 = dir ∧
        bits v 162 1 = 0 ∧ 2 ^ 24 + n ≤ 2 ^ 38 := by
  unfold State.plainAccess; decide +kernel

/-- A packet of core 7 (stop 27) and channel `vc` for target `t`, at tag 9, with the flit error `err`. -/
def pkt (vc t : Nat) (onRing : Bool) (err : Option Bool := none) : Pkt :=
  ⟨.core 7, 27, 9, t, ⟨vc, 9, onRing⟩, if vc = 0 ∧ onRing then [] else [⟨0, 9, false⟩], 1, 0, err, 100⟩

/-- The stop of core 7. -/
def stop7 : Nat := (sourceStop (.core 7) 27).getD 0

/-- The request of that packet. -/
def req (t : Nat) (stale : Bool := false) : RingReq :=
  ⟨stop7, t, 9, initDomain (.core 7) 27, (State.reset.routeOf stop7 t).1, (State.reset.routeOf stop7 t).2, 0, stale⟩

theorem witness_RingPacketsReachTheirTargets :
    (let s := State.reset
     s.hostDeaf (.core 7) = false ∧ sourceStop (.core 7) 27 = some stop7 ∧ 100 ≤ s.fld Reg.SPOOR_RING_CFG 16 8 ∧
       (∀ t ∈ [27, 47], (∀ vc ∈ [0, 1, 2], ∀ b ∈ [false, true], s.winsLink (pkt vc t b) = true) ∧
         s.winsLink ⟨.core 7, 27, 9, t, ⟨0, 0, false⟩, [⟨0, 0, true⟩], 1, 0, none, 100⟩ = false ∧
         s.hasCreditFor t = true ∧ s.injectionStopped stop7 (initDomain (.core 7) 27) = false)) ∧
    (let s := { State.reset with ring := { outst := (List.range 32).map fun k => { req 27 with tag := k } } }
     s.hasCreditFor 27 = false ∧ s.winsLink (pkt 0 27 false) = true) ∧
    (∀ b ∈ [false, true], let s := { State.reset with ring := { outst := [req 47 b] } }
     s.ring.outst.find? (pktNames (pkt 1 47 false) stop7) = some (req 47 b) ∧ (req 47 b).stale = b) ∧
    (let s := { State.reset with ring := { flights := [(req 47, true)] } }
     s.ring.flights.find? (fun f => f.2 = true && pktNames (pkt 1 47 true) stop7 f.1) = some (req 47, true)) ∧
    (∀ t ∈ [27, 47], let s := { regs [(Reg.RING_ISO_LO, 2 ^ 27), (Reg.RING_ISO_HI, 2 ^ 15)] with ring := { flights := [(req t, false)] } }
     s.ring.flights.find? (fun f => f.2 = false && pktNames (pkt 0 t true) stop7 f.1) = some (req t, false) ∧
       hopTo (req t).src (req t).down (req t).hops = stopOfTarget t ∧ s.isolated t = true ∧
       State.reset.isolated t = false ∧ State.reset.parksRequest t = false) ∧
    (let s := { State.reset with ring := { flights := [(req 20, false)], fences := [(20, 98), (20, 99), (20, 100), (20, 101),
         (20, 102), (20, 103), (20, 104), (20, 105)] } }
     s.parksRequest 20 = true ∧ s.isolated 20 = false ∧ s.parkedAt 20 < 16 ∧
       hopTo (req 20).src (req 20).down (req 20).hops = stopOfTarget 20 ∧
       s.ring.flights.find? (fun f => f.2 = false && pktNames (pkt 0 20 true) stop7 f.1) = some (req 20, false)) := by
  dsimp only; and_intros <;> decide +kernel

theorem witness_RingsReachFenceAndIsolate :
    (let r := req 47
     let s := { State.reset with ring := { outst := [r] }, time := { clock := 4000 } }
     s.ring.outst.find? (fun q => q.target = 47 && !q.stale &&
       decide (s.fld Reg.RING_CFG 0 8 * 1000 ≤ s.now - q.since)) = some r) ∧
    (∀ t ∈ [26, 47], let s := regs [(Reg.RING_ISO_LO, 2 ^ 26), (Reg.RING_ISO_HI, 2 ^ 15)]
     s.isolated t = true ∧ canServe s (.core 0) (if t < 32 then Reg.RING_ISO_LO else Reg.RING_ISO_HI) = true) ∧
    (let s := { State.reset with power := { doms := [(110, { goal := some 2 })] } }
     15 ∈ domStops 110 ∧ (s.dom 110).goal.isSome ∧ s.fencedFor 15 110 = false) ∧
    (let s := { State.reset with ring := { fencing := [(15, 110)] } }
     15 ∈ domStops 110 ∧ (15, 110) ∈ s.ring.fencing ∧ s.stopDrained 15 110 = true ∧ s.flag Reg.SPOOR_SRC 17 = false ∧
       (s.dom 110).goal = none ∧ (∃ u ∈ domStops 110, u ≠ 15 ∧ (u, 110) ∉ s.ring.fences)) ∧
    (∀ d ∈ [98, 105], let s := { State.reset with ring := { fencing := [(20, d)] }, power := { doms := [(d, { goal := some 2 })] } }
     20 ∈ domStops d ∧ (20, d) ∈ s.ring.fencing ∧ s.stopDrained 20 d = true ∧ (s.dom d).goal = some 2 ∧ s.levelOk d 2 = true) := by
  dsimp only; and_intros <;> decide +kernel

theorem witness_ScratchpadBytesAndHandover :
    (State.reset.isolated 47 = false ∧ State.reset.spad.mem.wf (fun _ => 0) = true ∧
      State.reset.spadGate (.core 0) 15 = .reaches ∧ State.reset.spad.bad = [] ∧ State.reset.spad.soft = [] ∧
      (∀ who ∈ [Initiator.core 0, .hostMmio], State.reset.hostDeaf who = false) ∧ canServe State.reset (.core 0) (Reg.SPAD_OWNER 15) = true ∧
      State.reset.spadGate .hostMmio 15 = .notOwner ∧ (2 ^ 18 - 8) % 8 = 0 ∧
      (regs [(Reg.SPAD_OWNER 15, 2 ^ 31)]).spadGate (.core 0) 15 = .busy) ∧
    State.reset.flag (Reg.SPAD_OWNER 15) 31 = false ∧
    (let s := { regs [(Reg.SPAD_OWNER 15, 2 ^ 31)] with spad := { handover := [(15, some (9, true))] } }
     s.spad.handover.get (fun _ => none) 15 = some (9, true) ∧ (s.dom 97).level = 0 ∧ (s.dom 97).goal = none) := by
  decide +kernel

/-! ## Witnesses: acquisition, DSP, time and Badger -/

/-- DDR from address 0 on. -/
def ddrOf (l : List Nat) : Map Byte := Map.setAll (fun _ => 0) [] ((List.range l.length).zip (l.map (BitVec.ofNat 8)))

theorem witness_AcquisitionAndDspCommands :
    (∀ e ∈ [(0, true), (1, false), (2, true), (2, false)],
      let s := regs [(Reg.ACQ_TRIGIO 7, e.1 * 8), (Reg.ACQ_STAR_CFG, e.1)]
      s.flag (Reg.ACQ_TRIGIO 7) 0 = false ∧ s.fld (Reg.ACQ_TRIGIO 7) 3 2 = e.1 ∧ s.fld Reg.ACQ_STAR_CFG 0 2 = e.1 ∧
        s.rc.state ≠ .replaying ∧ s.rc.state ≠ .fatal ∧ s.notRoot ∧ s.net.trigWait = [] ∧ s.net.trigSeq ∉ s.net.trigOut ∧
        (let f := { s with rc := { state := .fatal } }
         f.flag (Reg.ACQ_TRIGIO 7) 0 = false ∧ f.rc.state = .fatal)) ∧
    (∀ k ∈ [0, 4, 5], let s := { regs [(Reg.ACQ_POST, 10)] with acq := { run := { cap := k } } }
      canServe s .hostMmio Reg.ACQ_CTRL = true ∧ s.cap = k ∧ s.flag Reg.ACQ_CTRL 30 = false ∧ s.flag Reg.ACQ_CTRL 31 = false ∧
        s.rd Reg.ACQ_PRE + s.rd Reg.ACQ_POST + 1 ≤ s.ringCap) ∧
    (let s : State := { acq := { pulses := [(8, some 9)] }, time := { clock := 9 } }
     s.acq.pulses.get (fun _ => none) 8 = some 9 ∧ 9 ≤ s.now) ∧
    (∀ off ∈ [blockBase 0 + 4, blockBase 4 + 4, Reg.MEAS_CFG 3, Reg.DSP_CTRL], canServe State.reset .hostMmio off = true) ∧
    canServe { acq := { blocks := [(4, { seq := 2, wait := some (2, [], 0) })] } } .hostMmio (blockBase 4 + 4) = true ∧
    (State.reset.resBlock 4).wait = none ∧
    (({ acq := { blocks := [(4, { seq := 2, wait := some (2, [], 0) })] } } : State).resBlock 4).wait = some (2, [], 0) ∧
    State.reset.flag (Reg.MEAS_CFG 3) 31 = false ∧ State.reset.flag Reg.DSP_CTRL 30 = false ∧
    (∀ d ∈ [[0, 0, 0, 0], [5, 0x88, 0, 0, 1, 0, 0, 0], [5, 0x80, 0, 0, 1, 0, 0, 0]],
      let s := { regs [(Reg.DSP_CTRL, 2 ^ 30)] with ddr := ddrOf d }
      let q := s.memRead .acq s.acq.dsp.addr 64
      let x := dspDesc (natOfBytes (bytesOfMap q.2.1 64))
      s.flag Reg.DSP_CTRL 30 = true ∧ q.1 = false ∧ x.invalid = decide (d.length = 4) ∧
        x.last = decide (d.getD 1 0 = 0x88) ∧ (DspRun.run ⟨q.2.2, q.2.2.acq.dsp, false⟩ x).bad = false) := by
  unfold State.notRoot; dsimp only; and_intros <;> decide +kernel

/-- Timer 7 enabled and due, with action `act`, period `p`, and command `cmd`. -/
def timer (act p cmd : Nat) : State :=
  { regs [(Reg.TMR_CFG 7, 2 ^ 31 + act * 2 ^ 28 + 0xFF8000), (Reg.TMR_CMD 7, cmd), (Reg.ACQ_TRIGIO 7, 1), (Reg.ACQ_POST, 10)] with
    time := { tb0 := 100, tb1 := 100, tmrTime := [(7, 100)], tmrPeriod := [(7, p)] } }

theorem witness_Tb0AndTimers :
    (let s := { regs [(Reg.TB0_CFG, 1), (Reg.TB0_STAT, 2 ^ 30)] with time := { tb0 := 10 ^ 9 + 7 } }
     s.isDiscipline none true = true ∧ s.flag Reg.TB0_STAT 30 = true ∧ s.time.setAt ≠ some s.time.clock ∧
       ({ s with time := { setAt := some 0 } } : State).time.setAt = some 0) ∧
    (canServe State.reset .hostMmio Reg.TB0_CTRL = true ∧ 2 ^ 32 - 1 < 2 ^ 32) ∧
    (∀ e ∈ [2000, 2001], let s := { regs [(Reg.TB0_CFG, 2 * 2 ^ 16 + 1)] with time := { tb0 := 10 ^ 9 + e } }
     let near : Nat := (s.time.tb0 + s.edgePeriod / 2) / s.edgePeriod * s.edgePeriod
     s.isDiscipline none true = true ∧ s.flag Reg.TB0_STAT 30 = false ∧
       (s.fld Reg.TB0_CFG 16 16 * 1000 < ((s.time.tb0 : Int) - (near : Int)).natAbs ↔ e = 2001)) ∧
    (let s := { regs [(Reg.TB0_CFG, 1)] with time := { clock := 1500000000 } }
     s.fld Reg.TB0_CFG 0 2 ≠ 0 ∧ s.time.lostNoted = false ∧ s.edgePeriod * 3 / 2 ≤ s.time.clock - s.time.lastEdge) ∧
    (∀ act ∈ [0, 1, 2], ∀ p ∈ [0, 50], let s := timer act p 1
      s.timerDue 7 = true ∧ (∀ j < 7, s.timerDue j = false) ∧ s.time.late = [] ∧ s.time.skip = [] ∧
        s.time.tmrPeriod.get (fun _ => 0) 7 = p ∧ s.fld (Reg.TMR_CFG 7) 28 2 = act ∧ s.cap = 0 ∧
        s.flag Reg.ACQ_CTRL 30 = false ∧ s.rd Reg.ACQ_PRE + s.rd Reg.ACQ_POST + 1 ≤ s.ringCap ∧
        s.fld (Reg.TMR_CMD 7) 0 8 = 1 ∧ s.cmdLegal 1 (decide (s.fld (Reg.TMR_CMD 7) 8 16 % 2 = 1)) = true) := by
  dsimp only; and_intros <;> decide +kernel

/-- A good set of type `typ` and tree `t` on port 7, SEQ 255, of master 0. -/
def exch (typ t : Nat) : ExchSet := ⟨7, t, 255, 0, 0, false, crc16 (exchBytes typ t 255 0 0), 65535⟩

theorem witness_TimeExchangesAndServos :
    (∀ t ∈ [0, 1], let s := { regs [(Reg.TREE_CFG t, 2 ^ 23), (Reg.PORT_STAT 7, 2 ^ 31), (Reg.PORT_CFG 7, 255), (Reg.NET_ID, 1)] with
        time := { clock := 10 ^ 6 } }
      t < 2 ∧ s.rc.state ≠ .fatal ∧ (s.link 7).peerDown = false ∧ 7 ∈ s.children t ∧ s.upSystem 7 = true ∧
        s.time.exchP.get (fun _ => none) (7 * 2 + t) = none ∧ s.endExch 7 t = s ∧
        s.time.dueAt.get (fun _ => 0) (7 * 2 + t) + 1000 * 2 ^ s.fld Reg.TB1_CFG 8 4 ≤ s.time.clock) ∧
    ({ exch 1 1 with bad := true } : ExchSet).bad = true ∧ (exch 1 1).crc ≠ crc16 (exchBytes 2 1 255 0 0) ∧
    State.reset.upSystem 7 = false ∧
    (∀ t ∈ [0, 1], let c : ExchChild := ⟨7, 255, 0, 0, none, 0, 0⟩
      let s := { regs [(Reg.TREE_CFG t, 7 * 2 ^ 24), (Reg.NET_ID, 1), (Reg.PORT_STAT 7, 2 ^ 31), (Reg.PORT_CFG 7, 255)] with
        rc := { state := .loaded }, time := { exchC := [(t, some c)], exchP := [(7 * 2 + t, some ⟨255, 0, 0⟩)], clock := 4000 } }
      let u := { s with time := { s.time with clock := 999 } }
      u.endExch 7 t = u ∧ u.upSystem 7 = true ∧ u.fromParent t 7 = true ∧ (u.time.exchC.get (fun _ => none) t).isSome ∧
      ({ u with time := {} } : State).time.exchC.get (fun _ => none) t = none ∧ s.isRoot t = false ∧
      s.upSystem 7 = true ∧ (s.link 7).peerDown = false ∧ s.rc.state ≠ .fatal ∧ (exch 4 t).bad = false ∧ (exch 4 t).master = s.masterOf t ∧ s.fromParent t 7 = true ∧
        s.time.exchC.get (fun _ => none) t = some c ∧ c.t1 = none ∧ c.began + 1000 ≤ s.time.clock ∧
        s.time.exchP.get (fun _ => none) (7 * 2 + t) = some ⟨255, 0, 0⟩ ∧ 0 + 4000 ≤ s.time.clock ∧
        s.rc.state ≠ .idle ∧ s.isMaster t = false ∧ (s.servo t).known = false ∧ (s.servo t).state = 0) ∧
    (let c : ExchChild := ⟨7, 255, 0, 0, some 0, 0, 0⟩
     let s := { State.reset with time := { exchC := [(1, some c)], clock := 4000 } }
     s.time.exchC.get (fun _ => none) 1 = some c ∧ c.t1 = some 0 ∧ c.began + 4000 ≤ s.time.clock ∧
       (let u := { s with time := { s.time with clock := 999 } }; u.endExch 7 1 = u)) ∧
    (∀ k ∈ [1, 2], let s := { State.reset with rc := rcAt .running, time := { servoB := { state := k }, clock := 2 ^ 27 } }
      s.rc.state ≠ .idle ∧ s.notRoot ∧ (s.servo 1).state = k ∧ (s.servo 1).last + 8000 * 2 ^ s.fld Reg.TB1_CFG 8 4 ≤ s.time.clock) ∧
    (let s := { regs [(Reg.NET_ID, 1)] with
       rc := { state := .loaded }, time := { servoA := { state := 2 }, target := 1, clock := 10 ^ 9, aLocked := some 0 } }
     s.fld Reg.TB1_CFG 0 2 = 0 ∧ s.time.target = 1 ∧ s.servoState 0 = 2 ∧ s.time.aLocked = some 0 ∧
       0 + 10 ^ 9 ≤ s.time.clock ∧ s.notRoot) := by
  unfold State.notRoot; dsimp only; and_intros <;> decide +kernel

/-- Task 0 valid, of every affinity, in state `k`; core 7 runs. -/
def tasks (k : Nat) (x : Task := {}) (b : Badger := {}) : State :=
  { regs [(Reg.DISP_CFG 0, 2 ^ 31 + 0xFF00)] with
    badger := { b with cores := [(7, { state := 1 })], tasks := Map.set (fun _ => {}) [] 0 { x with state := k } } }

/-- The custom-0 word of R357 with funct7, rs2, rs1, funct3 and rd, executed by core 7 at pc 64 with rs1 and rs2 holding `a` and `b`. -/
def inst0 (f7 rs2 rs1 f3 rd : Nat) (a b : Nat := 0) : CoreInst :=
  ⟨7, BitVec.ofNat 32 (f7 * 2 ^ 25 + rs2 * 2 ^ 20 + rs1 * 2 ^ 15 + f3 * 2 ^ 12 + rd * 2 ^ 7 + 0x0B), BitVec.ofNat 64 a, BitVec.ofNat 64 b, 64⟩

/-- R357's words of the eight instructions, by core 7. -/
theorem test_dvorbeng_words :
    (∀ s ∈ [tasks 1, tasks 2], s.executes (inst0 0 0 0 0 10) .take ∧ s.executes (inst0 0 0 0 1 10) .tryTake ∧
      s.executes (inst0 0 0 5 2 0) .ready ∧ s.executes (inst0 0 0 5 3 0) .done ∧ s.executes (inst0 0 6 5 4 0) .defer_ ∧
      s.executes (inst0 0 0 5 5 0) .clean ∧ s.executes (inst0 1 0 5 5 0) .cinv ∧ s.executes (inst0 2 0 5 5 0) .cflush) ∧
    (inst0 0 0 0 0 10).word = 0x0000050B#32 ∧
    ∀ d ∈ [inst0 0 0 0 6 0, inst0 0 1 0 0 0, inst0 1 0 0 0 0, inst0 0 0 5 2 1], dvorbeng d.word = none := by
  unfold State.executes; decide +kernel

theorem witness_DispatcherOperationsAndTicks :
    (let s := tasks 2 {} { ready := [0] }
     s.executes (inst0 0 0 0 0 31) .take ∧ s.executes (inst0 0 0 0 1 0) .tryTake ∧ s.select 7 = some 0 ∧
       (s.dom 81).level = 0 ∧ (s.dom 81).goal = none) ∧
    (let s := tasks 1
     s.executes (inst0 0 0 0 0 0) .take ∧ s.executes (inst0 0 0 0 1 31) .tryTake ∧ s.select 7 = none ∧
       s.executes (inst0 0 0 31 2 0 1024) .ready ∧ instTask (inst0 0 0 31 2 0 1024) = 0 ∧ s.taskState 0 = 1 ∧
       (∀ j < 8, (s.core j).state ≠ 2) ∧ canServe s .hostMmio Reg.DISP_READY = true) ∧
    (let s := tasks 4 { core := 7 }
     s.executes (inst0 0 0 0 2 0 9) .ready ∧ instTask (inst0 0 0 0 2 0 9) = 0 ∧ s.executes (inst0 0 0 1 3 0) .done ∧
       instTask (inst0 0 0 1 3 0) = 0 ∧ s.executes (inst0 0 2 1 4 0 0 (2 ^ 32 - 1)) .defer_ ∧
       instReg (inst0 0 2 1 4 0 0 (2 ^ 32 - 1)) 20 (BitVec.ofNat 64 (2 ^ 32 - 1)) % 2 ^ 32 ≠ 0 ∧
       s.taskState 0 = 4 ∧ (s.task 0).core = 7 ∧ (s.task 0).pending = false) ∧
    ((tasks 1).core 7).state = 1 ∧ bits (inst0 3 0 1 5 0).word.toNat 0 7 = 0x0B ∧ dvorbeng (inst0 3 0 1 5 0).word = none ∧
    (tasks 3).taskState 0 = 3 ∧
    (let s := { tasks 3 { deadline := 1 } { delayed := [0] } with time := { clock := 1000 } }
     s.badger.tickAt + 1000 ≤ s.now ∧ s.badger.delayed = [0] ∧ (s.task 0).deadline ≤ s.badger.tick + 1) ∧
    (let s := { tasks 3 { deadline := 2 } { delayed := [0] } with time := { clock := 1000 } }
     s.badger.tickAt + 1000 ≤ s.now ∧ ∀ u ∈ s.badger.delayed, s.badger.tick + 1 < (s.task u).deadline) ∧
    (let s := tasks 2 { held := some 0 } { tick := 255 }
     (s.task 0).held = some 0 ∧ 0 + s.fld Reg.DISP_CTRL 8 8 ≤ s.badger.tick) ∧
    (∀ v ∈ [0, 1], let s := regs [(Reg.DISP_CTRL, v)]
     s.badger.ready = [] ∧ s.orderly = decide (v = 1) ∧ canServe s .hostMmio Reg.DISP_CTRL = true ∧
       ∀ j < 8, (s.core j).state ≠ 2) := by
  unfold State.executes; dsimp only; and_intros <;> decide +kernel

theorem witness_CoreResetsAndMailboxes :
    (∀ k ∈ [1, 7], State.reset.flag (Reg.BG_CORE_CTRL k) 30 = false ∧ State.reset.flag (Reg.BG_CORE_CTRL k) 31 = false ∧
      canServe State.reset (.core 0) (Reg.BG_CORE_CTRL k) = true ∧
      let s := regs [(Reg.BG_CORE_CTRL k, 2 ^ 30)]
      s.flag (Reg.BG_CORE_CTRL k) 30 = true ∧ canServe s (.core 0) (Reg.BG_CORE_CTRL k) = true) ∧
    (State.reset.isolated 10 = false ∧ State.reset.hostDeaf .hostMmio = false ∧ State.reset.receiverDown 63 = false) ∧
    (let s := { regs [(Reg.MB_CFG 63, 8)] with badger := { boxes := [(63, { full := true })] } }
     agentOf .hostMmio = s.receiver 63 ∧ (s.mbox 63).full = true) := by decide +kernel

theorem witness_CacheLinesMoveAsTold :
    (∀ dirty ∈ [false, true], let x : CacheLine := ⟨[], dirty⟩
      let a := 2 ^ 36 - 1
      let s := { State.reset with badger := { cores := [(7, { state := 1 })], dcache := [(lineKey 7 a, some x)] } }
      (∀ d ∈ [inst0 0 0 31 5 0 a, inst0 1 0 31 5 0 a, inst0 2 0 31 5 0 a], d.core = 7 ∧ instAddr d = a) ∧
        s.executes (inst0 0 0 31 5 0 a) .clean ∧ s.executes (inst0 2 0 31 5 0 a) .cflush ∧ s.executes (inst0 1 0 31 5 0 a) .cinv ∧
        (s.core 7).state = 1 ∧ s.badger.dcache.get (fun _ => none) (lineKey 7 a) = some x ∧
        s.plainAccess (.core 7) (2 ^ 36 - 64) 64 0 ∧ (s.rd (Reg.CR_REG_RIGHTS 0)).testBit (2 * (3 + 7) + 1) = true ∧
        (s.rd (Reg.CR_REG_RIGHTS 0)).testBit (2 * (3 + 7)) = true ∧ a % 64 + [(0 : Byte)].length ≤ 64 ∧ a % 64 + 1 ≤ 64) ∧
    (let s := { State.reset with badger := { cores := [(7, { state := 1 })] } }
     s.badger.dcache.get (fun _ => none) (lineKey 7 (2 ^ 36 - 1)) = none ∧ s.plainAccess (.core 7) (2 ^ 36 - 64) 64 0 ∧
       (s.badger.dcache.range (7 * 2 ^ 34) (8 * 2 ^ 34)).length < 512) := by
  unfold State.plainAccess State.executes; dsimp only; and_intros <;> decide +kernel
/-! ## Witnesses: lanes and the system network -/

/-- Port 7 a SYSTEM port with eight lanes, PORT_STAT at `stat`, and the registers of `l`. -/
def port7 (stat : Nat) (l : List (Nat × Nat) := []) : State :=
  regs ([(Reg.PORT_CFG 7, 255), (Reg.PORT_STAT 7, stat)] ++ l)

/-- What lanes 0 to `n - 1` deliver of `f`, coded for the line, after `skip` columns, without its first `cut` columns. -/
def coded (f : Frame) (fr : Bool) (n : Nat) (cut : Nat := 0) : List (List (BitVec 10)) :=
  let cols := ((((f.columns fr n).drop cut).foldl (fun (x : Line) c => x.column (List.range n) [] c) {}).out).map fun
    | .col c => c
    | _ => []
  (List.range n).map fun i => cols.map fun c => c.getD i 0

theorem witness_PortsTrainAndLanesShow :
    (let s := port7 0
     s.role 7 = 0 ∧ s.inTest 7 = false ∧ s.rc.state ≠ .fatal ∧ s.rd (Reg.PORT_CTRL 7) = 0 ∧ s.isUp 7 = false ∧
       s.training 7 = false ∧ s.preRun = true ∧ s.testable 7 7 = false ∧ canServe s .hostMmio (Reg.PORT_CTRL 7) = true) ∧
    (∀ n ∈ [0, 254, 255], let s := { port7 (2 ^ 30) [(Reg.LANE_RXEQ 7 7, 2 ^ 31)] with
        ports := [(7, { counts := Map.set (fun _ => 0) [] 7 n, offered := 255 })] }
      s.isUp 7 = false ∧ s.training 7 = true ∧ (s.usable 7).testBit 7 = true ∧ s.fld (Reg.PORT_CFG 7) 16 3 = 0 ∧
        (s.prt 7).counts.get (fun _ => 0) 7 = n ∧ s.flag (Reg.LANE_RXEQ 7 7) 31 = true ∧
        (s.prt 7).offered &&& (255 - 255 % 256) &&& s.usable 7 = 0) ∧
    (let s := { port7 0 with rc := rcAt .halted }
     s.role 7 = 0 ∧ s.rd (Reg.PORT_CTRL 7) = 0 ∧ s.rc.state = .halted ∧ canServe s .hostMmio (Reg.PORT_CTRL 7) = true) ∧
    (let s := port7 (2 ^ 31)
     s.isUp 7 = true ∧ (s.prt 7).offered &&& (255 - 0 % 256) &&& s.usable 7 = 0) ∧
    (∀ a ∈ [3, 255], let s := { port7 (2 ^ 30) with ports := [(7, { agreed := a })] }
      s.training 7 = true ∧ 2 ≤ popcount (s.prt 7).agreed ∧ (s.prt 7).agreed < 256) ∧
    (let s := { port7 (2 ^ 30) with time := { clock := 1000000 } }
     s.training 7 = true ∧ (s.prt 7).since + 1000000 ≤ s.now ∧ (s.prt 7).first = true ∧ (s.prt 7).failNoted = false) ∧
    (let s := port7 (2 ^ 31 + 255 * 2 ^ 8 + 255 * 2 ^ 16)
     s.role 7 = 0 ∧ s.isUp 7 = true ∧ (s.link 7).peerDown = false ∧ (s.usable 7).testBit 7 = true ∧
       s.flag (Reg.PORT_STAT 7) (8 + 7) = true ∧ s.flag (Reg.PORT_STAT 7) (16 + 7) = true ∧
       2 < popcount (s.fld (Reg.PORT_STAT 7) 8 8 &&& s.usable 7) ∧ ((s.line 7).viol.get (fun _ => (0, 0)) 7).1 = 0) ∧
    (regs [(Reg.LANES_PLL, 2 ^ 31)]).flag Reg.LANES_PLL 31 = true ∧
    (let s := port7 128 [(Reg.LANE_TEST 7 7, 2 ^ 30 + 2 ^ 16)]
     canServe s .hostMmio (Reg.LANE_TEST 7 7) = true ∧ s.testable 7 7 = true ∧ s.flag (Reg.LANE_TEST 7 7) 18 = false ∧ s.flag (Reg.LANE_TEST 7 7) 31 = false) ∧
    (∀ k ∈ [0, 3], let s := { port7 128 [(Reg.LANE_TEST 7 7, 2 ^ 30 + 2 ^ 16 + k * 2 ^ 20)] with
        tests := [(63, { ref := List.replicate (prbsTaps k).2 true })] }
      s.testable 7 7 = true ∧ s.flag (Reg.LANE_TEST 7 7) 16 = true ∧ s.flag (Reg.LANE_TEST 7 7) 30 = true ∧
        s.fld (Reg.LANE_TEST 7 7) 24 3 = 0 ∧ s.fld (Reg.LANE_TEST 7 7) 20 2 = k ∧
        (s.test 7 7).ref.length = (prbsTaps k).2 ∧
        s.rd64 (Reg.LANE_BITS_LO 7 7) < 2 ^ 48 - 1 ∧ s.rd64 (Reg.LANE_ERRS_LO 7 7) < 2 ^ 48 - 1) := by
  dsimp only; and_intros <;> decide +kernel

/-- Port 7 UP on lanes 0 and 1 as a SYSTEM port (0) or toward a PY-7208 (2), with the link layer `l` and the registers of `r`. -/
def linked (role : Nat) (l : Link := {}) (r : List (Nat × Nat) := []) : State :=
  { regs ([(Reg.PORT_CFG 7, 255 + role * 2 ^ 12), (Reg.PORT_STAT 7, 2 ^ 31 + 3 * 2 ^ 16)] ++ r) with links := [(7, l)] }

/-- A word of slot 8191, cycle 0, received on port 7. -/
def slotWord (gen : Nat) : SlotWord := ⟨7, 8191, 0, gen, false, 2 ^ 63 + 1, 5, true⟩

/-- A frame of that word under SEQ 255, as it stands on lanes 0 and 1 of port 7. -/
def onTwoLanes (fr : Bool) (cut : Nat := 0) : RxFrame :=
  ⟨7, coded { seq := 255, full := fr, gen := 0, cycle := 0, words := [slotWord 0] } fr 2 cut, 0⟩

theorem witness_FramesEnterTheReceivePath :
    (∀ e ∈ [255, 0, 62], let s := linked 0 { expSeq := e }
      let q := (s.touch 72).rxFrame (onTwoLanes false) false
      let x := q.1
      q.2.isUp 7 = true ∧ s.linkOpen 7 0 = true ∧ s.rc.state ≠ .fatal ∧
        x = { good := true, full := false, gen := 0, seq := 255, cycle := 0, slot := 8191
              words := [(5, BitVec.ofNat 64 (2 ^ 63 + 1))] } ∧ (x.seq = e ∨ within (x.seq + 1) e 64 = true)) ∧
    (∀ sent ∈ [false, true], ∀ f ∈ [⟨7, [], 0⟩, onTwoLanes false 1, ⟨7, [[0], [0]], 0⟩], let s := linked 0 { nakSent := sent }
      let q := (s.touch 72).rxFrame f false
      s.linkOpen 7 0 = true ∧ q.1.good = false ∧ q.2.isUp 7 = true ∧ (q.2.link 7).nakSent = sent) ∧
    (let s := linked 0 { expSeq := 128 }
     let q := (s.touch 72).rxFrame (onTwoLanes false) false
     q.1.good = true ∧ q.1.seq ≠ (q.2.link 7).expSeq ∧ within (q.1.seq + 1) (q.2.link 7).expSeq 64 = false ∧ q.2.isUp 7 = true) ∧
    (linked 1).role 7 = 1 ∧ State.reset.role 7 = 0 ∧ State.reset.linkOpen 7 0 = false ∧ (linked 0).nextRx 7 = none ∧
    (let s := linked 0 { expSeq := 1, rx := [⟨0, false, 7, 0, [slotWord 7], 0, false, false⟩] }
     s.rc.state ≠ .fatal ∧ s.role 7 ≠ 2 ∧ s.nextRx 7 = some (slotWord 7) ∧ s.accepts 7 0 = false) ∧
    (let s := { linked 0 { expSeq := 1, rx := [⟨0, false, 0, 0, [slotWord 0], 0, false, false⟩] } with
       net := { active := { recv := [(7 * 8192 + 8191, BitVec.ofNat 32 (2 ^ 31 + 63 * 2 ^ 19 + 31 * 2 ^ 14))] } } }
     s.nextRx 7 = some (slotWord 0) ∧ s.accepts 0 0 = true ∧ s.recvTo 0 7 8191 = some ⟨some (63, 31), none⟩ ∧
       s.enabled 63 = true ∧ s.held = [] ∧ (∀ i < 64, (slotWord 0).mask.getLsbD i = true →
         s.judgeArrival 63 (31 * 64 + i) ((slotWord 0).cycle % 4) = .stored)) ∧
    (let s := { linked 0 { rx := [⟨0, false, 0, 0, [slotWord 0], 0, false, false⟩] } with
       net := { active := { recv := [(7 * 8192 + 8191, BitVec.ofNat 32 (2 ^ 31 + 2 ^ 29))]
                            relay := [(0, BitVec.ofNat 32 (2 ^ 31 + 7 * 2 ^ 16 + 65535))] } } }
     s.nextRx 7 = some (slotWord 0) ∧ s.recvTo 0 7 8191 = some ⟨none, some (7, 65535)⟩ ∧
       s.accepts 0 0 = true ∧ s.fld (Reg.PORT_CFG 7) 12 2 = 0 ∧ s.framerFull 7 = false) := by
  dsimp only; and_intros <;> decide +kernel

theorem witness_ForerunnerPortsInterwork :
    State.reset.linkOpen 7 2 = false ∧
    (∀ cycle ∈ [2, 3], let w : SlotWord := { slotWord 0 with slot := 4095, cycle := cycle }
     let s := { linked 2 { frRecv := [w], frDone := 0 } [(Reg.PORT_CFG 6, 255)] with
       net := { active := { recv := [(7 * 8192 + 4095, BitVec.ofNat 32 (2 ^ 31 + 2 ^ 29))]
                            relay := [(0, BitVec.ofNat 32 (2 ^ 31 + 6 * 2 ^ 16 + 8191))] } } }
     s.rc.state ≠ .fatal ∧ s.role 7 = 2 ∧ (s.link 7).frRecv[(s.link 7).frDone]? = some w ∧
       (s.rc.ecn + 2 < w.cycle ↔ cycle = 3) ∧ s.recvTo w.cycle w.port w.slot = some ⟨none, some (6, 8191)⟩ ∧
       s.fld (Reg.PORT_CFG 6) 12 2 = 0 ∧ s.framerFull 6 = false) ∧
    (let s := linked 2 { expSeq := 255 }
     let x := (s.rxFrame (onTwoLanes true) true).1
     s.linkOpen 7 2 = true ∧ s.rc.state ≠ .fatal ∧ x.good = true ∧ x.seq = (s.link 7).expSeq ∧ x.slot = 4095 ∧
       (s.link 7).frRecv.length + x.words.length ≤ 16384) ∧
    (∀ n ∈ [254, 255], let s := { regs [(Reg.PORT_CFG 7, 255 + 2 * 2 ^ 12), (Reg.PORT_STAT 7, 2 ^ 30)] with
        links := [(7, { frInit := n })] }
      s.role 7 = 2 ∧ s.training 7 = true ∧ s.inTest 7 = false ∧ s.usable 7 = 255 ∧ (s.link 7).frInit = n) ∧
    frSeqSum 1 8191 7 ≠ frSeqSum 1 8191 6 := by
  dsimp only; and_intros <;> decide +kernel

theorem witness_LinksRetryAndRepeat :
    (let s := linked 0 { nextSeq := 255, framer := [slotWord 0], limitSeq := 255 }
     s.linkOpen 7 0 = true ∧ s.rc.state ≠ .fatal ∧ (s.link 7).resend = 0 ∧ (s.link 7).framer = [slotWord 0] ∧
       (s.link 7).replay.length < 64 ∧ within (s.link 7).nextSeq (s.link 7).limitSeq 128 = true) ∧
    (let f : Frame := ⟨255, false, 0, 0, [slotWord 0], 0, true, false⟩
     let s := { linked 0 { replay := [f], resend := 1 } with time := { clock := 100000 } }
     s.linkOpen 7 0 = true ∧ (s.link 7).replay = [f] ∧ (s.link 7).resend = (s.link 7).replay.length ∧ f.sent = true ∧
       f.seq < 256 ∧ 0 < (s.link 7).replay.length ∧ (s.link 7).replay.length ≤ 64 ∧
       f.retries < s.fld (Reg.LINK_CFG 7) 0 4 ∧ (s.link 7).nakSeen ≠ some f.seq ∧
       (s.link 7).lastAck + 100 * s.fld (Reg.LINK_CFG 7) 8 8 ≤ s.now ∧ (s.link 7).sentAck + 1000 ≤ s.now ∧
       (let h : SetHdr := ⟨7, 0, 0, false, (Msg.ack 255 255).crc 0 0⟩
        let k : SetHdr := ⟨7, 0, 0, false, (Msg.nak 255).crc 0 0⟩
        h.tree = 0 ∧ h.bad = false ∧ h.crc = (Msg.ack ((f.seq + 0) % 256) 255).crc 0 h.gen ∧ k.tree = 0 ∧ k.bad = false ∧
          k.crc = (Msg.nak f.seq).crc 0 k.gen)) ∧
    (let f : Frame := ⟨255, false, 0, 0, [slotWord 0], 0, false, false⟩
     let s := linked 0 { replay := [f] }
     s.linkOpen 7 0 = true ∧ (s.link 7).replay = [f] ∧ f.sent = false ∧ f.seq < 256 ∧ (s.link 7).nakSeen ≠ some f.seq) ∧
    (let s := { linked 0 {} [(Reg.TREE_CFG 0, 7 * 2 ^ 24), (Reg.TREE_CFG 1, 7 * 2 ^ 24)] with
       time := { clock := 1000 }, net := { sentUp := [(0, 6), (1, 5)] } }
     s.rc.state ≠ .fatal ∧ s.net.repeatAt + 1000 ≤ s.now ∧ (s.isRoot 0 = false ∧ s.isRoot 1 = false) ∧
       (∀ k < 2, s.isUp (s.parent k) = true ∧ (s.link (s.parent k)).peerDown = false) ∧
       s.net.repeats = [] ∧ s.net.lastSealUp = 0 ∧ s.net.sentUp.get (fun _ => 0) 0 = 5 + 1 ∧
       s.net.sentUp.get (fun _ => 0) 1 = 4 + 1) ∧
    (∀ k ∈ [0, 1], let s := { regs [(Reg.TREE_CFG k, 2 ^ 23)] with rc := { state := .loaded }, time := { clock := 4000 } }
      s.rc.state ≠ .idle ∧ s.rc.state ≠ .fatal ∧ s.treeLink k 7 = true ∧
        (if k = 0 then (s.link 7).heardA else (s.link 7).heardB) + 4000 ≤ s.now ∧
        s.flag Reg.TREE_STAT (16 + 8 * k + 7) = false) := by
  dsimp only; and_intros <;> decide +kernel

theorem witness_PeersGoDownAndMapsSwap :
    (∀ st ∈ [RcState.idle, .loading, .loaded, .running, .paused, .replaying, .halted],
      let s := { linked 2 with rc := { state := st } }
      (s.link 7).peerDown = false ∧ s.rc.state ≠ .fatal ∧ s.acted (.systemHalt 0 0) s.net.gen = false ∧
        s.linkOpen 7 2 = true ∧ s.isRoot 0 = false ∧ s.isRoot 1 = false) ∧
    (let s := { linked 2 {} [(Reg.TREE_CFG 0, 2 ^ 31)] with rc := { state := .running } }
     (Msg.deviceDown 5 6 15).crc 0 0 < 2 ^ 16 ∧ s.isRoot 0 = true ∧ s.live = true ∧ s.linkOpen 7 2 = true ∧ s.acted (.systemHalt 0 0) s.net.gen = false) ∧
    (State.reset.net.busy = false ∧ State.reset.net.armed = none ∧ State.reset.net.retiring = none ∧
      State.reset.rc.variant = false ∧ canServe State.reset .hostMmio Reg.MAP_CTRL = true) ∧
    (let s := { State.reset with net := { busy := true, shadowReady := true } }
     let q := s.readMap Reg.MAP_SEND_BASE (s.nClusters * 4096)
     let q1 := q.2.readMap Reg.MAP_RECV_BASE 65536
     let q2 := q1.2.readMap Reg.MAP_RELAY_BASE 16384
     s.net.busy = true ∧ q.1 = .ok [] ∧ q1.1 = .ok [] ∧ q2.1 = .ok [] ∧ (q2.2.assemblyWords []).length ≤ 16384 ∧
       s.net.shadowReady = true ∧ s.net.armed = none ∧ s.preRun = true ∧ canServe s .hostMmio Reg.MAP_CTRL = true ∧
       canServe s .hostMmio Reg.MAP_SWAP_ECN_HI = true) ∧
    (let s := { rights 0 with net := { busy := true } }
     s.net.busy = true ∧ (s.readMap Reg.MAP_SEND_BASE (s.nClusters * 4096)).1 = .error 0) := by
  dsimp only; and_intros <;> decide +kernel

/-! ## Witnesses: Shale and power -/

/-- A flash: the preamble of one bitstream, and a header of a full load of one frame. -/
def flash : List Byte :=
  (([0x53, 0x48, 0x46, 0x50, 2, 0, 0, 0, 0, 0, 0, 0, 0, 81, 161, 68] ++
    [83, 72, 65, 76, 1, 0, 22, 148, 0, 0, 0, 0, 1, 0, 0, 0, 72, 1, 0, 0] ++ List.replicate 40 0 ++
    [162, 243, 223, 244]) : List Nat).map (BitVec.ofNat 8)

/-- 130 bytes of zeros. -/
def zeros : List Byte := List.replicate 130 0

/-- A frame record of frame 0, all zeros, with its CRC-32. -/
def frame0 : List Byte := (zeros ++ zeros) ++ [27, 112, 169, 145]

theorem zeros_length : (zeros ++ zeros).length = 260 := by
  rw [List.length_append, zeros, List.length_replicate]

theorem crc32_append (l m : List Byte) (c : Nat) (h : l.foldl (fun c b => crcByte c b.toNat) 0xFFFF_FFFF = c) :
    crc32 (l ++ m) = m.foldl (fun c b => crcByte c b.toNat) c ^^^ 0xFFFF_FFFF := by
  rw [crc32, List.foldl_append, h]

theorem frameRec_good (l m : List Byte) (x : Nat) (h : l.length = 260) (hm : m.length = 4) (hx : crc32 l = x)
    (hn : natOfBytes m = x) : (frameRec (l ++ m)).good = true := by
  have e : m.take 4 = m := List.take_of_length_le (by omega)
  simp [frameRec, List.take_left' h, List.drop_left' h, h, hm, hx, hn, e]

theorem checkFrame_none (r : FrameRec) (i : Nat) (h : r.good = true) (hi : frameIndex r.fa = some i)
    (ho : frameOk i r.data = true) (hc : contention i r.data = none) : checkFrame none r = none := by
  simp [checkFrame, h, hi, ho, hc]

/-- The CRC-32 of the frame record is right; its halves are computed one by one. -/
theorem frame0_good : (frameRec frame0).good = true :=
  frameRec_good _ _ 0x91A9701B zeros_length rfl
    ((crc32_append zeros zeros 0x27A1C0FD (by decide +kernel)).trans (by decide +kernel)) (by decide +kernel)

theorem frame0_checks : checkFrame none (frameRec frame0) = none :=
  checkFrame_none _ 0 frame0_good (by decide +kernel) (by decide +kernel) (by decide +kernel)

theorem witness_ShaleLoadsItsFrames :
    (let f (off n : Nat) : Nat := natOfBytes ((flash.drop off).take n)
     canServe State.reset .hostMmio Reg.SH_LOAD_CTRL = true ∧ State.reset.shale.load = none ∧
       State.reset.flag Reg.SH_LOAD_STAT 31 = false ∧ 80 ≤ flash.length ∧ f 0 4 = 0x50464853 ∧
       f 13 3 = crc32 (flash.take 13) % 2 ^ 24 ∧ f 4 1 ≤ 2 ∧ State.reset.headerCheck ((flash.drop 16).take 64) = none ∧
       f 24 1 = 0 ∧ State.reset.rc.state = .idle) ∧
    (∀ n ∈ [1, 17173], ∀ b ∈ [true, false], let x : ShLoad := { src := 0, phase := 2, count := n, next := n - 1, sync := b }
      let s := { State.reset with shale := { load := some x } }
      s.shale.load = some x ∧ x.next < 17173 ∧ s.flag Reg.SH_SCRUB_CFG 30 = false ∧ s.flag Reg.SH_STATUS 28 = false ∧
        frameIndex (frameRec frame0).fa = some 0 ∧ x.next + 1 = x.count ∧ x.sync = b ∧ x.zone = none ∧
        x.again = false ∧ (frameRec []).good = false ∧ checkFrame x.zone (frameRec []) ≠ none ∧
        checkFrame (some 7) (frameRec []) ≠ none) ∧
    (let x : ShLoad := { src := 0, phase := 2, zone := some 7, done := [17151] }
     let s := { State.reset with shale := { load := some x } }
     s.shale.load = some x ∧ x.phase = 2 ∧ x.zone = some 7 ∧ (∀ i ∈ x.done, frameZone i = some 7) ∧
       s.shale.lost.get (fun _ => none) 7 = none ∧ x.again = false) ∧
    (∀ src ∈ [0, 1, 2], let x : ShLoad := { src := src, phase := 2 }
      let s := { State.reset with shale := { load := some x }, time := { clock := 1000000 } }
      x.phase ≤ 2 ∧ x.again = false ∧ s.shale.chainAt + 1000000 ≤ s.now) ∧
    ((frameRec frame0).good = true ∧ checkFrame none (frameRec frame0) = none) := by
  refine ⟨?_, ?_, ?_, ?_, frame0_good, frame0_checks⟩ <;> dsimp only <;> and_intros <;> decide +kernel

theorem witness_ShaleIsReleased :
    (let x : ShLoad := { src := 1, phase := 3 }
     ∀ l ∈ [none, some x], let s : State := { shale := { cfgReleased := true, load := l } }
       s.shale.cfgReleased = true ∧ s.shale.load = l ∧ x.phase = 3 ∧ x.zone = none ∧ x.again = false) ∧
    (let x : ShLoad := { src := 1, phase := 4, steps := [1, 2, 3, 4] }
     let s : State := { shale := { load := some x } }
     s.shale.load = some x ∧ x.zone = none ∧ x.again = false ∧ s.shale.exit = none ∧ x.steps = [1, 2, 3, 4] ∧
       s.loopsOn &&& (255 - s.fld Reg.SH_LOOP_STAT 0 8) = 0) := by
  dsimp only; and_intros <;> decide +kernel

/-- The scrubber's data clauses: a cleared frame has its stored CRC-32, a frame with bit 0 set another. -/
theorem witness_ScrubberReadsItsFrames :
    (let s := regs []
     let stored := (s.shale.guards.get (fun _ => guardOf 0) 0).crc
     crc32 (bytesOfNat (0 : BitVec 2048).toNat 256) = stored ∧ crc32 (bytesOfNat (1 : BitVec 2048).toNat 256) ≠ stored) := by
  let z : List Byte := List.replicate 128 0
  have e0 : bytesOfNat (0 : BitVec 2048).toNat 256 = z ++ z := by decide +kernel
  have e1 : bytesOfNat (1 : BitVec 2048).toNat 256 = (1 :: z.drop 1) ++ z := by decide +kernel
  have c0 := (crc32_append z z 1029113186 (by decide +kernel)).trans
    (show _ = 4066998951 ^^^ 0xFFFF_FFFF from congrArg (· ^^^ 0xFFFF_FFFF) (by decide +kernel))
  have c1 := (crc32_append (1 :: z.drop 1) z 245952593 (by decide +kernel)).trans
    (show _ = 1012534124 ^^^ 0xFFFF_FFFF from congrArg (· ^^^ 0xFFFF_FFFF) (by decide +kernel))
  refine ⟨rfl, ?_⟩
  show _ ≠ crc32 (bytesOfNat (0 : BitVec 2048).toNat 256)
  rw [e0, e1, c0, c1]; decide

/-- The scrubber reads frame `i` next where it reads it at all. -/
theorem nextScrub_eq (s : State) (i : Nat) (h : i < 17173) (hs : s.scrubs i = true) : s.nextScrub i = i := by
  unfold State.nextScrub
  rw [List.drop_eq_getElem_cons (by simpa using h)]
  simp [hs]

theorem witness_ChainScrubberLoopsAndWindow :
    (State.reset.shale.chainOwn = false ∧ State.reset.fuses.straps.chainFirst = false ∧ State.reset.shale.load = none ∧
      ({ shale := { chainOwn := true } } : State).shale.chainOwn = true) ∧
    (∀ b ∈ [true, false], ∀ n ∈ [0, 253, 254], let s := { regs [(Reg.SH_FLASH_STAT, 2 ^ 31)] with
        fuses := { straps := { chainFirst := true } }
        shale := { preamble := { chain := 255 }, chainSent := n, chainOpen := b } }
      s.fuses.straps.chainFirst = true ∧ s.fuses.straps.bootMode = 0 ∧ s.flag Reg.SH_FLASH_STAT 31 = true ∧ s.shale.chainOpen = b ∧
        (s.shale.chainSent + 1 < s.shale.preamble.chain ∨ s.shale.preamble.chain ≤ s.shale.chainSent + 1)) ∧
    (let s := regs [(Reg.SH_SCRUB_CFG, 2 ^ 31 + 10)]
     s.flag Reg.SH_SCRUB_CFG 31 = true ∧ s.shale.scrubOn = true ∧ s.scrubs s.shale.scrubPos = true ∧ s.shale.scrubPos < 17173 ∧
       s.shale.passAt * 12565 + scrubRank 0 * (s.fld Reg.SH_SCRUB_CFG 0 10 * 1000000) ≤ s.now * 12565 ∧
       0 ∉ s.shale.bad ∧ s.flag Reg.SH_SCRUB_CFG 30 = false) ∧
    (let s : State := { shale := { frames := [(17171, BitVec.ofNat 2048 (2 ^ 40 + 8 * 2 ^ 32 + 2 ^ 28 + 8 * 2 ^ 20 + 2))] } }
     s.loopOn 7 = true ∧ s.loopLegal 0 7 = true ∧ (s.dom 106).level < 2) ∧
    ({ shale := { frames := [(17171, BitVec.ofNat 2048 (2 ^ 32 + 2 ^ 28 + 128 * 2 ^ 20))] } } : State).loopLegal 0 7 = false ∧
    (regs [(Reg.SH_LOOP_STAT, 128)]).flag Reg.SH_LOOP_STAT 7 = true ∧
    (regs [(Reg.SH_IO_STAT, 2 ^ 31)]).flag Reg.SH_IO_STAT (8 * 3 + 7) = true ∧
    (let s : State := { bridges [] with
       shale := { frames := [(17172, BitVec.ofNat 2048 (2 ^ 128))], holds := [(8, ⟨false, false, false, 0⟩)] } }
     s.windowOpen = true ∧ 0x81_FFFC % 4 = 0 ∧ ∀ off ∈ [0x81_0000, 0x81_FFFC], inWindow off = true ∧
       canServe s .hostMmio off = true) := by
  dsimp only; and_intros <;> decide +kernel

theorem witness_DomainsEnterAndLeaveLowPower :
    (∀ d ∈ [63, 64, 105], let s := { regs ((List.range 8).map fun g => (Reg.POW_LTR g, 1000000)) with
        time := { clock := 2 ^ 48 } }
      s.domPresent d = true ∧ s.portFollows d = false ∧ (s.dom d).goal = none ∧ s.domCap d = 3 ∧
        s.fld Reg.POW_CFG 16 16 * 1000 + s.fld Reg.POW_CFG 0 16 * 1000000 ≤ s.now - (s.dom d).idle ∧ (s.dom d).level < 3 ∧
        s.ring.fences = [] ∧ (domStops d ≠ [] ∨ d = 64)) ∧
    (∀ d ∈ [63, 64], let s := { regs ((List.range 8).map fun g => (Reg.POW_LTR g, 25)) with time := { clock := 2 ^ 48 } }
      s.domCap d = 2 ∧ s.retainOk d = true ∧ s.fld Reg.POW_CFG 16 16 * 1000 ≤ s.now - (s.dom d).idle ∧ (s.dom d).level < 2) ∧
    (∀ d ∈ [64, 73, 110], let s : State := { power := { doms := [(d, { level := 2 })] } }
      (d = 64 ∨ 73 ≤ d) ∧ d < 111 ∧ (s.dom d).level ≠ 0) ∧
    ∀ g ∈ [0, 7], canServe State.reset .hostMmio (Reg.POW_LTR g) = true := by
  dsimp only; and_intros <;> decide +kernel

theorem witness_RegulatorLinkReadsAndReports :
    (∀ v ∈ [0, 2 ^ 31], let s := regs [(Reg.PMBUS_CFG, v)]
     s.flag Reg.AVS_CFG 31 = false ∧ s.flag Reg.PMBUS_CFG 31 = decide (v ≠ 0) ∧ canServe s .hostMmio Reg.PMBUS_CFG = true) ∧
    (∀ owed ∈ [[], [0x20]], let s := { regs [(Reg.PMBUS_CFG, 2 ^ 31)] with time := { clock := 10000 }, power := { owed := owed } }
     s.flag Reg.PMBUS_CFG 31 = true ∧ s.power.pmbusFail = false ∧ s.power.owed = owed ∧ s.power.polledAt + 10000 ≤ s.now) ∧
    (let s := { regs [(Reg.PMBUS_CFG, 2 ^ 31)] with time := { clock := 1000000 }, power := { pmbusFail := true, failedAt := 0 } }
     s.power.pmbusFail = true ∧ s.power.failedAt + 1000000 ≤ s.now) := by decide +kernel

theorem witness_PowerDecisionSetsTheThrottle :
    (let s := { State.reset with time := { clock := 10000 } }
     s.power.decidedAt + 10000 ≤ s.now ∧ s.flag Reg.PMBUS_CFG 31 = false ∧ s.flag Reg.AVS_CFG 31 = false ∧
       s.hottest = none) ∧
    (regs [(Reg.THERM_SENSOR 15, 2 ^ 31 + 400)]).hottest = some (15, 400) ∧
    (∀ avs ∈ [0, 2 ^ 31 + 2 ^ 30 + 1022 * 2 ^ 10], let s := { regs [(Reg.PMBUS_CFG, 2 ^ 31), (Reg.POW_CAP, 500), (Reg.POW_NOW, 500001),
          (Reg.AVS_CFG, avs), (Reg.THROT_STAT, 2 ^ 26)] with
        time := { clock := 10000 }, power := { stale := false, setMv := some 1023 } }
      s.power.decidedAt + 10000 ≤ s.now ∧ s.flag Reg.PMBUS_CFG 31 = true ∧ s.power.stale = false ∧
        s.fld Reg.POW_CAP 0 9 * 1000 < s.fld Reg.POW_NOW 0 20 ∧ s.flag Reg.AVS_CFG 31 = decide (avs ≠ 0) ∧
        s.fld Reg.THROT_STAT 26 3 ≠ 0 ∧ (avs ≠ 0 → s.fld Reg.AVS_CFG 10 10 < s.vcore) ∧ s.vcore < 1024) := by
  and_intros <;> decide +kernel

theorem witness_SensorsThresholdsAndDdrTraining :
    (let s := regs [(Reg.THERM_SENSOR 14, 2 ^ 31 + 4 * 100)]
     (∀ m < 16, m ≠ 15 → s.flag (Reg.THERM_SENSOR m) 31 = true → s.sensorTemp m < s.fld Reg.THERM_CFG 24 8 * 4) ∧
       (-160 : Int) < s.fld Reg.THERM_CFG 24 8 * 4 ∧ ((s.fld Reg.THERM_CFG 24 8 * 4 : Nat) : Int) ≤ 600 ∧
       (∃ m, m < 16 ∧ m ≠ 15 ∧ s.flag Reg.THERM_FAULT m = false) ∧ 15 ∉ s.power.sensorNoted ∧ s.critical = false) ∧
    (∀ code ∈ [1, 62], let s := { bridges [(Reg.VREF_STAT 127, code), (Reg.SH_IO_STAT, 2 ^ 31)] with
       shale := { frames := [(17162, BitVec.ofNat 2048 (2 ^ (64 * 31 + 13)))]
                  holds := [(0, ⟨false, false, false, 0⟩), (8, ⟨false, false, false, 0⟩)] } }
     s.adapts 127 = true ∧ s.flag (Reg.VREF_STAT 127) 31 = false ∧ s.fld (Reg.VREF_STAT 127) 0 6 = code ∧
       s.power.vrefMoved.get (fun _ => 0) 127 = 0) ∧
    (let s := { regs [(Reg.DDR_RETRAIN, 2 ^ 31 + 1)] with time := { clock := 1000000 } }
     s.flag Reg.DDR_RETRAIN 31 = true ∧
       s.fld Reg.DDR_RETRAIN 0 10 * 1000000 ≤ s.now - s.power.ddrAt.get (fun _ => 0) 7) := by
  dsimp only; and_intros <;> decide +kernel

/-! ## Witnesses: resets, boot, the TAP and registers -/

theorem witness_ResetsKeepWhatTheirScopeLeaves :
    (canServe State.reset .hostMmio Reg.DEV_RST = true ∧ canServe State.reset (.core 0) Reg.DEV_RST = true ∧
      canServe State.reset (.core 1) Reg.DEV_RST = true ∧ State.reset.boot.announce = none ∧
      State.reset.boot.inReset = false ∧ bits 0xA500_0001 24 8 = 0xA5 ∧ (0xA500_0001 : Nat).testBit 0 = true ∧
      bits 0xA500_0001 1 23 = 0 ∧ bits 0xA600_0001 24 8 ≠ 0xA5 ∧ (0xA500_0000 : Nat).testBit 0 = false ∧
      Initiator.core 1 ≠ .core 0 ∧ Initiator.core 1 ≠ .hostMmio ∧ ({ boot := { low := true } } : State).boot.low = true) ∧
    (1619 < 1620 ∧ 499 < 500 ∧ 779 < 780) ∧
    (State.reset.host.perst = false ∧ ({ host := { perst := true } } : State).host.perst = true ∧
      ({ host := { up := true } } : State).host.up = true) ∧
    (let s : State := { time := { clock := 80000000 } }
     s.host.released = some 0 ∧ 0 + 80000000 ≤ s.now ∧ s.flag Reg.BAR2_CTRL 31 = false) := by
  dsimp only; and_intros <;> decide +kernel

theorem witness_BootRunsItsOrder :
    (∀ v ∈ [[], [(0, { full := true })]], ∀ e ∈ [(2 ^ 31, 0), (2 ^ 29, 1)],
      let s := { regs [(Reg.BOOT_STAT, e.1)] with
        boot := { begun := true }, fuses := { straps := { bootMode := e.2 } }, badger := { boxes := v } }
      s.boot.begun = true ∧ s.boot.taking = false ∧ (s.mbox 0).full = decide (v ≠ []) ∧
        (s.fld Reg.BOOT_STAT 29 3 = 4 ∨ (s.fld Reg.BOOT_STAT 29 3 = 1 ∧ s.bootMode ≠ 0))) ∧
    (State.reset.boot.begun = false ∧ State.reset.boot.low = false ∧ State.reset.flag Reg.BAR2_CTRL 31 = false ∧
      ({ fuses := { straps := { bootMode := 1 } } } : State).bootMode ≠ 0 ∧
      ({ fuses := { straps := { bootMode := 3 } } } : State).bootMode ≠ 0) ∧
    (∀ image ∈ [none, some (3, 63, 0)], let s := { regs [(Reg.BOOT_STAT, 2 ^ 29)] with boot := { begun := true, image := image } }
      s.boot.begun = true ∧ s.boot.trained = false ∧ s.boot.image = image ∧ s.fld Reg.BOOT_STAT 29 3 = 1 ∧
        s.bootMode = 0 ∧ s.spad.soft = [] ∧ s.spad.bad = []) := by
  dsimp only; and_intros <;> decide +kernel

theorem witness_TapInstructionsAndFuses :
    (∀ st ∈ [RcState.idle, .fatal], ({ rc := { state := st } } : State).rc.state = .idle ∨
      ({ rc := { state := st } } : State).rc.state = .fatal) ∧
    (RcState.running ≠ .idle ∧ RcState.running ≠ .fatal) ∧
    (∀ code ∈ [5, 0xFF], code < 256 ∧ code ∉ [0x00, 0x01, 0x02, 0x03, 0x04, 0x10, 0x11, 0x18]) ∧
    State.reset.fuses.keyHash = [] ∧ (regs [(Reg.DBG_AUTH, 2)]).fld Reg.DBG_AUTH 0 2 = 2 ∧
    (let s : State := { fuses := { keyHash := [(3, 1)] } }
     s.fld Reg.DBG_AUTH 0 2 ≠ 2 ∧ s.fuses.keyHash ≠ []) ∧
    (∀ level ∈ [0, 1, 2], ∀ init ∈ [Initiator.core 0, .core 1],
      canServe (regs [(Reg.DBG_AUTH, level)]) init Reg.DBG_AUTH = true) ∧
    Initiator.core 1 ≠ .core 0 := by
  dsimp only; and_intros <;> decide +kernel

theorem witness_DebugPathReachesWhatItsLevelGrants :
    (State.reset.dbgReach (State.reset.fld Reg.DBG_AUTH 0 2) (2 ^ 36 - 4) = false) ∧
    (∀ level ∈ [1, 2], let s := regs [(Reg.DBG_AUTH, level)]
      s.fld Reg.DBG_AUTH 0 2 = level ∧ s.plainAccess .debug (2 ^ 36 - 4) 4 0 ∧ s.ddr.wf (fun _ => 0) = true ∧
        (s.rd (Reg.CR_REG_RIGHTS 0)).testBit (2 * Initiator.num .debug) = true) ∧
    canServe State.reset .debug Reg.DEVICE_ID = true := by
  unfold State.plainAccess; and_intros <;> decide +kernel

theorem witness_FaultRingTakesRecordsInOrder :
    let r : Record := ⟨7, 6, 0x0181, 5, 0, 0⟩
    (∀ announce ∈ [none, some r],
      let s : State := { faults := { queues := [(6, [r]), (17, [r])], ring := [(255, some r)], wpos := 255 }
                         boot := { begun := true, announce := announce } }
      s.boot.begun = true ∧ s.boot.announce = announce ∧ s.faults.queues = [(6, [r]), (17, [r])] ∧ r.cls < 8) ∧
    State.reset.boot.begun = false ∧ State.reset.faults.queues = [] ∧
      ({ boot := { begun := true } } : State).boot.announce = none := by decide

/-- A register access of the host. -/
def acc (off width : Nat) : RegAcc := ⟨.hostMmio, off, width⟩

theorem witness_RegisterAccessFollowsItsCodes :
    (∀ off ∈ [Reg.POW_CAP, Reg.POW_INT_STAT, Reg.THERM_FAULT, Reg.FAULT_DROPPED, Reg.FAULT_OVERWRITES, Reg.ENERGY_LO,
        Reg.SNAP_BASE_LO, Reg.SPOOR_WRITE_POS_LO, Reg.TB0_LO, Reg.ENERGY_LO + 4, 0x81_0000 - 2],
      State.reset.reachable (acc off 32) ∧ inWindow off = false ∧ off < 2 ^ 26) ∧ (0x81_0000 - 2) % 4 ≠ 0 := by
  have : ∀ off ∈ [Reg.POW_CAP, Reg.POW_INT_STAT, Reg.THERM_FAULT, Reg.FAULT_DROPPED, Reg.FAULT_OVERWRITES, Reg.ENERGY_LO,
        Reg.SNAP_BASE_LO, Reg.SPOOR_WRITE_POS_LO, Reg.TB0_LO, Reg.ENERGY_LO + 4, 0x81_0000 - 2],
      canServe State.reset .hostMmio off = true ∧ inWindow off = false ∧ off < 2 ^ 26 := by decide +kernel
  exact ⟨fun off h => ⟨serves_of (this off h).1, (this off h).2⟩, by decide⟩

theorem witness_Bar2ReachesDdrAndScratchpads :
    (({ boot := { inReset := true } } : State).boot.inReset = true ∧ 2 ^ 34 - 8 + 8 ≤ 2 ^ State.reset.fld Reg.BAR2_CTRL 0 6 ∧
      State.reset.boot.inReset = false) ∧
    (∀ off ∈ [0, 2 ^ 34 - 2 ^ 22 - 8], let s := regs [(Reg.BAR2_CTRL, 2 ^ 24 + 0x22)]
      off + 8 ≤ 2 ^ s.fld Reg.BAR2_CTRL 0 6 - 2 ^ 22 ∧ s.flag Reg.BAR2_CTRL 24 = true ∧
        s.plainAccess .hostMmio (s.fld Reg.BAR2_CTRL 8 8 * 2 ^ 30 + off) 8 0 ∧ s.ddr.wf (fun _ => 0) = true ∧
        (s.rd (Reg.CR_REG_RIGHTS 0)).testBit (2 * Initiator.hostMmio.num) = true ∧
        (s.rd (Reg.CR_REG_RIGHTS 0)).testBit (2 * Initiator.hostMmio.num + 1) = true) ∧
    (let s := regs [(Reg.BAR2_CTRL, 2 ^ 24 + 0x22), (Reg.SPAD_OWNER 15, 8)]
     s.flag Reg.BAR2_CTRL 24 = true ∧ 2 ^ 22 ≤ 2 ^ s.fld Reg.BAR2_CTRL 0 6 ∧ s.isolated (32 + 15) = false ∧
       s.spadGate .hostMmio 15 = .reaches ∧ s.spad.bad = [] ∧ s.spad.soft = [] ∧ s.spad.mem.wf (fun _ => 0) = true) := by
  unfold State.plainAccess; dsimp only; and_intros <;> decide +kernel

/-! ## Single steps -/

/-- The state after a command. -/
def after (c : Instr) (s : State) : State :=
  match exec c s with
  | .next t => t
  | _ => s

/-- R7: IDCODE of the PY-9416. -/
theorem test_idcode : (after .idcode State.reset).bus.data = 0x1941_6647 := by decide +kernel

/-- R334: TB0 advances by 10 ns; the step on an empty queue is the model's tick (log 3). -/
theorem test_tick : (match Machine.step State.reset with | .next t => t.time.tb0 | _ => 0) = 10 := by decide +kernel

/-- R71: f of TT = 0x8000 with A = B = C = D = 1 is 1, and goes to scratch bit 1023 (R75). -/
theorem test_lut_truth_table :
    ((after (.lut bp) (at7 (inst 1 0x8000 0x3FF 0 + BitVec.ofNat 96 (2 ^ 63 + 2 ^ 50 + 2 ^ 37 + 2 ^ 24)))).cl 31).scratch =
      [(254 * 1024 + 1023, some true)] := by decide +kernel

/-- R71: A is the least significant bit of the truth table's index. -/
theorem test_lut_operand_a :
    ((after (.lut bp) (at7 (inst 1 0x0002 0x100 0 + BitVec.ofNat 96 (2 ^ 63)))).cl 31).scratch =
      [(254 * 1024 + 0x100, some true)] := by decide +kernel

/-- R35: after END the BP executes no later step of the cycle. -/
theorem test_end : ((after (.endBp bp) (at7 (inst 0xF 0 0 0))).cl 31).ended = [254] := by decide +kernel

/-- R97: POP marks its window, and reads no word of an empty one. -/
theorem test_pop : ((after (.pop bp) (at7 (inst 0xA 0 0x800 15) { windows := [(15, { word := some 1 })] })).cl 31).windows =
    [(15, { word := some 1, pop := true })] := by decide +kernel

/-- R45: a bit that no BP wrote keeps its value, and the written one takes effect in the next bank. -/
theorem test_commit_rotates :
    (let s := { State.reset with
       rc := running, banks := [(0, [(9, true)])]
       clusters := (0, { phase := .waitCommit, next := [(3, some true)] }) ::
         (List.range 63).map fun c => (c + 1, { phase := .waitCommit }) }
     (after (.commit []) s).bank 1) = [(3, true), (9, true)] := by decide +kernel

/-- R239: RUN on a device that is no command root: STATUS 5. -/
theorem test_run_needs_the_root :
    (after (.run okCmd) { State.reset with rc := { state := .loaded } }).fld Reg.CMD_STATUS 28 4 = 5 := by decide +kernel

/-- R239: LOAD_BEGIN in IDLE enters LOADING, and is DONE. -/
theorem test_load_begin : (after (.loadBegin okCmd) State.reset).rc.state = .loading := by decide +kernel

/-- R10: POW_CAP below its range takes the lower bound. -/
theorem test_clamp : (after (.registerWrite (acc Reg.POW_CAP 32) 50) State.reset).rd Reg.POW_CAP % 512 = 90 := by
  decide +kernel

/-- R9: a bit written 1 of a W1C field is cleared, and no other. -/
theorem test_w1c : (after (.registerWrite (acc Reg.POW_INT_STAT 32) 5) (regs [(Reg.POW_INT_STAT, 7)])).rd Reg.POW_INT_STAT =
    2 := by decide +kernel

/-- R400: PLAIN holds the data as written; bytes in DDR stand least significant first. -/
theorem test_ddr_little_endian :
    (after (.ddrAccess .hostMmio .read 0 4 [] okPhys) { ddr := [(0, 1), (3, 2)] }).bus =
      { data := 0x0200_0001, err := false } := by decide +kernel

/-- R400: a write through CRYPT changes its bytes. -/
theorem test_ddr_write :
    (after (.ddrAccess .hostMmio .write 2 2 [7, 0] okPhys) { ddr := [(3, 2), (4, 5)] }).ddr =
      [(2, 7), (4, 5)] := by decide +kernel

/-- R471: the record enters the ring at FAULT_WPOS modulo 256. -/
theorem test_fault_ring :
    (let r : Record := ⟨7, 6, 0x0181, 5, 0, 0⟩
     (after .faultRecordWrite { faults := { queues := [(6, [r])], wpos := 256 }, boot := { begun := true } }).faults.ring = [(0, some r)]) := by
  decide +kernel

/-- R249: PUSH stores the word at WRITE_POS, least significant byte first. -/
theorem test_push : (after (.push .hostMmio 15 0x0102) (ports 0)).ddr = [(0, 2), (1, 1)] := by decide +kernel

/-- R390: another initiator than the owner reads 0. -/
theorem test_scratchpad_owner :
    (after (.spadAccess (.core 1) 0 0 1 none []) { spad := { mem := [(0, 255)] } }).bus.data = 0 ∧
      (after (.spadAccess (.core 0) 0 0 1 none []) { spad := { mem := [(0, 255)] } }).bus.data = 255 := by decide +kernel

/-- R370, R371: a second write of WORD before the read sets COLLISION. -/
theorem test_mailbox_collision :
    ((after (.wordWrite (.core 0) 1 5) { badger := { boxes := [(1, { full := true })], cores := [(1, { state := 1 })] } }).mbox 1).collision
      = true := by decide +kernel

/-- R365: TAKE retires the task that the dispatcher selects. -/
theorem test_take : ((after (.take (inst0 0 0 0 0 10)) (tasks 2 {} { ready := [0] })).core 7).task = some 0 := by decide +kernel

/-- R180: TRAIN puts the port into TRAINING. -/
theorem test_train : (after (.train (.core 0) 7) (port7 0)).training 7 = true := by decide +kernel

/-- R202: a frame of the expected SEQ is acknowledged. -/
theorem test_frame_acked :
    ((after (.frame (onTwoLanes false)) (linked 0 { expSeq := 255 })).link 7).expSeq = 0 := by decide +kernel

/-- R175, R176: with negative running disparity the comma of K28.5 is 0011111, and K28.4 is never transmitted. -/
theorem test_comma :
    encode8b10b false kIdle = (0b0011111010, true) ∧ decode8b10b true 0b1100000101 = (.good kIdle, false) ∧
      neverSent ⟨true, 0x9C⟩ = true := by decide +kernel

/-- R177: byte i of the stream goes to lane i mod N, and K23.7 to the lanes that it does not fill. -/
theorem test_striping : stripe 4 [kSet, dSym 1, dSym 2, dSym 3, dSym 4] =
    [[kSet, dSym 1, dSym 2, dSym 3], [dSym 4, kPad, kPad, kPad]] := by decide

/-- R445: a reading above the range marks the sensor's fault. -/
theorem test_sensor_fault : (after (.sensorReading 3 601) State.reset).rd Reg.THERM_FAULT = 8 := by decide +kernel

/-- R461: a code that is not listed acts as BYPASS. -/
theorem test_bypass : (after (.bypass 0x42) State.reset).dbg.ir = 0xFF := by decide +kernel

/-- R295: the CRC-32 of IEEE 802.3 of the bytes "123456789" is 0xCBF43926 (log 12). -/
theorem test_crc32 : crc32 [0x31, 0x32, 0x33, 0x34, 0x35, 0x36, 0x37, 0x38, 0x39] = 0xCBF4_3926 := by decide +kernel

/-- R197: an invalid send-map entry sends nowhere; R204: a receive-map entry that is not valid accepts nothing. -/
theorem test_maps_at_reset : State.reset.sendTo 0 0 0 = .invalid ∧ State.reset.recvTo 0 0 0 = none := by decide +kernel

/-! ## The spec's worked examples -/

/-- The example of R7: DEVICE_ID of a PY-9416 of grade E, revision B0. -/
theorem test_example_device_id :
    (after (.dbgAccess 0 false 0x40_0000_0000 0 0 none) { fuses := { tempGrade := 1, revMajor := 1 } }).bus.data =
      0x9416_1100 := by decide +kernel

/-- The example of R28: DDR_BASE = 48 in a window of 32 GiB is clamped to 32, and offset 0x1000 then reaches DDR
address 0x08_0000_1000. -/
theorem test_example_bar2 :
    (let s := after (.registerWrite (acc Reg.BAR2_CTRL 32) (2 ^ 31 + 48 * 2 ^ 8 + 35))
       { regs [(Reg.BAR2_CTRL, 2 ^ 31 + 35)] with ddr := [(0x08_0000_1000, 7)] }
     s.fld Reg.BAR2_CTRL 8 8 = 32 ∧ (after (.bar2Access 0x1000 1 none) s).bus.data = 7) := by decide +kernel

/-- The example of R253: channel 2 holds two words; LEVEL, and the first POP. -/
theorem test_example_host_out :
    (let s := { regs [(Reg.MP_OUT_CFG 2, 2 ^ 31 + 4), (Reg.MP_OUT_WRITE_POS_LO 2, 2)] with
       ddr := [(0, 5), (7, 0x80), (8, 6), (15, 0x80)] }
     let t := after (.hostOutPop .hostMmio 2) s
     let u := after (.hostOutPop .hostMmio 2) t
     (after (.level .hostMmio 2) s).bus.data = 0x8002_0000_0000_0002 ∧ t.bus.data = 0x8000_0000_0000_0005 ∧
       u.bus.data = 0x8000_0000_0000_0006 ∧ (after (.hostOutPop .hostMmio 2) u).bus.data = 0x0002_0000_0000_0000) := by
  decide +kernel

/-- The example of R243: T of a PAUSE under AUTO is the window's end plus LEAD. -/
theorem test_example_pause :
    (let s := { root { state := .running, ecn := 50004, begun := true, fresh := false, sealNext := 50001 } with
       csr := (regs [(Reg.TREE_CFG 0, 2 ^ 31), (Reg.TREE_CFG 1, 2 ^ 31), (Reg.RC_CFG, 16)]).csr }
     (after (.pause okCmd) s).rc.pauseAt) = some 50020 := by decide +kernel

/-- The example of R431: the TS packet. -/
theorem test_example_ts :
    ({ State.reset with time := { tb0 := 0x1234_5678 }, rc := { running with ecn := 123456 } } : State).tsPacket =
      [0x2A, 0x78, 0x56, 0x34, 0x12, 0x40, 0xE2, 0x01, 0x00] := by decide +kernel

/-- The example of R431: the packet of BP 30 of CL12 at MARK with tag 0x0A5 at step 200. -/
theorem test_example_mark :
    (let s := { regs [(Reg.SPOOR_STAT, 2 ^ 29), (Reg.SPOOR_SRC, 2 ^ 16)] with
       rc := running, imem := [((12 * 2048 + 200) * 256 + 30, inst 0xE 0 0x800 0x0A5)]
       clusters := [(12, { phase := .stepping, step := 200, opened := true })] }
     (after (.mark ⟨12, 30, none⟩) s).spoor.buf) =
      [(0, 0x78), (1, 0x07), (2, 0x0C), (3, 0xC8), (5, 0xA5), (6, 0xE0), (7, 0x01)] := by decide +kernel

/-- The example of R344: the delay of the exchange is 30.250 ns, so that R341 discards it, its servo as it was, against a
filtered delay that is 2^-16 ns beyond 50 ns away from it, on either side. -/
theorem test_example_exchange :
    ∀ d ∈ [50 * 65536 + 1, -50 * 65536 - 1],
      (let s := { regs [(Reg.NET_ID, 1), (Reg.PORT_STAT 7, 2 ^ 31)] with
         rc := { state := .loaded }
         time := { tb0 := 5000000000, clock := 77
                   servoA := { state := 1, known := true, est := 5000000000 * 10 ^ 9, delay := 1982464 + d }
                   exchC := [(0, some { port := 7, seq := 255, began := 0, t2 := 327679980355584
                                        t1 := some 0x0001_2A05_F200_0000, t3 := 327679984287744 })] } }
       let stamp := 0x0001_2A05_F278_8000
       let x := { exch 4 0 with stamp := stamp, crc := crc16 (exchBytes 4 0 255 0 stamp) }
       (after (.delayResp x) s).time.servoA = { s.time.servoA with last := 77 }) := by
  decide +kernel

/-- The example of R413: the tree of a region of 32,768 data pages whose metadata area begins at 0x01_0800_0000: the line of
counter leaf 1,747, that of its level-1 parent, the root's level, and the slots used. -/
theorem test_example_counter_tree :
    nodeLine 0x01_0800_0000 32768 0 1747 * 64 = 0x01_0804_8E40 ∧
      nodeLine 0x01_0800_0000 32768 1 (1747 / 8) * 64 = 0x01_0801_B780 ∧
      rootLevel 32768 = 6 ∧ levelCount 32768 0 = 196608 ∧ slotBase 32768 6 = 28086 ∧
      nodeAt 32768 (0x1_B780 / 64) = some (1, 218) := by decide +kernel

end Sys2Proof.Tests.Slice0
end

/-!
The bits of a register after a write of one of its fields, and what a counter, an interrupt cause and a position pair hold
after the operation that changes them.
-/

namespace Sys2Proof.Machine

/-! ## Fields of a number -/

theorem testBit_bits (n l w i : Nat) : (bits n l w).testBit i = (decide (i < w) && n.testBit (l + i)) := by
  rw [bits, Nat.testBit_mod_two_pow, Nat.testBit_shiftRight]

/-- A number with one of its fields replaced, bit by bit. -/
theorem testBit_putBits (n l w v i : Nat) :
    (putBits n l w v).testBit i = if l ≤ i ∧ i < l + w then v.testBit (i - l) else n.testBit i := by
  have hn : n = (n / 2 ^ (l + w) * 2 ^ w + bits n l w) * 2 ^ l + n % 2 ^ l := by
    rw [bits, Nat.shiftRight_eq_div_pow, Nat.pow_add, ← Nat.div_div_eq_div_mul, Nat.div_add_mod', Nat.div_add_mod']
  have hp : putBits n l w v = 2 ^ l * (2 ^ w * (n / 2 ^ (l + w)) + v % 2 ^ w) + n % 2 ^ l := by
    rw [putBits, Nat.shiftLeft_eq, Nat.shiftLeft_eq]
    conv_lhs => rw [hn]
    have hb : bits ((n / 2 ^ (l + w) * 2 ^ w + bits n l w) * 2 ^ l + n % 2 ^ l) l w = bits n l w := by rw [← hn]
    rw [hb]
    generalize bits n l w = b
    generalize n / 2 ^ (l + w) = q
    have : (q * 2 ^ w + b) * 2 ^ l + n % 2 ^ l - b * 2 ^ l = q * 2 ^ w * 2 ^ l + n % 2 ^ l := by
      rw [Nat.add_mul]; omega
    rw [this]; ring
  rw [hp, Nat.testBit_two_pow_mul_add _ (Nat.mod_lt _ (Nat.two_pow_pos l)),
    Nat.testBit_two_pow_mul_add _ (Nat.mod_lt _ (Nat.two_pow_pos w)), Nat.testBit_mod_two_pow, Nat.testBit_mod_two_pow]
  rcases Nat.lt_or_ge i l with h | h
  · simp [h, Nat.not_le.2 h]
  · rcases Nat.lt_or_ge (i - l) w with h' | h'
    · have : i < l + w := by omega
      simp [h, Nat.not_lt.2 h, h', this]
    · have h2 : ¬ i < l + w := by omega
      have h3 : l + w + (i - l - w) = i := by omega
      simp [h, Nat.not_lt.2 h, Nat.not_lt.2 h', h2, Nat.testBit_div_two_pow, h3, Nat.add_comm]

theorem putBits_lt (n l w v k : Nat) (hn : n < 2 ^ k) (hk : l + w ≤ k) : putBits n l w v < 2 ^ k := by
  refine Nat.lt_pow_two_of_testBit _ fun i hi => ?_
  rw [testBit_putBits, if_neg (by omega)]
  exact Nat.testBit_lt_two_pow (hn.trans_le (Nat.pow_le_pow_right (by decide) hi))

theorem bits_putBits_same (n l w v : Nat) : bits (putBits n l w v) l w = v % 2 ^ w := by
  refine Nat.eq_of_testBit_eq fun i => ?_
  rw [testBit_bits, testBit_putBits, Nat.testBit_mod_two_pow]
  by_cases h : i < w <;> simp [h]

theorem bits_putBits_other (n l w v l' w' : Nat) (h : l' + w' ≤ l ∨ l + w ≤ l') :
    bits (putBits n l w v) l' w' = bits n l' w' := by
  refine Nat.eq_of_testBit_eq fun i => ?_
  rw [testBit_bits, testBit_bits, testBit_putBits]
  by_cases hi : i < w'
  · rw [if_neg (by omega)]
  · simp [hi]

theorem putBits_whole (n v w : Nat) (hn : n < 2 ^ w) (hv : v < 2 ^ w) : putBits n 0 w v = v := by
  refine Nat.eq_of_testBit_eq fun i => ?_
  rw [testBit_putBits]
  split
  · simp
  · rename_i h
    rw [Nat.testBit_lt_two_pow (hn.trans_le (Nat.pow_le_pow_right (by decide) (by omega))),
      Nat.testBit_lt_two_pow (hv.trans_le (Nat.pow_le_pow_right (by decide) (by omega)))]

theorem bits_whole (n w : Nat) (hn : n < 2 ^ w) : bits n 0 w = n := by
  rw [bits, Nat.shiftRight_zero, Nat.mod_eq_of_lt hn]

theorem satAdd_le (top n k : Nat) : satAdd top n k ≤ top := by
  unfold satAdd; split <;> omega

/-! ## Fields of a register -/

variable (s : State)

theorem rd_setFld_same (off l w v : Nat) (h : l + w ≤ 32) : (s.setFld off l w v).rd off = putBits (s.rd off) l w v := by
  rw [State.setFld, rd_wr_same, Nat.mod_eq_of_lt (putBits_lt _ _ _ _ _ (rd_lt s off) h)]

theorem flag_setFld_same (off l w v i : Nat) (h : l + w ≤ 32) :
    (s.setFld off l w v).flag off i = if l ≤ i ∧ i < l + w then v.testBit (i - l) else s.flag off i := by
  rw [State.flag, rd_setFld_same s off l w v h, testBit_putBits]; rfl

theorem fld_setFld_same (off l w v : Nat) (h : l + w ≤ 32) : (s.setFld off l w v).fld off l w = v % 2 ^ w := by
  rw [State.fld, rd_setFld_same s off l w v h, bits_putBits_same]

/-- Fields of one register that do not overlap do not disturb each other. -/
theorem fld_setFld_apart (off l w v l' w' : Nat) (h : l + w ≤ 32) (ha : l' + w' ≤ l ∨ l + w ≤ l') :
    (s.setFld off l w v).fld off l' w' = s.fld off l' w' := by
  rw [State.fld, rd_setFld_same s off l w v h, bits_putBits_other _ _ _ _ _ _ ha]; rfl

theorem flag_setFlag_same (off i : Nat) (b : Bool) (h : i < 32) : (s.setFlag off i b).flag off i = b := by
  rw [State.setFlag, flag_setFld_same s off i 1 _ i (by omega), if_pos (by omega), Nat.sub_self]
  cases b <;> rfl

theorem fld_setFlag_apart (off i l w : Nat) (b : Bool) (h : i < 32) (ha : l + w ≤ i ∨ i + 1 ≤ l) :
    (s.setFlag off i b).fld off l w = s.fld off l w := fld_setFld_apart s off i 1 _ l w (by omega) ha

/-- A field, or a bit, of a register that reads the same in two states is the same in both. -/
theorem fld_congr {s t : State} {off : Nat} (h : t.rd off = s.rd off) (l w : Nat) : t.fld off l w = s.fld off l w := by
  rw [State.fld, h]; rfl
theorem flag_congr {s t : State} {off : Nat} (h : t.rd off = s.rd off) (i : Nat) : t.flag off i = s.flag off i := by
  rw [State.flag, h]; rfl

/-- A counter that fills its register. -/
theorem rd_count_whole (off k : Nat) : (s.count off 0 32 k).rd off = satAdd (2 ^ 32 - 1) (s.rd off) k := by
  rw [State.count, rd_setFld_same s off 0 32 _ (by omega), State.fld, bits_whole _ _ (rd_lt s off)]
  exact putBits_whole _ _ 32 (rd_lt s off) (by have := satAdd_le (2 ^ 32 - 1) (s.rd off) k; omega)

/-- The registers that a record or a cause can change lie in two places. -/
theorem not_mem_noteRegs {off : Nat} (h : off < 0x10_9000 ∨ (0x10_9004 < off ∧ off < 0x120_0008) ∨ 0x120_0010 < off) :
    off ∉ noteRegs := by
  simp only [noteRegs, Reg.FAULT_DROPPED, Reg.FAULT_INT_STAT, Reg.MSIX_PBA, List.mem_cons, List.not_mem_nil, or_false]
  omega

/-- The cause that is raised shows in the INT_STAT register of its source. -/
theorem flag_raise (i b off : Nat) (hi : intStatOf i = some off) (hn : off ∉ noteRegs) (hb : b < 32) :
    (s.raise i b).flag off b = true := by
  have h : s.raise i b = State.irqEdges s (s.setFlag off b true) [i] := by rw [State.raise, hi]
  rw [h, flag_congr (rd_irqEdges _ s [i] off hn), flag_setFlag_same s off b true hb]

/-! ## _LO/_HI pairs -/

theorem rd_wr64_lo (off v : Nat) : (s.wr64 off v).rd off = v % 2 ^ 32 := by
  rw [State.wr64, rd_wr_other _ _ _ _ (by omega), rd_wr_same]

theorem rd_wr64_hi (off v : Nat) : (s.wr64 off v).rd (off + 4) = v / 2 ^ 32 % 2 ^ 32 := by
  rw [State.wr64, rd_wr_same]

theorem rd_wr64_other (off v r : Nat) (h : r ≠ off) (h' : r ≠ off + 4) : (s.wr64 off v).rd r = s.rd r := by
  rw [State.wr64, rd_wr_other _ _ _ _ h', rd_wr_other _ _ _ _ h]

theorem rd64_wr64 (off v : Nat) : (s.wr64 off v).rd64 off = v % 2 ^ 64 := by
  rw [State.rd64, rd_wr64_lo, rd_wr64_hi]; omega

end Sys2Proof.Machine

/-!
The TAP's IDCODE (R7), the host link (R232, R234, R453) and the message-port pages (R249, R253).
-/

namespace Sys2Proof.Machine

variable (s : State)

/-! ## The host link -/

/-- The link trains where it is down, PERST_N is deasserted and BAR2_CTRL is locked (R453). -/
theorem execPcieLinkUp_trains (cfg : LinkCfg) (hup : s.host.up = false) (hp : s.host.perst = false)
    (hl : s.flag Reg.BAR2_CTRL 31 = true) :
    execPcieLinkUp cfg s = .next { s with host := { s.host with
      up := true, released := none
      width := supported [8, 4, 2, 1] cfg.width 1
      rate := supported [32000, 16000, 8000, 5000, 2500] cfg.rate 2500
      maxPayload := supported [128, 256, 512] cfg.maxPayload s.host.maxPayload
      maxRead := supported [128, 256, 512, 1024, 2048, 4096] cfg.maxRead s.host.maxRead
      ecrcGen := cfg.ecrcGen, ecrcCheck := cfg.ecrcCheck, aspmL1 := cfg.aspmL1 } } := by
  simp [execPcieLinkUp, hup, hp, hl]

theorem supported_of_mem {l : List Nat} {v w : Nat} (h : v ∈ l) : supported l v w = v := by
  simp [supported, h]

/-- What a cause and a record of a link that goes down change (R234). -/
theorem execPcieLinkDown_up (hup : s.host.up = true) :
    execPcieLinkDown s = .next ((({ s with host := { s.host with up := false, width := 0, rate := 0 } } : State).record
      cLink bRunctl 0x060C 0).raise 2 5) := by
  simp [execPcieLinkDown, hup]

/-! ## The port window -/

theorem onWindow_deaf (init : Initiator) (f : State → State) (h : s.hostDeaf init = true) :
    s.onWindow init f = s.answer 0 := by simp [State.onWindow, h]

theorem onWindow_isolated (init : Initiator) (f : State → State) (h : s.hostDeaf init = false) (hi : s.isolated 10 = true) :
    s.onWindow init f = s.busError := by simp [State.onWindow, h, hi]

theorem onWindow_open (init : Initiator) (f : State → State) (h : s.hostDeaf init = false) (hi : s.isolated 10 = false) :
    s.onWindow init f = f s := by simp [State.onWindow, h, hi]

/-- Every row of the host pages is an access of the port window. -/
theorem page_rows (init : Initiator) (ch : Nat) (w : W64) (c : Instr)
    (hc : c ∈ [Instr.push init ch w, .hostOutPop init ch, .peek init ch, .level init ch]) :
    ∃ f, exec c s = .next (s.onWindow init f) := by
  simp only [List.mem_cons, List.not_mem_nil, or_false] at hc
  rcases hc with rfl | rfl | rfl | rfl <;> exact ⟨_, rfl⟩

/-! ## PUSH -/

/-- A word that finds the channel disabled or without credit is counted and recorded (R249). -/
theorem pushWord_dropped (h : Nat) (w : W64) (hd : s.flag (Reg.MP_IN_CFG h) 31 = false ∨ s.inCredit h = 0) :
    s.pushWord h w = (s.count (Reg.MP_IN_FULL_DROPS h) 0 32 1).record cRejected bRunctl 0x0608 h := by
  rcases hd with hd | hd <;> simp [State.pushWord, hd]

/-- The host-in positions below `pos` that the word's place takes over from are forgotten. -/
def RunCtl.afterPush (r : RunCtl) (size h pos : Nat) : RunCtl :=
  { r with seenAt := if pos < size then r.seenAt else r.seenAt.erase (h * 2 ^ 64 + pos - size) }

/-- A word that the ring takes moves WRITE_POS on (R249). -/
theorem pushWord_stored (h : Nat) (w : W64) (u : State) (he : s.flag (Reg.MP_IN_CFG h) 31 = true) (hc : s.inCredit h ≠ 0)
    (hput : s.mpPut (Reg.MP_IN_BASE_LO h) (Reg.MP_IN_CFG h) (s.rd64 (Reg.MP_IN_WRITE_POS_LO h)) w = (false, u)) :
    s.pushWord h w = (u.wr64 (Reg.MP_IN_WRITE_POS_LO h) (s.rd64 (Reg.MP_IN_WRITE_POS_LO h) + 1)).modRc
      (RunCtl.afterPush · (2 ^ u.fld (Reg.MP_IN_CFG h) 0 5) h (s.rd64 (Reg.MP_IN_WRITE_POS_LO h))) := by
  simp only [State.pushWord, he, hc, hput, Bool.not_true, Bool.false_eq_true, or_self, if_false]
  rfl

/-! ## POP, PEEK and LEVEL -/

theorem readOut_empty (h : Nat) (pop : Bool) (he : s.outHeld h = 0) : s.readOut h pop = s.answer (h * 2 ^ 48) := by
  simp [State.readOut, he, outStatus]

/-- A channel that holds words answers the word at READ_POS, and POP moves READ_POS on (R253). -/
theorem readOut_held (h : Nat) (pop : Bool) (x : W64) (u : State) (he : s.outHeld h ≠ 0)
    (hw : s.mpWord (Reg.MP_OUT_BASE_LO h) (Reg.MP_OUT_CFG h) (s.rd64 (Reg.MP_OUT_READ_POS_LO h)) = (some x, u)) :
    s.readOut h pop = (if pop then u.wr64 (Reg.MP_OUT_READ_POS_LO h) (u.rd64 (Reg.MP_OUT_READ_POS_LO h) + 1)
      else u).answer x.toNat := by
  simp [State.readOut, he, State.outHead, hw]

theorem outLevel_empty (h : Nat) (he : s.outHeld h = 0) : s.outLevel h = h * 2 ^ 48 := by
  simp [State.outLevel, he, outStatus]

theorem outLevel_held (h : Nat) (he : s.outHeld h ≠ 0) :
    s.outLevel h = 2 ^ 63 + h * 2 ^ 48 + s.outHeld h % 2 ^ 32 := by
  simp [State.outLevel, he, outStatus]

/-- The rows of the host pages at a window that is open. -/
theorem exec_push_open (init : Initiator) (ch : Nat) (w : W64) (hch : ch < 16) (hd : s.hostDeaf init = false)
    (hi : s.isolated 10 = false) : exec (.push init ch w) s = .next ((s.pushWord ch w).answer 0) := by
  show Host.Outcome.next (s.onWindow init fun s => (s.pushWord (ch % 16) w).answer 0) = _
  rw [onWindow_open s init _ hd hi, Nat.mod_eq_of_lt hch]

theorem exec_hostOutPop_open (init : Initiator) (ch : Nat) (hch : ch < 16) (hd : s.hostDeaf init = false)
    (hi : s.isolated 10 = false) : exec (.hostOutPop init ch) s = .next (s.readOut ch true) := by
  show Host.Outcome.next (s.onWindow init fun s => s.readOut (ch % 16) true) = _
  rw [onWindow_open s init _ hd hi, Nat.mod_eq_of_lt hch]

theorem exec_peek_open (init : Initiator) (ch : Nat) (hch : ch < 16) (hd : s.hostDeaf init = false)
    (hi : s.isolated 10 = false) : exec (.peek init ch) s = .next (s.readOut ch false) := by
  show Host.Outcome.next (s.onWindow init fun s => s.readOut (ch % 16) false) = _
  rw [onWindow_open s init _ hd hi, Nat.mod_eq_of_lt hch]

theorem exec_level_open (init : Initiator) (ch : Nat) (hch : ch < 16) (hd : s.hostDeaf init = false)
    (hi : s.isolated 10 = false) : exec (.level init ch) s = .next (s.answer (s.outLevel ch)) := by
  show Host.Outcome.next (s.onWindow init fun s => s.answer (s.outLevel (ch % 16))) = _
  rw [onWindow_open s init _ hd hi, Nat.mod_eq_of_lt hch]

/-! ## The clauses of the statement -/

/-- FULL_DROPS of a channel is none of the registers that a record can change. -/
theorem fullDrops_not_noteRegs (ch : Nat) (hch : ch < 16) : Reg.MP_IN_FULL_DROPS ch ∉ noteRegs :=
  not_mem_noteRegs (.inl (by show 0x10_3030 + ch * 0x40 < _; omega))

/-- A PUSH that the channel does not take: the word is counted as dropped (R249). -/
theorem push_dropped (init : Initiator) (ch : Nat) (w : W64) (hch : ch < 16) (hd : s.hostDeaf init = false)
    (hi : s.isolated 10 = false) (hno : s.flag (Reg.MP_IN_CFG ch) 31 = false ∨ s.inCredit ch = 0) :
    ∃ t, exec (.push init ch w) s = .next t ∧
      t = { s with csr := t.csr, faults := t.faults, tx := t.tx, bus := { data := 0, err := false } } ∧
      t.rd (Reg.MP_IN_FULL_DROPS ch) = satAdd (2 ^ 32 - 1) (s.rd (Reg.MP_IN_FULL_DROPS ch)) 1 ∧
      s.keepsRegs t [Reg.MP_IN_FULL_DROPS ch] := by
  have hn := fullDrops_not_noteRegs ch hch
  refine ⟨_, exec_push_open s init ch w hch hd hi, ?_, ?_, ?_⟩ <;> rw [pushWord_dropped s ch w hno]
  · have h : s.Noted ((s.count (Reg.MP_IN_FULL_DROPS ch) 0 32 1).record cRejected bRunctl 0x0608 ch) :=
      (noted_count s _ _ _ _).trans (noted_record _ _ _ _ _)
    exact congrArg (State.answer · 0) h
  · exact (rd_record _ _ _ _ _ _ hn).trans (rd_count_whole s _ 1)
  · intro off ho hon
    exact (rd_record _ _ _ _ _ _ hon).trans (rd_count_other s _ _ _ _ _ (by simpa using ho))

/-- A PUSH that the channel takes: its ring holds the word, and WRITE_POS moves on (R249). -/
theorem push_stored (init : Initiator) (ch : Nat) (w : W64) (hch : ch < 16) (hd : s.hostDeaf init = false)
    (hi : s.isolated 10 = false) (he : s.flag (Reg.MP_IN_CFG ch) 31 = true) (hc : s.inCredit ch ≠ 0) (u : State)
    (hput : s.mpPut (Reg.MP_IN_BASE_LO ch) (Reg.MP_IN_CFG ch) (s.rd64 (Reg.MP_IN_WRITE_POS_LO ch)) w = (false, u)) :
    ∃ t, exec (.push init ch w) s = .next t ∧
      t = { u with csr := t.csr, rc := { u.rc with seenAt := t.rc.seenAt }, bus := { data := 0, err := false } } ∧
      t.rd64 (Reg.MP_IN_WRITE_POS_LO ch) = (s.rd64 (Reg.MP_IN_WRITE_POS_LO ch) + 1) % 2 ^ 64 := by
  refine ⟨_, exec_push_open s init ch w hch hd hi, ?_⟩
  rw [pushWord_stored s ch w u he hc hput]
  exact ⟨rfl, rd64_wr64 u (Reg.MP_IN_WRITE_POS_LO ch) _⟩

/-- PEEK and POP of a channel that holds words (R253). -/
theorem peek_pop_held (init : Initiator) (ch : Nat) (hch : ch < 16) (hd : s.hostDeaf init = false)
    (hi : s.isolated 10 = false) (x : W64) (u : State) (he : s.outHeld ch ≠ 0)
    (hw : s.mpWord (Reg.MP_OUT_BASE_LO ch) (Reg.MP_OUT_CFG ch) (s.rd64 (Reg.MP_OUT_READ_POS_LO ch)) = (some x, u)) :
    exec (.peek init ch) s = .next { u with bus := { data := x.toNat, err := false } } ∧
    ∃ t, exec (.hostOutPop init ch) s = .next t ∧
      t = { u with csr := t.csr, bus := { data := x.toNat, err := false } } ∧
      t.rd64 (Reg.MP_OUT_READ_POS_LO ch) = (u.rd64 (Reg.MP_OUT_READ_POS_LO ch) + 1) % 2 ^ 64 ∧
      u.keepsRegs t [Reg.MP_OUT_READ_POS_LO ch, Reg.MP_OUT_READ_POS_LO ch + 4] := by
  refine ⟨?_, _, exec_hostOutPop_open s init ch hch hd hi, ?_, ?_, ?_⟩
  · rw [exec_peek_open s init ch hch hd hi, readOut_held s ch false x u he hw]; rfl
  all_goals rw [readOut_held s ch true x u he hw, if_pos rfl]
  · rfl
  · exact rd64_wr64 u (Reg.MP_OUT_READ_POS_LO ch) _
  · intro off ho _
    simp only [List.mem_cons, List.not_mem_nil, or_false, not_or] at ho
    exact rd_wr64_other u _ _ off ho.1 ho.2

/-- The link goes down, with its record and its cause, and no other register changes (R234). -/
theorem pcieLinkDown_up (hup : s.host.up = true) :
    ∃ t, exec .pcieLinkDown s = .next t ∧
      t = { s with csr := t.csr, faults := t.faults, tx := t.tx, host := { s.host with up := false, width := 0, rate := 0 } } ∧
      t.flag Reg.RC_INT_STAT 5 = true ∧ s.keepsRegs t [Reg.RC_INT_STAT] := by
  refine ⟨_, execPcieLinkDown_up s hup, ?_, ?_, ?_⟩
  · exact (noted_record _ _ _ _ _).trans (noted_raise _ _ _)
  · exact flag_raise _ 2 5 Reg.RC_INT_STAT rfl (by decide) (by decide)
  · intro off ho hon
    have hi : intStatOf 2 ≠ some off := fun h => ho (by rw [← Option.some.inj h]; exact List.mem_singleton_self _)
    exact (rd_raise _ 2 5 off hon hi).trans (rd_record _ _ _ _ _ off hon)

end Sys2Proof.Machine

namespace Sys2Proof.Machine

/-- Settles O55: the arm of IDCODE is the load of its instruction and the answer of the part's identity (R7). -/
theorem idcodeReadsThePart : Obligations.IdcodeReadsThePart := fun _ => rfl

/-- Settles O31: the link by the lemmas about its three rows, and each page row by whether its window is deaf,
isolated or open, and there by what PUSH, POP, PEEK and LEVEL do in the cases of credit and of words held. -/
theorem hostLinkAndMessagePorts : Obligations.HostLinkAndMessagePorts := by
  unfold Obligations.HostLinkAndMessagePorts
  refine ⟨⟨fun s cfg hup hp hl => ⟨?_, fun hw hr hm hq => ?_⟩, fun s hup => pcieLinkDown_up s hup, fun s on hup => ?_⟩,
    fun s init ch w hch => ⟨fun hd c hc => ?_, fun hd hi c hc => ?_, fun hd hi => ⟨?_, ?_, ?_, ?_, ?_⟩⟩⟩
  · exact ⟨_, execPcieLinkUp_trains s cfg hup hp hl, rfl, rfl, rfl⟩
  · refine (execPcieLinkUp_trains s cfg hup hp hl).trans ?_
    have hw' : cfg.width ∈ [8, 4, 2, 1] := List.mem_reverse.mp hw
    have hr' : cfg.rate ∈ [32000, 16000, 8000, 5000, 2500] := List.mem_reverse.mp hr
    rw [supported_of_mem hw', supported_of_mem hr', supported_of_mem hm, supported_of_mem hq]
  · show execD3hot on s = _
    simp [execD3hot, hup]
  · obtain ⟨f, hf⟩ := page_rows s init ch w c hc
    rw [hf, onWindow_deaf s init f hd]; rfl
  · obtain ⟨f, hf⟩ := page_rows s init ch w c hc
    rw [hf, onWindow_isolated s init f hd hi]; rfl
  · exact fun he hcr hput => push_stored s init ch w hch hd hi he hcr _ (Prod.ext hput rfl)
  · exact fun hno => push_dropped s init ch w hch hd hi hno
  · exact fun x u he hw => peek_pop_held s init ch hch hd hi x u he hw
  · intro he
    rw [exec_peek_open s init ch hch hd hi, exec_hostOutPop_open s init ch hch hd hi, exec_level_open s init ch hch hd hi,
      readOut_empty s ch _ he, readOut_empty s ch _ he, outLevel_empty s ch he]
    exact ⟨rfl, rfl, rfl⟩
  · intro he
    rw [exec_level_open s init ch hch hd hi, outLevel_held s ch he]; rfl

end Sys2Proof.Machine

/-!
Register rows at a device that is awake, the reset values of registers, and the resets of the card (R451-R454, R487, R371).
-/

namespace Sys2Proof

/-- A key reads the same under two defaults that agree on it. -/
theorem Map.get_congr {α : Type} {d d' : Nat → α} (m : Map α) {k : Nat} (h : d k = d' k) : m.get d k = m.get d' k := by
  induction m with
  | nil => exact h
  | cons e m ih => obtain ⟨j, v⟩ := e; simp only [Map.get, ih]

end Sys2Proof

namespace Sys2Proof.Machine

/-! ## Reset values -/

/-- The straps are in the reset values of PORT_CFG 6 and 7 and of SH_STATUS alone (R456). -/
theorem regReset_straps (f : Fuses) (straps : Straps) (off : Nat)
    (h : off / 0x10_0000 ≠ 0x05 ∧ off / 0x10_0000 ≠ 0x08) : regReset { f with straps := straps } off = regReset f off := by
  have h6 : ¬ (off = Reg.PORT_CFG 6 ∨ off = Reg.PORT_CFG 7) := by
    show ¬ (off = 0x50_6000 ∨ off = 0x50_7000); omega
  have h8 : off ≠ Reg.SH_STATUS := by
    show off ≠ 0x80_0000; omega
  simp only [regReset, h6, h8, if_false]

/-- In the block of the lanes the reset column decides but for PORT_CFG 6 and 7. -/
theorem regReset_lanes (f : Fuses) (off : Nat) (h : off / 0x10_0000 = 0x05)
    (h6 : ¬ (off = Reg.PORT_CFG 6 ∨ off = Reg.PORT_CFG 7)) :
    regReset f off = BitVec.ofNat 32 (((regAt off).map RegSpec.resetWord).getD 0) := by
  have hc : ∀ n, n / 0x10_0000 ≠ 0x05 → ¬ off = n := fun n hn e => hn (e ▸ h)
  have hm : (List.range 16).any (fun i => decide (off = Reg.MP_OUT_CFG i)) = false := by
    simp only [List.any_eq_false, List.mem_range, decide_eq_true_eq]
    intro i hi
    show ¬ off = 0x10_3408 + i * 0x40
    omega
  have hl : (List.range 8).any (fun i => decide (off = Reg.LX_EG_CFG i)) = false := by
    simp only [List.any_eq_false, List.mem_range, decide_eq_true_eq]
    intro i hi
    refine hc _ ?_
    show (0x70_0200 + i * 0x400) / 0x10_0000 ≠ 0x05
    omega
  have hv : ¬ (0x10_8000 ≤ off ∧ off < 0x10_8400 ∧ off % 16 = 12) := by omega
  have hr : ¬ (0xD0_1000 ≤ off ∧ off < 0xD0_2C00 ∧ (regAt off).isSome = true) := by omega
  simp only [regReset, hc _ (show Reg.CR_REG_SIZE 0 / 0x10_0000 ≠ 0x05 by decide),
    hc _ (show Reg.CR_REG_CFG 0 / 0x10_0000 ≠ 0x05 by decide), hc _ (show Reg.CR_REG_RIGHTS 0 / 0x10_0000 ≠ 0x05 by decide),
    hc _ (show Reg.BG_CORE_CTRL 0 / 0x10_0000 ≠ 0x05 by decide), hc _ (show Reg.THERM_CFG / 0x10_0000 ≠ 0x05 by decide),
    hc _ (show Reg.SH_STATUS / 0x10_0000 ≠ 0x05 by decide), h6, hm, hl, hv, hr, false_and, and_false, if_false,
    Bool.false_eq_true]
  cases regAt off <;> rfl

/-- No lane has symbol lock after reset. -/
theorem laneStat_reset_unlocked (f : Fuses) (l : Nat) (hl : l < 16) :
    ((regReset f (Reg.LANE_STAT (6 + l / 8) (l % 8))).toNat).testBit 29 = false := by
  have ho : Reg.LANE_STAT (6 + l / 8) (l % 8) = 0x50_0100 + (6 + l / 8) * 0x1000 + l % 8 * 0x40 := rfl
  rw [regReset_lanes f _ (by rw [ho]; omega) (by rw [ho]; show ¬ (_ = 0x50_6000 ∨ _ = 0x50_7000); omega)]
  revert l
  decide +kernel

/-! ## EPR_LOCK, and domains that are awake -/

variable {s t : State}

/-- What Shale sees of EPR_LOCK depends on registers of the lanes, the domain of Shale and what it has seen. -/
theorem eprShown_congr (hr : ∀ off, off / 0x10_0000 = 0x05 → t.rd off = s.rd off) (hp : t.power = s.power)
    (hs : t.shale = s.shale) (h : s.eprShown) : t.eprShown := by
  intro l hl
  have hreg : ∀ p, p < 8 → ∀ n, n < 8 → t.rd (Reg.PORT_CFG p) = s.rd (Reg.PORT_CFG p) ∧
      t.rd (Reg.PORT_CTRL p) = s.rd (Reg.PORT_CTRL p) ∧ t.rd (Reg.PORT_STAT p) = s.rd (Reg.PORT_STAT p) ∧
      t.rd (Reg.LANE_STAT p n) = s.rd (Reg.LANE_STAT p n) := by
    intro p hp n hn
    refine ⟨hr _ ?_, hr _ ?_, hr _ ?_, hr _ ?_⟩
    · show (0x50_0000 + p * 0x1000) / 0x10_0000 = 0x05; omega
    · show (0x50_0004 + p * 0x1000) / 0x10_0000 = 0x05; omega
    · show (0x50_0008 + p * 0x1000) / 0x10_0000 = 0x05; omega
    · show (0x50_0100 + p * 0x1000 + n * 0x40) / 0x10_0000 = 0x05; omega
  obtain ⟨hcfg, hctrl, hstat, hlane⟩ := hreg (6 + l / 8) (by omega) (l % 8) (by omega)
  have hpll : t.rd Reg.LANES_PLL = s.rd Reg.LANES_PLL := hr _ (by decide)
  have hd : t.dom 106 = s.dom 106 := by rw [State.dom, hp]; rfl
  have he : t.eprLock l = s.eprLock l := by
    rw [State.eprLock, State.edgeOn, State.role, State.inTest, State.usable, State.mappedOut, fld_congr hcfg, fld_congr hcfg,
      flag_congr hctrl, fld_congr hstat, flag_congr hpll, hd, flag_congr hlane]
    rfl
  rw [he, hs]
  exact h l hl

theorem awake_congr (hp : t.power = s.power) (h : s.awake) : t.awake := by
  intro d; rw [State.dom, hp]; exact h d

variable (s)

/-! ## A row that writes one register -/

/-- A row that writes a register, at a device that is awake before and after it: the block takes the write, and the access
answers 0 (R25). -/
theorem writeRow_serves (init : Initiator) (off v : Nat) (h : s.serves init off) (h4 : off % 4 = 0) (hw : inWindow off = false)
    (ha : ((s.reach (targetOf off) (regDomain off)).writeReg init off (v % 2 ^ 32)).awake)
    (he : ((s.reach (targetOf off) (regDomain off)).writeReg init off (v % 2 ^ 32)).eprShown) :
    s.writeRow init off v = ((s.reach (targetOf off) (regDomain off)).writeReg init off (v % 2 ^ 32)).answer 0 := by
  have hf : ∀ u : State, (if inWindow off = true then u.windowAccess ⟨init, off, 32⟩ (some v) (some 0)
      else u.regMove ⟨init, off, 32⟩ (some v)) = (u.writeReg init off (v % 2 ^ 32)).answer 0 := by
    intro u
    rw [hw, if_neg (by decide)]
    simp [State.regMove, State.byWidth, h4]
  unfold State.writeRow State.csrAccess
  rw [toBlock_serves s ⟨init, off, 32⟩ _ h]
  · exact hf _
  · dsimp only
    rw [hf]
    exact awake_congr rfl ha
  · dsimp only
    rw [hf]
    exact eprShown_congr (fun _ _ => rfl) rfl rfl he

/-- The registers of DEVICE belong to no domain, and their ring target parks nothing: the access reaches them as it is. -/
theorem reach_device (off : Nat) (h : off / 0x10_0000 = 0) : s.reach (targetOf off) (regDomain off) = s := by
  have ht : targetOf off = 26 := by simp [targetOf, h]
  have hd : regDomain off = none := by simp [regDomain, h]
  have hl : s.livingDoms 26 = [] := by
    have : targetDoms 26 = [] := by decide
    simp [State.livingDoms, this]
  rw [ht, hd]
  simp [State.reach, State.parks, hl]

theorem writeReg_devRst (init : Initiator) (v : Nat) : s.writeReg init Reg.DEV_RST v = s.writeDevRst init v := by
  have ha : s.absentWindow Reg.DEV_RST = false := by
    simp only [State.absentWindow, Bool.or_eq_false_iff, decide_eq_false_iff_not]
    constructor <;> (show ¬ (_ ≤ 0x20 ∧ _); omega)
  have hr : (regAt Reg.DEV_RST).isNone = false := by decide +kernel
  simp only [State.writeReg, ha, hr, State.writeDevice, Bool.false_eq_true, if_false, false_or,
    show inDebugModule Reg.DEV_RST = false from rfl, if_true]
  rfl

end Sys2Proof.Machine

/-!
The resets of the card: what a COLD, a SYSTEM and a host reset leave and set (R371, R451-R454, R487).
-/

namespace Sys2Proof.Machine

variable (s : State)

/-! ## The domains restart (R440) -/

theorem dom_touch (d e : Nat) : (s.touch e).dom d = if d = e then { s.dom d with idle := s.now } else s.dom d := by
  have h := Map.get_set (fun _ => ({} : Domain)) s.power.doms e d { s.dom e with idle := s.now }
  refine Eq.trans h ?_
  split_ifs with he
  · rw [he]
  · rfl

theorem dom_foldl_touch (l : List Nat) (d : Nat) :
    (l.foldl State.touch s).dom d = if d ∈ l then { s.dom d with idle := s.now } else s.dom d := by
  induction l generalizing s with
  | nil => rfl
  | cons e l ih =>
    rw [List.foldl_cons, ih, dom_touch, show (s.touch e).now = s.now from rfl]
    by_cases h : d = e <;> by_cases h' : d ∈ l <;> simp [h, h']

theorem dom_restartIdle (d : Nat) :
    s.restartIdle.dom d = if d < 111 then { s.dom d with idle := s.now } else s.dom d := by
  rw [State.restartIdle, dom_foldl_touch]
  simp only [List.mem_range]

/-- Only the power domains change. -/
def State.Powered (s t : State) : Prop := t = { s with power := t.power }

theorem powered_restartIdle : s.Powered s.restartIdle :=
  foldl_rel State.Powered (fun _ => rfl) (fun _ _ _ h h' => Eq.trans h' (by rw [h])) State.touch (fun _ _ => rfl) _ s

/-! ## DEVICE_DOWN -/

/-- What a device sends as it goes down goes onto the record of what left it, and onto its lines. -/
theorem sendDeviceDown_sends (r : Nat) : ∃ m l, s.sendDeviceDown r = { s with tx := s.tx ++ m, lines := l } := by
  have h : ∀ (u : State) (a b : List TxItem),
      ∃ m l, (u.emit a).emit b = { u with tx := u.tx ++ m, lines := l } := fun u a b =>
    ⟨a ++ b, _, by rw [State.emit, State.emit, List.append_assoc]⟩
  exact h s _ _

/-! ## COLD reset (R452, R487) -/

/-- What a COLD reset of `s` leaves (R452, R487). -/
def State.ColdReset (s t : State) (straps : Straps) (low : Bool) : Prop :=
  t = { State.reset with
    pending := s.pending, ddr := s.ddr, tx := t.tx, lines := t.lines, freeCount := s.freeCount
    fuses := { s.dbg.fuses.getD s.fuses with straps := straps }
    crypt := s.crypt.stored
    dbg := { ir := s.dbg.ir, boundary := s.dbg.boundary }
    host := { perst := s.host.perst, released := if s.host.perst then none else some 0 }
    boot := { low := low } }

theorem coldRstN_resets (straps : Straps) :
    ∃ t m, exec (.coldRstN straps) s = .next t ∧ s.ColdReset t straps s.boot.low ∧ t.tx = s.tx ++ m := by
  obtain ⟨m, l, h⟩ := sendDeviceDown_sends s 0
  refine ⟨_, m, rfl, ?_, ?_⟩ <;> rw [h]
  · rfl
  · rfl

/-- A row of the supply monitor that changes whether a rail is low, or finds one low, is a COLD reset (R487). -/
theorem supplyMonitor_resets (vaux vcore vlane : Nat) (straps : Straps) (low : Bool)
    (hl : low = (decide (vaux < 1620) || decide (vcore < 500) || decide (vlane < 780)))
    (h : low = true ∨ s.boot.low = true) :
    ∃ t, exec (.supplyMonitor vaux vcore vlane straps) s = .next t ∧ s.ColdReset t straps low ∧ t.tx = s.tx := by
  refine ⟨{ s.coldReset straps with boot := { (s.coldReset straps).boot with low := low } }, ?_, rfl, rfl⟩
  have hn : ¬ (low = s.boot.low ∧ (!low) = true) := by
    rcases h with h | h <;> rw [h] <;> simp
  show (if _ then _ else _) = _
  rw [← hl, if_neg hn]

/-! ## SYSTEM reset (R452, R454) -/

/-- What a SYSTEM reset of `s` leaves (R452). -/
def State.SystemReset (s t : State) (cause : Nat) (straps : Straps) : Prop :=
  t.boot = { inReset := true, cause := cause } ∧ t.fuses = { s.fuses with straps := straps } ∧
    t.ddr = s.ddr ∧ (s.boot.announce = none → t.faults = s.faults) ∧
    t.time = { s.time with servoA := t.time.servoA, servoB := t.time.servoB } ∧ t.pending = s.pending ∧
    t.host = { s.host with keep := [] } ∧
    t.dbg = { ir := s.dbg.ir, boundary := s.dbg.boundary, fuses := s.dbg.fuses } ∧
    t.rc = State.reset.rc ∧ t.clusters = [] ∧ t.imem = [] ∧ t.banks = [] ∧ t.inbox = [] ∧ t.dmb = [] ∧ t.acc = [] ∧
    t.shale = State.reset.shale ∧ t.crypt.keys = [] ∧ t.spad = State.reset.spad ∧ t.links = [] ∧
    (∀ off, t.rd off = if off / 0x10_0000 = 0x0A ∨ off / 0x10_0000 = 0x12 ∨ off = Reg.BAR2_CTRL then s.rd off
      else (regReset t.fuses off).toNat) ∧
    (∀ d, d < 111 → t.dom d = { level := 0, idle := s.now, goal := none })

/-- A register after a SYSTEM reset: as it was where the reset keeps it, else its reset value. -/
theorem rd_systemReset (cause : Nat) (straps : Straps) (off : Nat) :
    (s.systemReset cause straps).rd off =
      if off / 0x10_0000 = 0x0A ∨ off / 0x10_0000 = 0x12 ∨ off = Reg.BAR2_CTRL then s.rd off
      else (regReset { s.fuses with straps := straps } off).toNat := by
  unfold State.systemReset
  rw [rd_congr (by rw [powered_restartIdle]) (by rw [powered_restartIdle])]
  simp only [State.rd]
  rw [Map.get_filter _ _ fun o =>
    decide (o / 0x10_0000 = 0x0A) || decide (o / 0x10_0000 = 0x12) || decide (o = Reg.BAR2_CTRL)]
  simp only [Bool.or_eq_true, decide_eq_true_eq, or_assoc]
  split_ifs with h
  · rw [Map.get_congr]
    refine regReset_straps _ _ _ ?_
    rcases h with h | h | h
    · omega
    · omega
    · rw [h]; decide
  · rfl

theorem dom_systemReset (cause : Nat) (straps : Straps) (d : Nat) :
    (s.systemReset cause straps).dom d = if d < 111 then { level := 0, idle := s.now, goal := none } else {} := by
  unfold State.systemReset
  rw [dom_restartIdle]
  rfl

theorem systemReset_resets (cause : Nat) (straps : Straps) : s.SystemReset (s.systemReset cause straps) cause straps := by
  have hrd := rd_systemReset s cause straps
  have hdom := dom_systemReset s cause straps
  generalize hu : s.systemReset cause straps = u at hrd hdom ⊢
  rw [State.systemReset, powered_restartIdle] at hu
  subst hu
  refine ⟨rfl, rfl, rfl, fun ha => ?_, rfl, rfl, rfl, rfl, rfl, rfl, rfl, rfl, rfl, rfl, rfl, rfl, rfl, rfl, rfl, hrd,
    fun d hd => (hdom d).trans (if_pos hd)⟩
  show s.announced.faults = s.faults
  rw [State.announced, ha]

/-- After a SYSTEM reset every domain is in RUN. -/
theorem systemReset_awake (cause : Nat) (straps : Straps) : (s.systemReset cause straps).awake := by
  intro d
  rw [dom_systemReset]
  split_ifs <;> exact ⟨rfl, rfl⟩

/-- After a SYSTEM reset no lane has symbol lock, and Shale has been shown none. -/
theorem systemReset_eprShown (cause : Nat) (straps : Straps) : (s.systemReset cause straps).eprShown := by
  intro l hl
  have hsh : (s.systemReset cause straps).shale = {} := by rw [State.systemReset, powered_restartIdle]
  have hf : (s.systemReset cause straps).flag (Reg.LANE_STAT (6 + l / 8) (l % 8)) 29 = false := by
    rw [State.flag, rd_systemReset, if_neg]
    · exact laneStat_reset_unlocked _ l hl
    · show ¬ ((0x50_0100 + (6 + l / 8) * 0x1000 + l % 8 * 0x40) / 0x10_0000 = 0x0A ∨
        (0x50_0100 + (6 + l / 8) * 0x1000 + l % 8 * 0x40) / 0x10_0000 = 0x12 ∨
        0x50_0100 + (6 + l / 8) * 0x1000 + l % 8 * 0x40 = 0x10)
      omega
  rw [State.eprLock, hf, hsh, Bool.and_false]
  rfl

/-- What a SYSTEM reset leaves does not depend on what has left the device, nor at the lines. -/
theorem SystemReset.of_sent {s t : State} {cause : Nat} {straps : Straps} {x : List TxItem} {l : Map Line}
    (h : State.SystemReset { s with tx := x, lines := l } t cause straps) : s.SystemReset t cause straps := h

/-- Nor does it matter what the access that caused it answers. -/
theorem SystemReset.answer {s t : State} {cause : Nat} {straps : Straps} (h : s.SystemReset t cause straps) (v : Nat) :
    s.SystemReset (t.answer v) cause straps := h

theorem sendDeviceDown_systemReset_resets (r cause : Nat) (straps : Straps) :
    s.SystemReset ((s.sendDeviceDown r).systemReset cause straps) cause straps := by
  obtain ⟨m, l, h⟩ := sendDeviceDown_sends s r
  rw [h]
  exact SystemReset.of_sent (systemReset_resets _ cause straps)

/-! ## DEV_RST (R454) -/

theorem bits_mod (v l w k : Nat) (h : l + w ≤ k) : bits (v % 2 ^ k) l w = bits v l w := by
  refine Nat.eq_of_testBit_eq fun i => ?_
  rw [testBit_bits, testBit_bits, Nat.testBit_mod_two_pow]
  by_cases hi : i < w
  · rw [decide_eq_true (show l + i < k by omega), Bool.true_and]
  · simp [hi]

theorem writeDevRst_resets (init : Initiator) (v : Nat) (hr : s.boot.inReset = false) (hk : bits v 24 8 = 0xA5)
    (h0 : v.testBit 0 = true) (hi : init = .core 0 ∨ init = .hostMmio) (hz : bits v 1 23 = 0) :
    s.writeDevRst init v = (s.sendDeviceDown 0).systemReset 2 s.fuses.straps := by
  simp [State.writeDevRst, hr, hk, h0, hz, isWarden, hi]

theorem writeDevRst_refuses (init : Initiator) (v : Nat) (hr : s.boot.inReset = false)
    (h : bits v 24 8 ≠ 0xA5 ∨ v.testBit 0 = false ∨ (init ≠ .core 0 ∧ init ≠ .hostMmio)) :
    s.writeDevRst init v = s.reject bRunctl 0x1009 Reg.DEV_RST := by
  have hn : ¬ (bits v 24 8 = 0xA5 ∧ v.testBit 0 = true ∧ (isWarden init = true ∨ init = .hostMmio)) := by
    rintro ⟨hk, h0, hi⟩
    rcases h with h | h | ⟨hc, hm⟩
    · exact h hk
    · rw [h] at h0; cases h0
    · exact hi.elim (fun h => hc (of_decide_eq_true h)) hm
  simp only [State.writeDevRst, hr, Bool.false_eq_true, if_false]
  rw [if_neg hn]

/-- A write of DEV_RST that leaves the device awake. -/
theorem exec_devRst (init : Initiator) (v : Nat) (h : s.serves init Reg.DEV_RST)
    (ha : (s.writeDevRst init (v % 2 ^ 32)).awake) (he : (s.writeDevRst init (v % 2 ^ 32)).eprShown) :
    exec (.devRst init v) s = .next ((s.writeDevRst init (v % 2 ^ 32)).answer 0) := by
  have hw : (s.reach (targetOf Reg.DEV_RST) (regDomain Reg.DEV_RST)).writeReg init Reg.DEV_RST (v % 2 ^ 32) =
      s.writeDevRst init (v % 2 ^ 32) := by rw [reach_device s _ (by decide), writeReg_devRst]
  show Host.Outcome.next (s.writeRow init Reg.DEV_RST v) = _
  rw [writeRow_serves s init Reg.DEV_RST v h (by decide) (by decide) (by rw [hw]; exact ha) (by rw [hw]; exact he), hw]

theorem devRst_resets (init : Initiator) (v : Nat) (h : s.serves init Reg.DEV_RST) (hr : s.boot.inReset = false)
    (hk : bits v 24 8 = 0xA5) (h0 : v.testBit 0 = true) (hi : init = .core 0 ∨ init = .hostMmio) (hz : bits v 1 23 = 0) :
    ∃ t, exec (.devRst init v) s = .next t ∧ s.SystemReset t 2 s.fuses.straps := by
  have hw := writeDevRst_resets s init (v % 2 ^ 32) hr (by rwa [bits_mod v 24 8 32 (by decide)])
    (by rw [Nat.testBit_mod_two_pow, h0]; rfl) hi (by rwa [bits_mod v 1 23 32 (by decide)])
  refine ⟨_, exec_devRst s init v h (by rw [hw]; exact systemReset_awake _ _ _)
    (by rw [hw]; exact systemReset_eprShown _ _ _), ?_⟩
  rw [hw]
  exact SystemReset.answer (sendDeviceDown_systemReset_resets s 0 2 s.fuses.straps) 0

theorem devRst_refuses (init : Initiator) (v : Nat) (h : s.serves init Reg.DEV_RST) (hr : s.boot.inReset = false)
    (hn : bits v 24 8 ≠ 0xA5 ∨ v.testBit 0 = false ∨ (init ≠ .core 0 ∧ init ≠ .hostMmio)) :
    ∃ t, exec (.devRst init v) s = .next t ∧ s.keepsRegs t [] ∧
      t = { s.atBlock Reg.DEV_RST with csr := t.csr, faults := t.faults, tx := t.tx } := by
  have hw := writeDevRst_refuses s init (v % 2 ^ 32) hr (by
    rw [bits_mod v 24 8 32 (by decide), Nat.testBit_mod_two_pow]
    exact hn)
  obtain ⟨-, -, haw, hep⟩ := id h
  have hb : ∀ off, off / 0x10_0000 = 0x05 → (s.reject bRunctl 0x1009 Reg.DEV_RST).rd off = s.rd off := fun off ho =>
    rd_reject s _ _ _ off (not_mem_noteRegs (by omega))
  refine ⟨_, exec_devRst s init v h (by rw [hw]; exact awake_congr (reject_power s _ _ _) haw)
    (by rw [hw]; exact eprShown_congr hb (reject_power s _ _ _) (reject_shale s _ _ _) hep), ?_, ?_⟩ <;> rw [hw]
  · exact fun off _ ho => rd_reject s _ _ _ off ho
  · rw [State.atBlock, reach_device s _ (by decide)]
    exact congrArg (State.answer · 0) (noted_reject s bRunctl 0x1009 Reg.DEV_RST)

end Sys2Proof.Machine

/-!
The resets by PERST_N and by FLR, and the LOCK that follows PERST_N's deassertion (R371, R452, R453).
-/

namespace Sys2Proof.Machine

variable (s : State)

/-! ## What a HOST and an FLR reset share -/

/-- EN of the DMA channels of a list is cleared, and the other registers stay. -/
theorem flag_stopDma (l : List Nat) (k : Nat) :
    (l.foldl (fun (s : State) k => s.setFlag (Reg.DMA_CFG k) 31 false) s).flag (Reg.DMA_CFG k) 31 =
      (!l.contains k && s.flag (Reg.DMA_CFG k) 31) := by
  induction l generalizing s with
  | nil => simp
  | cons j l ih =>
    rw [List.foldl_cons, ih]
    by_cases h : k = j
    · rw [h, flag_setFlag_same _ _ _ _ (by decide)]; simp
    · have ho : Reg.DMA_CFG k ≠ Reg.DMA_CFG j := by
        show 0x10_2008 + k * 0x40 ≠ 0x10_2008 + j * 0x40; omega
      rw [flag_congr (rd_setFlag_other s _ _ _ _ ho)]
      simp [h]

theorem rd_stopDma (l : List Nat) (off : Nat) (h : ∀ k ∈ l, off ≠ Reg.DMA_CFG k) :
    (l.foldl (fun (s : State) k => s.setFlag (Reg.DMA_CFG k) 31 false) s).rd off = s.rd off := by
  induction l generalizing s with
  | nil => rfl
  | cons j l ih =>
    rw [List.foldl_cons, ih _ fun k hk => h k (List.mem_cons_of_mem _ hk), rd_setFlag_other s _ _ _ _ (h j List.mem_cons_self)]

/-- The device with the EN of every DMA channel cleared. -/
def State.dmaStopped (s : State) : State :=
  (List.range 8).foldl (fun (s : State) k => s.setFlag (Reg.DMA_CFG k) 31 false) s

/-- Only registers change. -/
def State.Registered (s t : State) : Prop := t = { s with csr := t.csr }

theorem State.Registered.trans {s t u : State} (h : s.Registered t) (h' : t.Registered u) : s.Registered u :=
  Eq.trans h' (by rw [h])

theorem registered_setFlag (off i : Nat) (b : Bool) : s.Registered (s.setFlag off i b) := rfl

theorem registered_dmaStopped : s.Registered s.dmaStopped := by
  unfold State.dmaStopped
  exact foldl_rel State.Registered (fun _ => rfl) (fun _ _ _ => State.Registered.trans) _
    (fun t k => registered_setFlag t (Reg.DMA_CFG k) 31 false) (List.range 8) s

/-- The host link after a reset of the function: the host's settings are gone (R452; log 100). -/
def HostLink.functionReset (h : HostLink) : HostLink :=
  { h with d3hot := false, maxPayload := 128, maxRead := 512, ecrcGen := false, ecrcCheck := false, aspmL1 := false, aerAbort := false }

/-- The cores as a host reset leaves them: the host reset epoch advances, but not in a COLD or SYSTEM reset (R371). -/
def State.hostEpochNext (s : State) : Badger :=
  if s.boot.begun = true ∧ s.boot.inReset = false then { s.badger with hostEpoch := (s.badger.hostEpoch + 1) % 256 }
  else s.badger

theorem hostReset_eq : s.hostReset = { s with
    csr := s.dmaStopped.csr.without 0x10_8000 0x10_A000, host := s.host.functionReset, badger := s.hostEpochNext } := by
  have hn := registered_dmaStopped s
  simp only [State.hostReset]
  rw [show (List.range 8).foldl (fun (s : State) k => s.setFlag (Reg.DMA_CFG k) 31 false) s = s.dmaStopped from rfl]
  generalize s.dmaStopped = u at hn ⊢
  rw [hn]
  simp only [State.hostEpochNext, Bool.not_eq_true']
  split <;> rfl

/-- A register after a host reset: its reset value in the MSI-X table and its pending bits, else as with the DMA stopped. -/
theorem rd_hostReset (off : Nat) :
    s.hostReset.rd off = if 0x10_8000 ≤ off ∧ off < 0x10_A000 then (regReset s.fuses off).toNat else s.dmaStopped.rd off := by
  have hf : s.dmaStopped.fuses = s.fuses := by rw [registered_dmaStopped]
  rw [hostReset_eq]
  simp only [State.rd, Map.get_without, hf]
  split_ifs <;> rfl

/-- What a HOST and an FLR reset of `s` share (R371, R452). -/
def State.HostReset (s t : State) : Prop :=
  (∀ k, k < 8 → t.flag (Reg.DMA_CFG k) 31 = false) ∧
    (∀ v j, v < 64 → j < 4 → t.rd (Reg.MSIX_TABLE v j) = (regReset s.fuses (Reg.MSIX_TABLE v j)).toNat) ∧
    t.badger = (if s.boot.begun = true ∧ s.boot.inReset = false
      then { s.badger with hostEpoch := (s.badger.hostEpoch + 1) % 256 } else s.badger) ∧ s.keepsMemories t ∧ t.rc = s.rc ∧
    t.time = s.time

theorem hostReset_resets : s.HostReset s.hostReset := by
  refine ⟨fun k hk => ?_, fun v j hv hj => ?_, by rw [hostReset_eq]; rfl, ?_, by rw [hostReset_eq], by rw [hostReset_eq]⟩
  · have ho : ¬ (0x10_8000 ≤ Reg.DMA_CFG k ∧ Reg.DMA_CFG k < 0x10_A000) := by
      show ¬ (0x10_8000 ≤ 0x10_2008 + k * 0x40 ∧ 0x10_2008 + k * 0x40 < 0x10_A000); omega
    rw [flag_congr ((rd_hostReset s _).trans (if_neg ho)), State.dmaStopped, flag_stopDma]
    simp [List.mem_range.mpr hk]
  · rw [rd_hostReset, if_pos]
    show 0x10_8000 ≤ 0x10_8000 + v * 0x10 + j * 0x4 ∧ 0x10_8000 + v * 0x10 + j * 0x4 < 0x10_A000
    omega
  · rw [hostReset_eq]; exact ⟨rfl, rfl, rfl, rfl, rfl, rfl, rfl, rfl, rfl, rfl⟩

/-- BAR2_CTRL is none of the registers of the function's reset. -/
theorem rd_hostReset_bar2 : s.hostReset.rd Reg.BAR2_CTRL = s.rd Reg.BAR2_CTRL := by
  rw [rd_hostReset, if_neg (by decide)]
  refine rd_stopDma s _ _ fun k _ => ?_
  show 0x10 ≠ 0x10_2008 + k * 0x40
  omega

/-- What follows a host reset may be what records and causes change, and the host link. -/
theorem HostReset.trans_host {s u t : State} (h : s.HostReset u)
    (hr : ∀ off, off / 0x10_0000 = 0x01 → off < 0x10_9000 → t.rd off = u.rd off)
    (ht : t = { u with csr := t.csr, faults := t.faults, tx := t.tx, host := t.host }) : s.HostReset t := by
  obtain ⟨hdma, hmsix, hbg, hmem, hrc, htime⟩ := h
  have hk : t.badger = u.badger ∧ u.keepsMemories t ∧ t.rc = u.rc ∧ t.time = u.time := by
    rw [ht]; exact ⟨rfl, ⟨rfl, rfl, rfl, rfl, rfl, rfl, rfl, rfl, rfl, rfl⟩, rfl, rfl⟩
  obtain ⟨hb, ⟨m1, m2, m3, m4, m5, m6, m7, m8, m9, m10⟩, hc, hti⟩ := hk
  obtain ⟨n1, n2, n3, n4, n5, n6, n7, n8, n9, n10⟩ := hmem
  refine ⟨fun k hk => ?_, fun v j hv hj => ?_, hb.trans hbg, ⟨m1.trans n1, m2.trans n2, m3.trans n3, m4.trans n4, m5.trans n5,
    m6.trans n6, m7.trans n7, m8.trans n8, m9.trans n9, m10.trans n10⟩, hc.trans hrc, hti.trans htime⟩
  · have h1 : Reg.DMA_CFG k / 0x10_0000 = 0x01 := by show (0x10_2008 + k * 0x40) / 0x10_0000 = 0x01; omega
    have h2 : Reg.DMA_CFG k < 0x10_9000 := by show 0x10_2008 + k * 0x40 < 0x10_9000; omega
    rw [flag_congr (hr _ h1 h2)]
    exact hdma k hk
  · have h1 : Reg.MSIX_TABLE v j / 0x10_0000 = 0x01 := by
      show (0x10_8000 + v * 0x10 + j * 0x4) / 0x10_0000 = 0x01; omega
    have h2 : Reg.MSIX_TABLE v j < 0x10_9000 := by
      show 0x10_8000 + v * 0x10 + j * 0x4 < 0x10_9000; omega
    rw [hr _ h1 h2]
    exact hmsix v j hv hj

/-- A host reset that follows a record is a host reset of the state before it. -/
theorem HostReset.after_noted {s u t : State} (hn : s.Noted u) (h : u.HostReset t) : s.HostReset t := by
  rw [hn] at h; exact h

/-! ## PERST_N (R452, R453) -/

/-- The link goes down with its record and its cause, where it was up (R234). -/
def State.linkLost (s : State) : State := if s.host.up then (s.record cLink bRunctl 0x060C 0).raise 2 5 else s

theorem noted_linkLost : s.Noted s.linkLost := by
  unfold State.linkLost
  split
  · exact (noted_record s _ _ _ _).trans (noted_raise _ _ _)
  · rfl

theorem exec_perstN_asserted (h : s.host.perst = false) :
    exec (.perstN true) s = .next { s.linkLost.hostReset with
      csr := s.linkLost.hostReset.csr.without Reg.BAR2_CTRL (Reg.BAR2_CTRL + 1)
      host := { s.linkLost.hostReset.host with up := false, width := 0, rate := 0, perst := true, released := none } } := by
  show execPerstN true s = _
  simp only [execPerstN, h, Bool.true_eq_false, if_false, if_true, State.linkLost]

theorem perstN_asserted (h : s.host.perst = false) :
    ∃ t, exec (.perstN true) s = .next t ∧ s.HostReset t ∧
      t.rd Reg.BAR2_CTRL = (regReset s.fuses Reg.BAR2_CTRL).toNat ∧
      t.host = { s.host with
        up := false, width := 0, rate := 0, d3hot := false, perst := true, released := none, maxPayload := 128
        maxRead := 512, ecrcGen := false, ecrcCheck := false, aspmL1 := false, aerAbort := false } := by
  have hn := noted_linkLost s
  refine ⟨_, exec_perstN_asserted s h, ?_⟩
  generalize s.linkLost = u at hn ⊢
  have hf : u.hostReset.fuses = s.fuses := by rw [hostReset_eq, hn]
  refine ⟨HostReset.trans_host (HostReset.after_noted hn (hostReset_resets u)) (fun off h1 h2 => ?_) rfl, ?_, ?_⟩
  · simp only [State.rd, Map.get_without]
    rw [if_neg]
    show ¬ (0x10 ≤ off ∧ off < 0x11)
    omega
  · simp only [State.rd, Map.get_without, hf]
    rw [if_pos (by decide)]
  · rw [hostReset_eq, hn]; rfl

theorem perstN_deasserted (h : s.host.perst = true) :
    ∃ t, exec (.perstN false) s = .next t ∧ t.flag Reg.DEV_INT_STAT 1 = true ∧
      t = { s with csr := t.csr, faults := t.faults, tx := t.tx
                   host := { s.host with perst := false, released := some s.now } } ∧
      s.keepsRegs t [Reg.DEV_INT_STAT] := by
  have he : exec (.perstN false) s =
      .next ((({ s with host := { s.host with perst := false, released := some s.now } } : State).record cInfo bRunctl
        0x1001 3).raise 19 1) := by
    show execPerstN false s = _
    simp only [execPerstN, h, Bool.false_eq_true, if_false]
  refine ⟨_, he, flag_raise _ 19 1 Reg.DEV_INT_STAT rfl (by decide) (by decide),
    (noted_record _ _ _ _ _).trans (noted_raise _ _ _), fun off ho hon => ?_⟩
  have hi : intStatOf 19 ≠ some off := fun h => ho (by rw [← Option.some.inj h]; exact List.mem_singleton_self _)
  exact (rd_raise _ 19 1 off hon hi).trans (rd_record _ _ _ _ _ off hon)

/-! ## FLR (R452) -/

theorem flr_up (h : s.host.up = true) :
    ∃ t, exec .flr s = .next t ∧ s.HostReset t ∧ t.flag Reg.DEV_INT_STAT 2 = true ∧
      t.host = { s.host with
        d3hot := false, maxPayload := 128, maxRead := 512, ecrcGen := false, ecrcCheck := false, aspmL1 := false
        aerAbort := false } ∧ t.rd Reg.BAR2_CTRL = s.rd Reg.BAR2_CTRL := by
  have he : exec .flr s = .next ((s.hostReset.record cInfo bRunctl 0x1001 4).raise 19 2) := by
    show execFlr s = _
    simp [execFlr, h]
  have hrd : ∀ off, off ∉ noteRegs → off ≠ Reg.DEV_INT_STAT →
      ((s.hostReset.record cInfo bRunctl 0x1001 4).raise 19 2).rd off = s.hostReset.rd off := fun off hon ho =>
    (rd_raise _ 19 2 off hon fun e => ho (Option.some.inj e).symm).trans (rd_record _ _ _ _ _ off hon)
  have hn : s.hostReset.Noted ((s.hostReset.record cInfo bRunctl 0x1001 4).raise 19 2) :=
    (noted_record _ _ _ _ _).trans (noted_raise _ _ _)
  refine ⟨_, he, HostReset.trans_host (hostReset_resets s) (fun off h1 h2 => hrd off (not_mem_noteRegs (.inl h2)) ?_) ?_,
    flag_raise _ 19 2 Reg.DEV_INT_STAT rfl (by decide) (by decide), ?_,
    (hrd Reg.BAR2_CTRL (by decide) (by decide)).trans (rd_hostReset_bar2 s)⟩
  · show off ≠ 0x2C; omega
  · rw [raise_host, record_host]; exact hn
  · rw [raise_host, record_host, hostReset_eq]; rfl

/-! ## LOCK_TIMEOUT (R453) -/

theorem lockTimeout_locks (at_ : Nat) (hr : s.host.released = some at_) (ht : at_ + 80000000 ≤ s.now)
    (hl : s.flag Reg.BAR2_CTRL 31 = false) :
    ∃ t, exec .lockTimeout s = .next t ∧ t = { s with csr := t.csr } ∧ t.flag Reg.BAR2_CTRL 31 = true ∧
      t.fld Reg.BAR2_CTRL 0 6 = s.fld Reg.BAR2_CTRL 0 6 ∧ s.keepsRegs t [Reg.BAR2_CTRL] := by
  have he : exec .lockTimeout s = .next (s.setFlag Reg.BAR2_CTRL 31 true) := by
    show execLockTimeout s = _
    simp [execLockTimeout, hr, hl, Nat.not_lt.mpr ht]
  exact ⟨_, he, registered_setFlag s _ 31 true, flag_setFlag_same s _ 31 true (by decide),
    fld_setFlag_apart s _ 31 0 6 true (by decide) (.inl (by decide)), fun off ho _ => rd_setFlag_other s _ _ _ _ (by simpa using ho)⟩

/-- Settles O53: each source by the reset it performs: COLD_RST_N and the supply monitor a COLD reset, SYS_RST_N and DEV_RST a
SYSTEM reset, PERST_N and FLR a host reset. -/
theorem resetsKeepWhatTheirScopeLeaves : Obligations.ResetsKeepWhatTheirScopeLeaves := by
  unfold Obligations.ResetsKeepWhatTheirScopeLeaves
  refine ⟨fun s straps => ⟨coldRstN_resets s straps, ⟨_, rfl, sendDeviceDown_systemReset_resets s 0 1 straps⟩,
    fun init v hs hr => ⟨fun hk h0 hi hz => devRst_resets s init v hs hr hk h0 hi hz, fun hn => devRst_refuses s init v hs hr hn⟩,
    fun vaux vcore vlane hv => ?_, fun vaux vcore vlane h1 h2 h3 hlow => ?_⟩,
    fun s => ⟨perstN_asserted s, perstN_deasserted s, flr_up s, lockTimeout_locks s⟩⟩
  · exact supplyMonitor_resets s vaux vcore vlane straps true (by simpa [or_assoc] using hv) (.inl rfl)
  · exact supplyMonitor_resets s vaux vcore vlane straps false
      (by simp [Nat.not_lt.mpr h1, Nat.not_lt.mpr h2, Nat.not_lt.mpr h3]) (.inr hlow)

end Sys2Proof.Machine

/-!
Sparse stores written byte by byte, and the number that a run of bytes spells.
-/

namespace Sys2Proof.Map

variable {α : Type} (d : Nat → α)

/-! ## Reads of a store made of parts -/

/-- Two stores one after the other, the keys of the first below those of the second. -/
theorem get_append (a b : Map α) (mid k : Nat) (ha : ∀ e ∈ a, e.1 < mid) (hb : ∀ e ∈ b, mid ≤ e.1) :
    Map.get d (a ++ b) k = if k < mid then a.get d k else b.get d k := by
  have hout : ∀ m : Map α, (∀ e ∈ m, k ≠ e.1) → m.get d k = d k := by
    intro m
    induction m with
    | nil => exact fun _ => rfl
    | cons e m ih =>
      intro h
      rw [get, if_neg (h e List.mem_cons_self)]
      exact ih fun f hf => h f (List.mem_cons_of_mem _ hf)
  induction a with
  | nil =>
    rw [List.nil_append]
    split_ifs with h
    · exact hout b fun e he hk => by have := hb e he; omega
    · rfl
  | cons e a ih =>
    have he := ha e List.mem_cons_self
    rw [List.cons_append, get, get, ih fun f hf => ha f (List.mem_cons_of_mem _ hf)]
    split_ifs with h1 h2 h2
    · rfl
    · omega
    · rfl
    · rfl

/-- A store whose keys have all been lowered by `a`. -/
theorem get_shift_down (v : α) (m : Map α) (a k : Nat) (h : ∀ e ∈ m, a ≤ e.1) :
    Map.get (fun _ => v) (m.map fun e => (e.1 - a, e.2)) k = m.get (fun _ => v) (a + k) := by
  induction m with
  | nil => rfl
  | cons e m ih =>
    have he := h e List.mem_cons_self
    rw [List.map_cons, get, get, ih fun f hf => h f (List.mem_cons_of_mem _ hf)]
    exact if_congr (by omega) rfl rfl

/-- A store whose keys have all been raised by `a`. -/
theorem get_shift_up (v : α) (m : Map α) (a k : Nat) :
    Map.get (fun _ => v) (m.map fun e => (e.1 + a, e.2)) k = if a ≤ k then m.get (fun _ => v) (k - a) else v := by
  induction m with
  | nil => simp [get]
  | cons e m ih =>
    rw [List.map_cons, get, get, ih]
    by_cases h : a ≤ k
    · rw [if_pos h, if_pos h]; exact if_congr (by omega) rfl rfl
    · rw [if_neg h, if_neg (by omega), if_neg h]

/-! ## Reads after the writes of a list -/

variable [DecidableEq α]

theorem setAll_append (m : Map α) (l l' : List (Nat × α)) : setAll d m (l ++ l') = setAll d (setAll d m l) l' :=
  List.foldl_append

/-- What a key reads after the writes of a list depends on what it read before. -/
theorem get_setAll_congr (l : List (Nat × α)) (m m' : Map α) (k : Nat) (h : m.get d k = m'.get d k) :
    (setAll d m l).get d k = (setAll d m' l).get d k := by
  induction l generalizing m m' with
  | nil => exact h
  | cons e l ih => exact ih _ _ (by rw [get_set, get_set, h])

/-- A key that the list writes reads the same whatever the store held. -/
theorem get_setAll_of_mem (l : List (Nat × α)) (m m' : Map α) (k : Nat) (h : ∃ e ∈ l, e.1 = k) :
    (setAll d m l).get d k = (setAll d m' l).get d k := by
  induction l generalizing m m' with
  | nil => obtain ⟨_, he, _⟩ := h; cases he
  | cons e l ih =>
    by_cases hk : e.1 = k
    · refine get_setAll_congr d l _ _ k ?_
      show (set d m e.1 e.2).get d k = (set d m' e.1 e.2).get d k
      rw [hk, get_set_same, get_set_same]
    · obtain ⟨f, hf, hfk⟩ := h
      rcases List.mem_cons.1 hf with rfl | hf
      · exact absurd hfk hk
      · exact ih _ _ ⟨f, hf, hfk⟩

/-- A key that the list does not write stays. -/
theorem get_setAll_of_not_mem (l : List (Nat × α)) (m : Map α) (k : Nat) (h : ∀ e ∈ l, e.1 ≠ k) :
    (setAll d m l).get d k = m.get d k := by
  induction l generalizing m with
  | nil => rfl
  | cons e l ih =>
    refine (ih _ fun f hf => h f (List.mem_cons_of_mem _ hf)).trans ?_
    exact get_set_other d m e.1 k e.2 (h e List.mem_cons_self).symm

/-- Writing the same list again changes nothing. -/
theorem get_setAll_again (l : List (Nat × α)) (m : Map α) (k : Nat) :
    (setAll d (setAll d m l) l).get d k = (setAll d m l).get d k := by
  by_cases h : ∃ e ∈ l, e.1 = k
  · exact get_setAll_of_mem d l _ _ k h
  · exact get_setAll_of_not_mem d l _ k fun e he hk => h ⟨e, he, hk⟩

/-- The writes of a list to the keys that `p` picks. -/
theorem get_setAll_filter (p : Nat → Bool) (l : List (Nat × α)) (m : Map α) (k : Nat) :
    (setAll d m (l.filter fun e => p e.1)).get d k = if p k then (setAll d m l).get d k else m.get d k := by
  induction l generalizing m with
  | nil => simp [setAll]
  | cons e l ih =>
    have hcons : setAll d m (e :: l) = setAll d (set d m e.1 e.2) l := rfl
    by_cases hp : p e.1 = true
    · rw [List.filter_cons_of_pos (by exact hp), hcons]
      refine (ih (set d m e.1 e.2)).trans ?_
      split_ifs with hk
      · rfl
      · exact get_set_other d m e.1 k e.2 fun h => hk (h ▸ hp)
    · rw [List.filter_cons_of_neg (by exact hp), ih, hcons]
      split_ifs with hk
      · exact get_setAll_congr d l _ _ k (get_set_other d m e.1 k e.2 fun h => hp (h ▸ hk)).symm
      · rfl

/-- The writes of a list made in turns: in each turn those to the keys that `f` sends to one value. -/
theorem get_setAll_turns (f : Nat → Nat) (l : List (Nat × α)) (ws : List Nat) (m : Map α) (k : Nat) :
    (ws.foldl (fun m w => setAll d m (l.filter fun e => decide (f e.1 = w))) m).get d k =
      if f k ∈ ws then (setAll d m l).get d k else m.get d k := by
  induction ws generalizing m with
  | nil => simp
  | cons w ws ih =>
    have hw := get_setAll_filter d (fun k => decide (f k = w)) l m k
    rw [List.foldl_cons, ih]
    by_cases hk : f k = w
    · rw [decide_eq_true hk, if_pos rfl] at hw
      rw [if_pos (List.mem_cons.2 (.inl hk)), get_setAll_congr d l _ _ k hw, get_setAll_again, hw, ite_self]
    · rw [decide_eq_false hk, if_neg Bool.false_ne_true] at hw
      rw [get_setAll_congr d l _ _ k hw, hw]
      exact if_congr (by simp [hk]) rfl rfl

/-- The writes of a run of keys from `base` up. -/
theorem get_setAll_run (g : Nat → α) (n base : Nat) (m : Map α) (k : Nat) :
    (setAll d m ((List.range n).map fun j => (base + j, g j))).get d k =
      if base ≤ k ∧ k < base + n then g (k - base) else m.get d k := by
  induction n with
  | zero => rw [if_neg (by omega)]; rfl
  | succ n ih =>
    rw [List.range_succ, List.map_append, setAll_append]
    refine (get_set d _ (base + n) k (g n)).trans ?_
    split_ifs with h1 h2 h2
    · rw [h1, Nat.add_sub_cancel_left]
    · omega
    · rw [ih, if_pos (by omega)]
    · rw [ih, if_neg (by omega)]

end Sys2Proof.Map

namespace Sys2Proof.Machine

/-! ## Bytes and the number they spell -/

theorem natOfBytes_cons (b : Byte) (l : List Byte) : natOfBytes (b :: l) = b.toNat + 256 * natOfBytes l := rfl

theorem natOfBytes_append (l l' : List Byte) : natOfBytes (l ++ l') = natOfBytes l + natOfBytes l' * 256 ^ l.length := by
  induction l with
  | nil => simp [natOfBytes]
  | cons b l ih => rw [List.cons_append, natOfBytes_cons, natOfBytes_cons, ih, List.length_cons, pow_succ]; ring

theorem natOfBytes_run (f : Nat → Byte) (n : Nat) :
    natOfBytes ((List.range n).map f) = ∑ k ∈ Finset.range n, (f k).toNat * 256 ^ k := by
  induction n with
  | zero => rfl
  | succ n ih =>
    rw [List.range_succ, List.map_append, natOfBytes_append, ih, Finset.sum_range_succ]
    simp [natOfBytes]

/-- A run of bytes in two parts. -/
theorem natOfBytes_run_add (f : Nat → Byte) (a b : Nat) :
    natOfBytes ((List.range (a + b)).map f) =
      natOfBytes ((List.range a).map f) + natOfBytes ((List.range b).map fun j => f (a + j)) * 256 ^ a := by
  rw [List.range_add, List.map_append, natOfBytes_append, List.length_map, List.length_range, List.map_map]
  rfl

/-- The bytes of a rising store, summed in their places. -/
theorem foldl_bytes_sum (m : Map Byte) (n c v : Nat) (hp : m.Pairwise fun e f => e.1 < f.1) (hn : ∀ e ∈ m, e.1 < n) :
    m.foldl (fun v e => v + e.2.toNat * 256 ^ (e.1 + c)) v =
      v + (∑ k ∈ Finset.range n, (m.get (fun _ => 0) k).toNat * 256 ^ k) * 256 ^ c := by
  induction m generalizing v with
  | nil => simp [Map.get]
  | cons e m ih =>
    rw [List.pairwise_cons] at hp
    have he : e.1 ∈ Finset.range n := Finset.mem_range.2 (hn e List.mem_cons_self)
    have hz : Map.get (fun _ => (0 : Byte)) m e.1 = 0 := by
      have := Map.get_append (fun _ => (0 : Byte)) [] m (e.1 + 1) e.1 (by simp) fun f hf => hp.1 f hf
      rw [if_pos (Nat.lt_succ_self _)] at this
      exact this
    rw [List.foldl_cons, ih _ hp.2 fun f hf => hn f (List.mem_cons_of_mem _ hf), Nat.add_assoc]
    congr 1
    rw [← Finset.add_sum_erase _ _ he, ← Finset.add_sum_erase _ _ he, Map.get, if_pos rfl, hz]
    have hrest : ∑ k ∈ (Finset.range n).erase e.1, (Map.get (fun _ => (0 : Byte)) (e :: m) k).toNat * 256 ^ k =
        ∑ k ∈ (Finset.range n).erase e.1, (Map.get (fun _ => (0 : Byte)) m k).toNat * 256 ^ k :=
      Finset.sum_congr rfl fun k hk => by rw [Map.get, if_neg (Finset.ne_of_mem_erase hk)]
    rw [hrest, pow_add]
    have h0 : (0 : Byte).toNat = 0 := rfl
    rw [h0]
    ring

/-- The bytes of `[lo, lo + n)` of a canonical store, summed in their places from `c` up. -/
theorem foldl_range_bytes (m : Map Byte) (lo n c : Nat) (h : m.wf (fun _ => 0) = true) :
    ((m.range lo (lo + n)).map fun e => (e.1 - lo, e.2)).foldl (fun v e => v + e.2.toNat * 256 ^ (e.1 + c)) 0 =
      natOfBytes ((List.range n).map fun k => m.get (fun _ => 0) (lo + k)) * 256 ^ c := by
  have hin : ∀ e ∈ m.range lo (lo + n), lo ≤ e.1 ∧ e.1 < lo + n := fun e he => by
    simpa [Map.range] using (List.mem_filter.1 he).2
  have hwf := Map.wf_range _ m lo (lo + n) h
  rw [Map.wf_iff] at hwf
  rw [foldl_bytes_sum _ n c, natOfBytes_run, Nat.zero_add]
  · congr 1
    refine Finset.sum_congr rfl fun k hk => ?_
    have hk' := Finset.mem_range.1 hk
    rw [Map.get_shift_down _ _ _ _ fun e he => (hin e he).1, Map.get_range, if_pos ⟨Nat.le_add_right _ _, by omega⟩]
  · rw [List.pairwise_map]
    refine hwf.1.imp_of_mem fun he hf hef => ?_
    have := hin _ he; have := hin _ hf
    omega
  · intro e he
    obtain ⟨f, hf, rfl⟩ := List.mem_map.1 he
    have := hin f hf
    show f.1 - lo < n
    omega

/-- A list numbered from 0 up. -/
theorem zip_range_eq_map (l : List Byte) (n : Nat) (h : n ≤ l.length) :
    (List.range n).zip l = (List.range n).map fun j => (j, l.getD j 0) := by
  refine List.ext_getElem (by simp [h]) fun i h1 h2 => ?_
  have hi : i < l.length := by simp at h1; omega
  simp [hi]

theorem get_filter_one (n k : Nat) (b : Byte) :
    Map.get (fun _ => 0) ([(n, b)].filter fun e => decide (e.2 ≠ 0)) k = if k = n then b else 0 := by
  by_cases h0 : b = 0
  · rw [List.filter_cons_of_neg (by simp [h0]), h0, ite_self]; rfl
  · rw [List.filter_cons_of_pos (by simpa using h0)]; rfl

/-- The bytes that are not 0 of a numbered run hold the whole run. -/
theorem get_filter_run (g : Nat → Byte) (n k : Nat) :
    Map.get (fun _ => 0) (((List.range n).map fun j => (j, g j)).filter fun e => decide (e.2 ≠ 0)) k =
      if k < n then g k else 0 := by
  induction n with
  | zero => rfl
  | succ n ih =>
    rw [List.range_succ, List.map_append, List.filter_append,
      Map.get_append _ _ _ n k (fun e he => ?_) (fun e he => ?_), ih]
    · rw [List.map_singleton, get_filter_one]
      by_cases hk : k = n
      · rw [if_neg (by omega), if_pos hk, if_pos (by omega), hk]
      · rw [if_neg hk, ite_eq_left_iff.2 fun h => (if_neg h).symm]
        exact if_congr (by omega) rfl rfl
    · obtain ⟨j, hj, rfl⟩ := List.mem_map.1 (List.mem_of_mem_filter he)
      exact List.mem_range.1 hj
    · rw [List.mem_filter] at he
      simp only [List.map_cons, List.map_nil, List.mem_singleton] at he
      rw [he.1]

theorem get_mapOfBytes (l : List Byte) (k : Nat) : (mapOfBytes l).get (fun _ => 0) k = l.getD k 0 := by
  refine Eq.trans ?_ ((get_filter_run (fun j => l.getD j 0) l.length k).trans ?_)
  · rw [← zip_range_eq_map l l.length le_rfl]; rfl
  · split_ifs with h
    · rfl
    · rw [List.getD_eq_default _ _ (by omega)]

end Sys2Proof.Machine

/-!
An access to memory that nothing but the rights of its region decides: what it reads, and which bytes of DDR it writes.
-/

namespace Sys2Proof.Machine

/-! ## Parts of an access -/

/-- An access inside one unit is one part. -/
theorem cutAt_one (unit k addr n : Nat) (hn : 0 < n) (h : addr % unit + n ≤ unit) :
    cutAt unit (k + 1) addr n = [(addr, n)] := by
  have hm : min n (unit - addr % unit) = n := by omega
  have hrest : cutAt unit k (addr + n) (n - n) = [] := by
    rw [Nat.sub_self]
    cases k <;> rfl
  rw [cutAt, if_neg (by omega)]
  simp only [hm, hrest]

/-- What the rights of a region give an initiator for an access (R398). -/
def mayAccess (rights : Nat) (who : Initiator) : DdrOp → Bool
  | .read => rights.testBit (2 * who.num)
  | .write => rights.testBit (2 * who.num + 1)
  | .rmw => rights.testBit (2 * who.num) && rights.testBit (2 * who.num + 1)

section
variable {s : State} {who : Initiator} {addr n r : Nat}

theorem regionBase_add_dataSize (hmode : s.regionMode r = 0) (hreg : s.regionOf addr = some r) :
    addr < s.regionBase r + s.dataSize r := by
  have hhas : s.regionHas r addr = true := List.find?_some (p := fun r => s.regionHas r addr) hreg
  have hsize : s.dataSize r = s.fld (Reg.CR_REG_SIZE r) 0 15 * 2 ^ 24 := if_neg (by rw [hmode]; decide)
  have hlt : addr < (s.fld (Reg.CR_REG_BASE r) 0 14 + s.fld (Reg.CR_REG_SIZE r) 0 15) * 2 ^ 24 := by
    unfold State.regionHas at hhas
    exact of_decide_eq_true (Bool.and_eq_true_iff.1 hhas).2
  rw [hsize, State.regionBase, ← Nat.add_mul]
  exact hlt

/-- A part of a plain access is judged by the rights of its region alone, and its domain has work. -/
theorem judge_plain (op : DdrOp) (h : s.plainAccess who addr n r) (hok : mayAccess (s.rd (Reg.CR_REG_RIGHTS r)) who op = true) :
    s.judge who op addr = (none, s.touch 110) := by
  obtain ⟨hn, -, hcap, hreg, hmode, -, hhalt, hiso, hlevel, hgoal, -⟩ := h
  have hring : (onRing who && s.isolated (15 + addr / 4096 % 2)) = false := by
    cases hw : onRing who
    · rfl
    · obtain ⟨h15, h16⟩ := hiso hw
      rcases Nat.mod_two_eq_zero_or_one (addr / 4096) with h2 | h2 <;> rw [h2]
      · exact h15
      · exact h16
  have hleave : s.leaveDom 110 = s.touch 110 := by
    unfold State.leaveDom
    exact if_pos ⟨hlevel, by rw [hgoal]; rfl⟩
  have hok' : mayAccess ((s.touch 110).rd (Reg.CR_REG_RIGHTS r)) who op = true := hok
  have hmode' : ¬((s.touch 110).regionMode r = 2 ∧ (s.touch 110).regionState r = 1) := fun hm =>
    absurd (hmode.symm.trans hm.1) (by decide)
  have hin : ¬(s.touch 110).regionBase r + (s.touch 110).dataSize r ≤ addr :=
    Nat.not_le.2 (regionBase_add_dataSize (s := s) hmode hreg)
  have hreg' : (s.touch 110).regionOf addr = some r := hreg
  unfold State.judge
  rw [if_neg (by omega), hring, if_neg Bool.false_ne_true, hhalt, if_neg Bool.false_ne_true, hleave]
  simp only [hreg', if_neg hmode']
  refine if_neg fun hno => ?_
  rcases hno with hno | hno
  · cases op <;> exact absurd hok' (Bool.not_eq_true _ ▸ (Bool.not_eq_true' _ ▸ hno))
  · exact hin hno

theorem judgeParts_plain (h : s.plainAccess who addr n r) : s.judgeParts who addr n = [(addr, n)] := by
  obtain ⟨hn, hunit, -, -, -, -, -, hiso, -⟩ := h
  have hring : (onRing who && (s.isolated 15 || s.isolated 16)) = false := by
    cases hw : onRing who
    · rfl
    · obtain ⟨h15, h16⟩ := hiso hw
      rw [h15, h16]; rfl
  unfold State.judgeParts
  rw [hring]
  exact cutAt_one _ _ addr n hn hunit

theorem judgeAll_plain (op : DdrOp) (h : s.plainAccess who addr n r)
    (hok : mayAccess (s.rd (Reg.CR_REG_RIGHTS r)) who op = true) :
    s.judgeAll who op addr n = (none, s.touch 110) := by
  unfold State.judgeAll
  rw [judgeParts_plain h, List.foldl_cons, List.foldl_nil, judge_plain op h hok]
  rfl

/-! ## A read -/

theorem seenPart_plain (hmode : s.regionMode r = 0) (htags : s.crypt.tags = []) (base : Nat) :
    s.seenPart r base addr n = (s.ddr.range addr (addr + n)).map fun e => (e.1 - base, e.2) := by
  have hfor : ∀ a, s.tagFor r a = none := fun a => by unfold State.tagFor; rw [hmode]; rfl
  unfold State.seenPart State.inForm
  rw [hfor, htags]
  rfl

/-- Regions begin and end at 16 MiB units. -/
theorem regionOf_sameUnit (a b : Nat) (h : a / 2 ^ 24 = b / 2 ^ 24) : s.regionOf a = s.regionOf b := by
  unfold State.regionOf
  congr 1
  funext r
  unfold State.regionHas
  have hlo : s.fld (Reg.CR_REG_BASE r) 0 14 * 2 ^ 24 ≤ a ↔ s.fld (Reg.CR_REG_BASE r) 0 14 * 2 ^ 24 ≤ b := by omega
  have hhi : a < (s.fld (Reg.CR_REG_BASE r) 0 14 + s.fld (Reg.CR_REG_SIZE r) 0 15) * 2 ^ 24 ↔
      b < (s.fld (Reg.CR_REG_BASE r) 0 14 + s.fld (Reg.CR_REG_SIZE r) 0 15) * 2 ^ 24 := by omega
  rw [decide_eq_decide.2 hlo, decide_eq_decide.2 hhi]

/-- Writes wait in CONF_INT regions alone (R413). -/
theorem waitBytes_plain (h : s.plainAccess who addr n r) : s.waitBytes addr n = [] := by
  obtain ⟨hn, hunit, -, hreg, hmode, -⟩ := h
  unfold State.waitBytes
  refine List.flatMap_eq_nil_iff.2 fun w _ => List.filterMap_eq_nil_iff.2 fun e _ => if_neg ?_
  rintro ⟨hlo, hhi, hint⟩
  have hunits : e.1 / 2 ^ 24 = addr / 2 ^ 24 := by omega
  rw [regionOf_sameUnit _ _ hunits, hreg, Option.any_some, decide_eq_true_iff, hmode] at hint
  exact absurd hint (by decide)

theorem ddrGet_plain (op : DdrOp) (h : s.plainAccess who addr n r)
    (hok : mayAccess (s.rd (Reg.CR_REG_RIGHTS r)) who op = true) :
    s.ddrGet who op addr n = (.ok ((s.ddr.range addr (addr + n)).map fun e => (e.1 - addr, e.2)), s.touch 110) := by
  have hp := h
  have hparts : (s.touch 110).judgeParts who addr n = [(addr, n)] := judgeParts_plain (s := s) h
  have hwait : (s.touch 110).waitBytes addr n = [] := waitBytes_plain (s := s) h
  obtain ⟨-, -, -, hreg, hmode, htags, -⟩ := h
  have hreg' : (s.touch 110).regionOf addr = some r := hreg
  have hmode' : (s.touch 110).regionMode r = 0 := hmode
  have hforms : (s.touch 110).formParts r addr n = [(addr, n)] := if_pos hmode
  have hseen := seenPart_plain (s := s.touch 110) (addr := addr) (n := n) hmode htags addr
  unfold State.ddrGet
  rw [judgeAll_plain op hp hok]
  simp only [hparts, List.foldl_cons, List.foldl_nil, hreg', hmode']
  simp [hforms, hseen, hwait, Map.setAll]

/-! ## A write -/

/-- `t` is `s` but for the bytes `[lo, hi)` of DDR, which are those of `m` at offsets from `base`. -/
def State.Overwrites (s t : State) (lo hi base : Nat) (m : Map Byte) : Prop :=
  t = { s with ddr := t.ddr } ∧
    ∀ a, t.ddr.get (fun _ => 0) a = if lo ≤ a ∧ a < hi then m.get (fun _ => 0) (a - base) else s.ddr.get (fun _ => 0) a


end

theorem State.Overwrites.refl (s : State) (lo base : Nat) (m : Map Byte) : s.Overwrites s lo lo base m :=
  ⟨rfl, fun a => (if_neg (by omega)).symm⟩

/-- Two runs of bytes, the second from where the first ends. -/
theorem State.Overwrites.trans {s t u : State} {lo mid hi base : Nat} {m : Map Byte} (hlo : lo ≤ mid) (hhi : mid ≤ hi)
    (h : s.Overwrites t lo mid base m) (h' : t.Overwrites u mid hi base m) : s.Overwrites u lo hi base m := by
  obtain ⟨ht, hget⟩ := h
  obtain ⟨hu, hget'⟩ := h'
  refine ⟨by rw [hu, ht], fun a => ?_⟩
  rw [hget', hget]
  by_cases hmid : a < mid
  · rw [if_neg (by omega)]
    exact if_congr (by omega) rfl rfl
  · rw [if_neg (show ¬(lo ≤ a ∧ a < mid) by omega)]
    exact if_congr (by omega) rfl rfl

section
variable {s : State} {addr n r : Nat}

theorem tagFor_plain (hmode : s.regionMode r = 0) (a : Nat) : s.tagFor r a = none := by
  unfold State.tagFor
  rw [hmode]; rfl

/-- Where no line is in another form, bytes merged into a line are bytes of DDR. -/
theorem mergeLine_plain (hmode : s.regionMode r = 0) (htags : s.crypt.tags = []) (line : Nat) (l : List (Nat × Byte)) :
    s.mergeLine r line l =
      { s with ddr := s.ddr.setAll (fun _ => 0) (l.map fun e => (line * 64 + e.1, e.2)) } := by
  have htag : s.tagOf line = s.tagFor r (line * 64) := by
    unfold State.tagOf
    rw [htags, tagFor_plain hmode]; rfl
  have hconv : s.convertLine r line = s := if_pos htag
  cases l with
  | nil => rfl
  | cons e l =>
    unfold State.mergeLine
    rw [if_pos htag, hconv, ite_self]
    rfl

theorem State.Overwrites.plain {t : State} {lo hi base : Nat} {m : Map Byte} (h : s.Overwrites t lo hi base m)
    (hmode : s.regionMode r = 0) (htags : s.crypt.tags = []) : t.regionMode r = 0 ∧ t.crypt.tags = [] := by
  rw [h.1]
  exact ⟨hmode, htags⟩

/-- A run of bytes inside a line. -/
theorem mergeLine_run (hmode : s.regionMode r = 0) (htags : s.crypt.tags = []) (a k base : Nat) (m : Map Byte) :
    s.Overwrites (s.mergeLine r (a / 64) ((List.range k).map fun j => (a % 64 + j, m.get (fun _ => 0) (a + j - base))))
      a (a + k) base m := by
  have hrun : ((List.range k).map fun j => (a % 64 + j, m.get (fun _ => 0) (a + j - base))).map
      (fun e => (a / 64 * 64 + e.1, e.2)) = (List.range k).map fun j => (a + j, m.get (fun _ => 0) (a + j - base)) := by
    rw [List.map_map]
    refine List.map_congr_left fun j _ => Prod.ext ?_ rfl
    show a / 64 * 64 + (a % 64 + j) = a + j
    omega
  rw [mergeLine_plain hmode htags, hrun]
  refine ⟨rfl, fun x => (Map.get_setAll_run _ (fun j => m.get (fun _ => 0) (a + j - base)) k a _ x).trans ?_⟩
  split_ifs with hx
  · rw [show a + (x - a) = x by omega]
  · rfl

theorem retag_plain (htags : s.crypt.tags = []) (lo hi : Nat) : s.retag lo hi none = s := by
  unfold State.retag
  rw [htags]
  have hcrypt : { s.crypt with tags := [] } = s.crypt := by rw [← htags]
  simp only [List.flatMap_nil, Map.setAll, List.foldl_nil, State.modCry, htags, and_self, if_true, hcrypt]

/-- Whole lines filled from a store. -/
theorem fillLines_plain (hmode : s.regionMode r = 0) (htags : s.crypt.tags = []) (a k base : Nat) (m : Map Byte)
    (hbase : base ≤ a) : s.Overwrites (s.fillLines r base a k m) a (a + k) base m := by
  unfold State.fillLines
  rw [tagFor_plain hmode, retag_plain htags]
  refine ⟨rfl, fun x => ?_⟩
  have hlow : ∀ e ∈ s.ddr.range 0 a, e.1 < a := fun e he => by
    simpa [Map.range] using (List.mem_filter.1 he).2
  have hnew : ∀ e ∈ (m.range (a - base) (a - base + k)).map fun e => (e.1 + base, e.2), a ≤ e.1 ∧ e.1 < a + k := fun e he => by
    obtain ⟨f, hf, rfl⟩ := List.mem_map.1 he
    have := (List.mem_filter.1 hf).2
    simp only [Bool.and_eq_true, decide_eq_true_eq] at this
    show a ≤ f.1 + base ∧ f.1 + base < a + k
    omega
  have hhigh : ∀ e ∈ s.ddr.filter (fun e => decide (a + k ≤ e.1)), a + k ≤ e.1 := fun e he => by
    simpa using (List.mem_filter.1 he).2
  have hleft : ∀ e ∈ s.ddr.range 0 a ++ (m.range (a - base) (a - base + k)).map (fun e => (e.1 + base, e.2)), e.1 < a + k :=
    fun e he => (List.mem_append.1 he).elim (fun h => by have := hlow e h; omega) fun h => (hnew e h).2
  refine (Map.get_append _ _ _ (a + k) x hleft hhigh).trans ?_
  rw [Map.get_append _ _ _ a x hlow fun e he => (hnew e he).1, Map.get_shift_up, Map.get_range, Map.get_range,
    Map.get_filter (fun _ => (0 : Byte)) s.ddr (fun y => decide (a + k ≤ y)) x]
  by_cases hlo : x < a
  · rw [if_pos (by omega), if_pos hlo, if_pos (by omega), if_neg (by omega)]
  · by_cases hhi : x < a + k
    · rw [if_pos hhi, if_neg hlo, if_pos (by omega), if_pos (by omega), if_pos (by omega)]
    · rw [if_neg hhi, decide_eq_true (by omega), if_pos rfl, if_neg (by omega)]

/-- A part of a plain access writes its bytes, and nothing else. -/
theorem storePart_plain (hmode : s.regionMode r = 0) (htags : s.crypt.tags = []) (base : Nat) (m : Map Byte) (hbase : base ≤ addr) :
    s.Overwrites (s.storePart r base addr n m) addr (addr + n) base m := by
  unfold State.storePart
  set head := min n ((64 - addr % 64) % 64) with hhead
  set body := (n - head) / 64 * 64 with hbody
  have h1 := mergeLine_run hmode htags addr head base m
  set t := s.mergeLine r (addr / 64) ((List.range head).map fun j => (addr % 64 + j, m.get (fun _ => 0) (addr + j - base)))
    with ht
  obtain ⟨hmode1, htags1⟩ := h1.plain hmode htags
  set u := if body = 0 then t else t.fillLines r base (addr + head) body m with hu
  have h2 : t.Overwrites u (addr + head) (addr + head + body) base m := by
    rw [hu]
    split_ifs with h0
    · rw [h0]
      exact State.Overwrites.refl t _ base m
    · exact fillLines_plain hmode1 htags1 _ _ base m (by omega)
  obtain ⟨hmode2, htags2⟩ := h2.plain hmode1 htags1
  have h3 := mergeLine_run hmode2 htags2 (addr + head + body) (n - head - body) base m
  rw [show addr + head + body + (n - head - body) = addr + n by omega] at h3
  exact (h1.trans (by omega) (by omega) h2).trans (by omega) (by omega) h3

theorem ddrPut_plain {who : Initiator} (op : DdrOp) (h : s.plainAccess who addr n r)
    (hok : mayAccess (s.rd (Reg.CR_REG_RIGHTS r)) who op = true) (m : Map Byte) :
    s.ddrPut who op addr n m = (none, (s.touch 110).storePart r addr addr n m) := by
  have hparts := judgeParts_plain h
  have hjudge := judge_plain op h hok
  obtain ⟨-, -, -, hreg, hmode, -⟩ := h
  have hreg' : (s.touch 110).regionOf addr = some r := hreg
  have hforms : (s.touch 110).formParts r addr n = [(addr, n)] := if_pos hmode
  have hmode' : ¬(s.touch 110).regionMode r = 2 := fun h2 => absurd (hmode.symm.trans h2) (by decide)
  unfold State.ddrPut
  rw [hparts]
  simp only [List.foldl_cons, List.foldl_nil, hjudge, hreg', if_neg hmode', hforms]
  rfl

end

/-! ## A host access -/

section
variable {s : State} {addr n r : Nat}

theorem hostDdr_read (h : s.plainAccess .hostMmio addr n r) (hwf : s.ddr.wf (fun _ => 0) = true)
    (hok : (s.rd (Reg.CR_REG_RIGHTS r)).testBit (2 * Initiator.hostMmio.num) = true) :
    s.hostDdr addr n none =
      (s.touch 110).answer (natOfBytes ((List.range n).map fun k => s.ddr.get (fun _ => 0) (addr + k))) := by
  have hn : n ≠ 0 := Nat.pos_iff_ne_zero.1 h.1
  have hval := foldl_range_bytes s.ddr addr n 0 hwf
  simp only [Nat.add_zero, pow_zero, Nat.mul_one] at hval
  unfold State.hostDdr
  rw [if_neg hn, ddrGet_plain .read h hok]
  simp only [hval]

theorem hostDdr_write (h : s.plainAccess .hostMmio addr n r) (l : List Byte) (hl : l.length = n)
    (hok : (s.rd (Reg.CR_REG_RIGHTS r)).testBit (2 * Initiator.hostMmio.num + 1) = true) :
    ∃ t, s.hostDdr addr n (some l) = t.answer 0 ∧ (s.touch 110).Overwrites t addr (addr + n) addr (mapOfBytes l) := by
  have hn : n ≠ 0 := Nat.pos_iff_ne_zero.1 h.1
  refine ⟨(s.touch 110).storePart r addr addr n (mapOfBytes l), ?_, ?_⟩
  · unfold State.hostDdr
    rw [if_neg hn]
    simp only [ddrPut_plain .write h hok, List.take_of_length_le hl.le]
  · obtain ⟨-, -, -, -, hmode, htags, -⟩ := h
    exact storePart_plain (s := s.touch 110) hmode htags addr _ (Nat.le_refl _)

end

end Sys2Proof.Machine

/-!
The scratchpads without soft errors as BAR2 reaches them, packet by packet (R28, R380, R389).
-/

namespace Sys2Proof.Map

theorem insert_insert {α : Type} (m : Map α) (k : Nat) (v : α) : insert (insert m k v) k v = insert m k v := by
  induction m with
  | nil => simp [insert]
  | cons e m ih =>
    obtain ⟨j, w⟩ := e
    by_cases hk : k = j
    · simp [insert, hk]
    · by_cases hlt : k < j
      · simp [insert, hk, hlt]
      · simp [insert, hk, hlt, ih]

theorem set_set {α : Type} [DecidableEq α] (d : Nat → α) (m : Map α) (k : Nat) (v : α) :
    set d (set d m k v) k v = set d m k v := by
  by_cases hv : v = d k
  · simp [set, hv, erase]
  · simp only [set, if_neg hv, insert_insert]

end Sys2Proof.Map

namespace Sys2Proof.Machine

theorem touch_touch (s : State) (d : Nat) : (s.touch d).touch d = s.touch d := by
  have hdom : (s.touch d).dom d = { s.dom d with idle := s.now } := Map.get_set_same _ _ _ _
  have hdoms : ((s.touch d).power.doms.set (fun _ => {}) d { s.dom d with idle := s.now }) = (s.touch d).power.doms :=
    Map.set_set _ _ _ _
  show { s.touch d with power := { (s.touch d).power with
    doms := (s.touch d).power.doms.set (fun _ => {}) d { (s.touch d).dom d with idle := s.now } } } = s.touch d
  rw [hdom, hdoms]

/-! ## Banks without soft errors -/

/-- Bank `k` takes the accesses of `who`, and no word of the banks holds an error. -/
structure State.CleanBank (s : State) (who : Initiator) (k : Nat) : Prop where
  gate : s.spadGate who k = .reaches
  bad : s.spad.bad = []
  soft : s.spad.soft = []

section
variable {s : State} {who : Initiator} {k : Nat}

theorem spadCheck_clean (hbad : s.spad.bad = []) (hsoft : s.spad.soft = []) (w : Nat) : s.spadCheck who w = (false, s) := by
  unfold State.spadCheck
  rw [hbad, hsoft]
  rfl

theorem spadCheckAll_clean (hbad : s.spad.bad = []) (hsoft : s.spad.soft = []) (l : List Nat) :
    s.spadCheckAll who l = (false, s) := by
  unfold State.spadCheckAll
  induction l with
  | nil => rfl
  | cons w l ih =>
    rw [List.foldl_cons]
    simp only [spadCheck_clean hbad hsoft]
    exact ih

theorem spadRead_clean (h : s.CleanBank who k) (off n : Nat) :
    s.spadRead who k off n = (false,
      (s.spad.mem.range (k * 2 ^ 18 + off) (k * 2 ^ 18 + off + n)).map (fun e => (e.1 - (k * 2 ^ 18 + off), e.2)),
      s.touch (82 + k)) := by
  unfold State.spadRead
  rw [h.gate]
  simp only [spadCheckAll_clean (s := s.touch (82 + k)) h.bad h.soft]
  rfl

/-- The banks hold `mem`. -/
def State.withBanks (s : State) (mem : Map Byte) : State := { s with spad := { s.spad with mem := mem } }

theorem spadWriteWord_clean (hbad : s.spad.bad = []) (hsoft : s.spad.soft = []) (w : Nat) (l : List (Nat × Byte)) :
    s.spadWriteWord who w l = (false, s.withBanks (s.spad.mem.setAll (fun _ => 0) l)) := by
  unfold State.spadWriteWord
  simp only [spadCheck_clean hbad hsoft]
  split_ifs
  · have hbad' : s.spad.bad.filter (· ≠ w) = s.spad.bad := by rw [hbad]; rfl
    have hsoft' : s.spad.soft.filter (· ≠ w) = s.spad.soft := by rw [hsoft]; rfl
    simp only [State.modSpad, State.withBanks, hbad', hsoft']
  · rfl

/-- The words of a write, one after the other. -/
theorem foldl_spadWriteWord_clean (l : List (Nat × Byte)) (ws : List Nat) (hbad : s.spad.bad = []) (hsoft : s.spad.soft = []) :
    ws.foldl (fun (x : Bool × State) w =>
        let r := x.2.spadWriteWord who w (l.filter fun e => e.1 / 8 = w)
        (x.1 || r.1, r.2)) (false, s) =
      (false, s.withBanks
        (ws.foldl (fun m w => m.setAll (fun _ => 0) (l.filter fun e => decide (e.1 / 8 = w))) s.spad.mem)) := by
  induction ws generalizing s with
  | nil => rfl
  | cons w ws ih =>
    rw [List.foldl_cons]
    simp only [spadWriteWord_clean hbad hsoft]
    exact ih (s := s.withBanks _) hbad hsoft

theorem spadWrite_clean (h : s.CleanBank who k) (off : Nat) (l : List (Nat × Byte)) :
    ∃ mem, s.spadWrite who k off l = (false, (s.touch (82 + k)).withBanks mem) ∧
      ∀ a, mem.get (fun _ => 0) a =
        (s.spad.mem.setAll (fun _ => 0) (l.map fun e => (k * 2 ^ 18 + off + e.1, e.2))).get (fun _ => 0) a := by
  set keys := l.map fun e => (k * 2 ^ 18 + off + e.1, e.2) with hkeys
  set words := (keys.map fun e => e.1 / 8).dedup with hwords
  refine ⟨words.foldl (fun m w => m.setAll (fun _ => 0) (keys.filter fun e => decide (e.1 / 8 = w))) s.spad.mem, ?_, fun a => ?_⟩
  · unfold State.spadWrite
    rw [h.gate]
    exact foldl_spadWriteWord_clean (s := s.touch (82 + k)) keys words h.bad h.soft
  · rw [Map.get_setAll_turns (fun _ => (0 : Byte)) (fun a => a / 8)]
    split_ifs with ha
    · rfl
    · refine (Map.get_setAll_of_not_mem _ _ _ _ fun e he hea => ha ?_).symm
      rw [hwords, List.mem_dedup]
      exact List.mem_map.2 ⟨e, he, by rw [hea]⟩

end

/-! ## A host access, packet by packet -/

/-- What holds before an access and is kept by each of its parts holds after it. -/
theorem foldl_cutAt_induction {σ : Type} (f : σ → Nat × Nat → σ) (P : Nat → σ → Prop) (unit hi : Nat)
    (hstep : ∀ x m t, 0 < m → x + m ≤ hi → P x t → P (x + m) (f t (x, m))) (hunit : 0 < unit) (fuel : Nat) :
    ∀ x n t, n = 0 ∨ x % unit + n ≤ fuel * unit → x + n ≤ hi → P x t → P (x + n) ((cutAt unit fuel x n).foldl f t) := by
  induction fuel with
  | zero =>
    intro x n t hfuel _ h
    rw [show n = 0 by omega]
    exact h
  | succ fuel ih =>
    intro x n t hfuel hhi h
    by_cases hn : n = 0
    · rw [hn, cutAt, if_pos rfl]
      exact h
    · rw [cutAt, if_neg hn]
      have hlt := Nat.mod_lt x hunit
      set m := min n (unit - x % unit) with hm
      rw [Nat.succ_mul] at hfuel
      have hfuel' : n - m = 0 ∨ (x + m) % unit + (n - m) ≤ fuel * unit := by
        by_cases hmn : n ≤ m
        · exact .inl (by omega)
        · have hend : x % unit + m = unit := by omega
          have hz : (x + m) % unit = 0 := by rw [← Nat.mod_add_mod, hend, Nat.mod_self]
          omega
      have hrest := ih (x + m) (n - m) (f t (x, m)) hfuel' (by omega) (hstep x m t (by omega) (by omega) h)
      rw [show x + m + (n - m) = x + n by omega] at hrest
      exact hrest

section
variable {s : State} {k o n : Nat}

/-- The state before any packet of an access to bank `k`, or after some: its domain has work then. -/
def State.Begun (s u : State) (k : Nat) (none : Prop) : Prop := u = s ∧ none ∨ u = s.touch (82 + k)

theorem State.Begun.touch {u : State} {p : Prop} (h : s.Begun u k p) : u.touch (82 + k) = s.touch (82 + k) := by
  rcases h with ⟨rfl, -⟩ | rfl
  · rfl
  · exact touch_touch s _

theorem State.Begun.spad {u : State} {p : Prop} (h : s.Begun u k p) : u.spad = s.spad := by
  rcases h with ⟨rfl, -⟩ | rfl <;> rfl

theorem State.Begun.isolated {u : State} {p : Prop} (h : s.Begun u k p) (t : Nat) : u.isolated t = s.isolated t := by
  rcases h with ⟨rfl, -⟩ | rfl <;> rfl

theorem State.Begun.clean {u : State} {p : Prop} (h : s.Begun u k p) {who : Initiator} (hc : s.CleanBank who k) :
    u.CleanBank who k := by
  obtain ⟨hgate, hbad, hsoft⟩ := hc
  rcases h with ⟨rfl, -⟩ | rfl
  · exact ⟨hgate, hbad, hsoft⟩
  · exact ⟨hgate, hbad, hsoft⟩

/-- The bytes from `base` up to `x`. -/
def State.bankRun (s : State) (base x : Nat) : Nat :=
  natOfBytes ((List.range (x - base)).map fun j => s.spad.mem.get (fun _ => 0) (base + j))

/-- One packet of a read of the scratchpads. -/
def State.spadReadPacket (addr : Nat) (s : State) (p : Nat × Nat) : State :=
  if s.isolated (32 + p.1 / 2 ^ 18) then { s with bus := { s.bus with err := true } }
  else
    let r := s.spadRead .hostMmio (p.1 / 2 ^ 18) (p.1 % 2 ^ 18) p.2
    { r.2.2 with bus := {
        data := r.2.2.bus.data + r.2.1.foldl (fun v e => v + e.2.toNat * 256 ^ (e.1 + (p.1 - addr))) 0
        err := r.2.2.bus.err || r.1 } }

/-- One packet of a write of the scratchpads. -/
def State.spadWritePacket (addr : Nat) (l : List Byte) (s : State) (p : Nat × Nat) : State :=
  if s.isolated (32 + p.1 / 2 ^ 18) then { s with bus := { s.bus with err := true } }
  else
    let r := s.spadWrite .hostMmio (p.1 / 2 ^ 18) (p.1 % 2 ^ 18) ((List.range p.2).zip ((l.drop (p.1 - addr)).take p.2))
    { r.2 with bus := { r.2.bus with err := r.2.bus.err || r.1 } }

theorem hostSpad_none (addr : Nat) : s.hostSpad addr n none = (packetsOf addr n).foldl (State.spadReadPacket addr) s := rfl

theorem hostSpad_some (addr : Nat) (l : List Byte) :
    s.hostSpad addr n (some l) = (packetsOf addr n).foldl (State.spadWritePacket addr l) s := rfl

theorem bankRun_self (base : Nat) : s.bankRun base base = 0 := by
  unfold State.bankRun
  rw [Nat.sub_self]
  rfl

theorem bankRun_add (base x m : Nat) (h : base ≤ x) :
    s.bankRun base (x + m) = s.bankRun base x +
      natOfBytes ((List.range m).map fun j => s.spad.mem.get (fun _ => 0) (x + j)) * 256 ^ (x - base) := by
  unfold State.bankRun
  rw [show x + m - base = x - base + m by omega, natOfBytes_run_add]
  congr 4
  funext j
  rw [show base + (x - base + j) = x + j by omega]

theorem spadReadPacket_clean {v addr x m : Nat} (hc : s.CleanBank .hostMmio k) (hiso : s.isolated (32 + k) = false)
    (hk : x / 2 ^ 18 = k) (hwf : s.spad.mem.wf (fun _ => 0) = true) :
    State.spadReadPacket addr (s.answer v) (x, m) = (s.touch (82 + k)).answer
      (v + natOfBytes ((List.range m).map fun j => s.spad.mem.get (fun _ => 0) (x + j)) * 256 ^ (x - addr)) := by
  have hiso' : (s.answer v).isolated (32 + k) = false := hiso
  have hread := spadRead_clean (s := s.answer v) (who := .hostMmio) (k := k) ⟨hc.gate, hc.bad, hc.soft⟩ (x % 2 ^ 18) m
  rw [show k * 2 ^ 18 + x % 2 ^ 18 = x by omega] at hread
  unfold State.spadReadPacket
  simp only [hk, hiso', hread]
  rw [if_neg Bool.false_ne_true, ← foldl_range_bytes s.spad.mem x m (x - addr) hwf]
  rfl

theorem hostSpad_read (hc : s.CleanBank .hostMmio k) (hiso : s.isolated (32 + k) = false) (hn : 0 < n) (ho : o + n ≤ 2 ^ 18)
    (hwf : s.spad.mem.wf (fun _ => 0) = true) :
    (s.answer 0).hostSpad (k * 2 ^ 18 + o) n none = (s.touch (82 + k)).answer (s.bankRun (k * 2 ^ 18 + o) (k * 2 ^ 18 + o + n)) := by
  set A := k * 2 ^ 18 + o with hA
  rw [hostSpad_none]
  have hinv := foldl_cutAt_induction (State.spadReadPacket A)
    (fun x t => A ≤ x ∧ ∃ u, s.Begun u k (x = A) ∧ t = u.answer (s.bankRun A x)) 64 (A + n) ?_ (by decide) (n / 64 + 2) A n
    (s.answer 0) (.inr (by omega)) le_rfl ⟨le_rfl, s, .inl ⟨rfl, rfl⟩, by rw [bankRun_self]⟩
  · obtain ⟨-, u, hu, ht⟩ := hinv
    refine Eq.trans ht ?_
    rcases hu with ⟨-, h0⟩ | rfl
    · omega
    · rfl
  · rintro x m t hm hhi ⟨hx, u, hu, rfl⟩
    have hiso' : u.isolated (32 + k) = false := (hu.isolated _).trans hiso
    have hwf' : u.spad.mem.wf (fun _ => 0) = true := by rw [hu.spad]; exact hwf
    refine ⟨by omega, _, .inr rfl, ?_⟩
    rw [spadReadPacket_clean (hu.clean hc) hiso' (by omega) hwf', hu.touch, hu.spad, bankRun_add A x m hx]

/-! ## A write -/

/-- The bytes of a run, its offsets counted from `x`. -/
theorem get_setAll_zip (mem : Map Byte) (l : List Byte) (x a : Nat) :
    (mem.setAll (fun _ => 0) (((List.range l.length).zip l).map fun e => (x + e.1, e.2))).get (fun _ => 0) a =
      if x ≤ a ∧ a < x + l.length then l.getD (a - x) 0 else mem.get (fun _ => 0) a := by
  rw [zip_range_eq_map l l.length le_rfl, List.map_map]
  exact Map.get_setAll_run _ (fun j => l.getD j 0) l.length x mem a

theorem spadWritePacket_clean {addr x m : Nat} {l : List Byte} (hc : s.CleanBank .hostMmio k)
    (hiso : s.isolated (32 + k) = false) (hk : x / 2 ^ 18 = k) (haddr : addr ≤ x) (hl : x + m ≤ addr + l.length) :
    ∃ mem, State.spadWritePacket addr l (s.answer 0) (x, m) = ((s.touch (82 + k)).withBanks mem).answer 0 ∧
      ∀ a, mem.get (fun _ => 0) a =
        if x ≤ a ∧ a < x + m then l.getD (a - addr) 0 else s.spad.mem.get (fun _ => 0) a := by
  have hiso' : (s.answer 0).isolated (32 + k) = false := hiso
  set bytes := (l.drop (x - addr)).take m with hbytes
  have hlen : bytes.length = m := by
    rw [hbytes, List.length_take, List.length_drop]
    omega
  obtain ⟨mem, hwrite, hget⟩ := spadWrite_clean (s := s.answer 0) (who := .hostMmio) (k := k) ⟨hc.gate, hc.bad, hc.soft⟩
    (x % 2 ^ 18) ((List.range m).zip bytes)
  refine ⟨mem, ?_, fun a => ?_⟩
  · unfold State.spadWritePacket
    simp only [hk, hiso', ← hbytes, hwrite]
    rfl
  · have hzip := get_setAll_zip s.spad.mem bytes x a
    rw [hlen] at hzip
    rw [hget, show k * 2 ^ 18 + x % 2 ^ 18 = x by omega]
    refine hzip.trans ?_
    split_ifs with ha
    · have hin : a - x < m := by omega
      have hin' : a - addr < l.length := by omega
      simp [hbytes, List.getD_eq_getElem?_getD, hin, show x - addr + (a - x) = a - addr by omega]
    · rfl

theorem hostSpad_write (hc : s.CleanBank .hostMmio k) (hiso : s.isolated (32 + k) = false) (hn : 0 < n) (ho : o + n ≤ 2 ^ 18)
    (l : List Byte) (hl : l.length = n) :
    ∃ mem, (s.answer 0).hostSpad (k * 2 ^ 18 + o) n (some l) = ((s.touch (82 + k)).withBanks mem).answer 0 ∧
      ∀ a, mem.get (fun _ => 0) a =
        if k * 2 ^ 18 + o ≤ a ∧ a < k * 2 ^ 18 + o + n then l.getD (a - (k * 2 ^ 18 + o)) 0
        else s.spad.mem.get (fun _ => 0) a := by
  set A := k * 2 ^ 18 + o with hA
  rw [hostSpad_some]
  have hinv := foldl_cutAt_induction (State.spadWritePacket A l)
    (fun x t => A ≤ x ∧ ∃ u mem, s.Begun u k (x = A) ∧ t = (u.withBanks mem).answer 0 ∧
      ∀ a, mem.get (fun _ => 0) a = if A ≤ a ∧ a < x then l.getD (a - A) 0 else s.spad.mem.get (fun _ => 0) a)
    64 (A + n) ?_ (by decide) (n / 64 + 2) A n (s.answer 0) (.inr (by omega)) le_rfl
    ⟨le_rfl, s, s.spad.mem, .inl ⟨rfl, rfl⟩, rfl, fun a => (if_neg (by omega)).symm⟩
  · obtain ⟨-, u, mem, hu, ht, hget⟩ := hinv
    refine ⟨mem, Eq.trans ht ?_, hget⟩
    rcases hu with ⟨-, h0⟩ | rfl
    · omega
    · rfl
  · rintro x m t hm hhi ⟨hx, u, mem, hu, rfl, hget⟩
    have hiso' : (u.withBanks mem).isolated (32 + k) = false := (hu.isolated _).trans hiso
    obtain ⟨hgate, hbad, hsoft⟩ := hu.clean hc
    have hclean : (u.withBanks mem).CleanBank .hostMmio k := ⟨hgate, hbad, hsoft⟩
    obtain ⟨mem', hpacket, hget'⟩ := spadWritePacket_clean (x := x) (m := m) (l := l) hclean hiso' (by omega) hx (by omega)
    refine ⟨by omega, u.touch (82 + k), mem', .inr hu.touch, hpacket.trans rfl, fun a => ?_⟩
    rw [hget', show (u.withBanks mem).spad.mem = mem from rfl, hget]
    by_cases hax : a < x
    · rw [if_neg (by omega)]
      exact if_congr (by omega) rfl rfl
    · rw [if_neg (show ¬(A ≤ a ∧ a < x) by omega)]
      exact if_congr (by omega) rfl rfl

end

/-! ## BAR2 (R28, R454) -/

section
variable {s : State} {off n : Nat} {data : Option (List Byte)}

/-- The end of what BAR2 maps to DDR: the aperture of the scratchpads is in its top 4 MiB. -/
def State.bar2Top (s : State) : Nat :=
  if s.flag Reg.BAR2_CTRL 24 then 2 ^ s.fld Reg.BAR2_CTRL 0 6 - 2 ^ 22 else 2 ^ s.fld Reg.BAR2_CTRL 0 6

theorem bar2Top_le : s.bar2Top ≤ 2 ^ s.fld Reg.BAR2_CTRL 0 6 := by
  unfold State.bar2Top
  split_ifs
  · exact Nat.sub_le _ _
  · exact le_rfl

theorem exec_bar2Access_inReset (hreset : s.boot.inReset = true) (h : off + n ≤ 2 ^ s.fld Reg.BAR2_CTRL 0 6) :
    exec (.bar2Access off n data) s = .next (s.answer 0) := by
  show execBar2Access off n data s = _
  unfold execBar2Access
  simp only [hreset]
  rw [if_neg (by omega)]
  rfl

/-- An access below the aperture is one of DDR. -/
theorem exec_bar2Access_ddr (hreset : s.boot.inReset = false) (h : off + n ≤ s.bar2Top) :
    exec (.bar2Access off n data) s = .next ((s.answer 0).hostDdr (s.fld Reg.BAR2_CTRL 8 8 * 2 ^ 30 + off) n data) := by
  have htop := bar2Top_le (s := s)
  have hk : min n (s.bar2Top - off) = n := by omega
  show execBar2Access off n data s = _
  unfold execBar2Access
  simp only [hreset]
  rw [if_neg (by omega)]
  show (if min n (s.bar2Top - off) = n then
      ok ((s.answer 0).hostDdr (s.fld Reg.BAR2_CTRL 8 8 * 2 ^ 30 + off) (min n (s.bar2Top - off)) data) else _) = _
  rw [if_pos hk, hk]

/-- An access in the aperture is one of the scratchpads. -/
theorem exec_bar2Access_spad (hreset : s.boot.inReset = false) (hn : 0 < n) (hlo : s.bar2Top ≤ off)
    (hhi : off + n ≤ 2 ^ s.fld Reg.BAR2_CTRL 0 6) {t : State} {v : Nat}
    (h : (s.answer 0).hostSpad (off - s.bar2Top) n data = t.answer v) :
    exec (.bar2Access off n data) s = .next (t.answer v) := by
  have hk : min n (s.bar2Top - off) = 0 := by omega
  have hdata : data.map (·.drop 0) = data := by cases data <;> rfl
  have hddr : ∀ a, (s.answer 0).hostDdr a 0 data = s.answer 0 := fun _ => if_pos rfl
  show execBar2Access off n data s = _
  unfold execBar2Access
  simp only [hreset]
  rw [if_neg (by omega)]
  show (let k := min n (s.bar2Top - off)
    let s1 := (s.answer 0).hostDdr (s.fld Reg.BAR2_CTRL 8 8 * 2 ^ 30 + off) k data
    if k = n then ok s1
    else
      let s2 := (s1.answer 0).hostSpad (off + k - s.bar2Top) (n - k) (data.map (·.drop k))
      ok { s2 with bus := { data := s1.bus.data + s2.bus.data * 256 ^ k, err := s1.bus.err || s2.bus.err } }) = _
  rw [hk]
  simp only [hddr, hdata]
  rw [if_neg (by omega)]
  have h' : ((s.answer 0).answer 0).hostSpad (off + 0 - s.bar2Top) (n - 0) data = t.answer v := h
  rw [h']
  show Host.Outcome.next (t.answer (0 + v * 1)) = _
  rw [Nat.zero_add, Nat.mul_one]

end

/-- Settles O60: the aperture is the top 4 MiB of BAR2, what lies below it is DDR from DDR_BASE up. -/
theorem bar2ReachesDdrAndScratchpads : Obligations.Bar2ReachesDdrAndScratchpads := by
  unfold Obligations.Bar2ReachesDdrAndScratchpads
  refine ⟨fun s off n data hreset h => exec_bar2Access_inReset hreset h, fun s off n hreset => ⟨?_, ?_⟩⟩
  · intro r htop addr hplain hwf
    refine ⟨fun hok => ?_, fun l hl hok => ?_⟩
    · exact ⟨_, (exec_bar2Access_ddr hreset htop).trans
        (congrArg Host.Outcome.next (hostDdr_read (s := s.answer 0) hplain hwf hok)), rfl⟩
    · obtain ⟨t, hwrite, ht, hget⟩ := hostDdr_write (s := s.answer 0) hplain l hl hok
      refine ⟨t.answer 0, (exec_bar2Access_ddr hreset htop).trans (congrArg Host.Outcome.next hwrite), ?_, fun a => ?_⟩
      · rw [ht]; rfl
      · rw [show (t.answer 0).ddr = t.ddr from rfl, hget]
        split_ifs
        · exact get_mapOfBytes l _
        · rfl
  · intro k o hap hsize hk hn ho hoff hiso hgate hbad hsoft hwf
    have hc : s.CleanBank .hostMmio k := ⟨hgate, hbad, hsoft⟩
    have hoff' : off = s.bar2Top + k * 2 ^ 18 + o := hoff
    have htop : s.bar2Top = 2 ^ s.fld Reg.BAR2_CTRL 0 6 - 2 ^ 22 := if_pos hap
    have hin : off + n ≤ 2 ^ s.fld Reg.BAR2_CTRL 0 6 := by
      have hsize' : 2 ^ 22 ≤ 2 ^ s.fld Reg.BAR2_CTRL 0 6 := hsize
      generalize 2 ^ s.fld Reg.BAR2_CTRL 0 6 = size at htop hsize' ⊢
      omega
    have hbase : off - s.bar2Top = k * 2 ^ 18 + o := by omega
    refine ⟨?_, fun l hl => ?_⟩
    · have hread := hostSpad_read hc hiso hn ho hwf
      rw [← hbase] at hread
      refine (exec_bar2Access_spad hreset hn (by omega) hin hread).trans ?_
      rw [hbase, State.bankRun, Nat.add_sub_cancel_left]
      rfl
    · obtain ⟨mem, hwrite, hget⟩ := hostSpad_write hc hiso hn ho l hl
      rw [← hbase] at hwrite
      exact ⟨_, exec_bar2Access_spad hreset hn (by omega) hin hwrite, rfl, hget⟩

end Sys2Proof.Machine

/-!
What the boot ROM's writes and the training of the ports leave as it was (R180, R291, R374, R391, R457).
-/

namespace Sys2Proof.Machine

/-! ## A register write -/

section
variable (s : State)

/-- A write of a register changes no other, but for what records change. -/
theorem rd_csrWrite_other (init : Initiator) (off v r : Nat) (p : FieldSpec → Bool) (lock : Bool) (code : Nat)
    (h : r ≠ off) (hn : r ∉ noteRegs) : (s.csrWrite init off v p lock code).2.rd r = s.rd r := by
  have hclamped : ∀ (l : List (Nat × Nat × Nat)) (t : State),
      (l.foldl (fun t c => t.clamped init off c.1 c.2.1 v c.2.2) t).rd r = t.rd r := by
    intro l
    induction l with
    | nil => exact fun _ => rfl
    | cons c l ih => exact fun t => (ih _).trans (rd_queueRecord t _ r hn)
  unfold State.csrWrite
  cases regAt off with
  | none =>
    show (s.reservedAccess init off).rd r = s.rd r
    unfold State.reservedAccess
    split
    · exact rd_reject s _ _ _ r hn
    · exact rd_reject s _ _ _ r hn
  | some spec =>
    dsimp only
    split
    · exact rd_record s _ _ _ _ r hn
    · split
      · exact rd_reject s _ _ _ r hn
      · dsimp only
        split
        · rw [rd_reject _ _ _ _ r hn, hclamped, rd_wr_other s _ _ _ h]
        · rw [hclamped, rd_wr_other s _ _ _ h]

/-- A write that nothing forbids, no field being locked or the Warden's own, puts the word together that the fields take. -/
theorem csrWrite_free (init : Initiator) (off v code : Nat) (spec : RegSpec) (hspec : regAt off = some spec)
    (hrww : spec.fields.any (fun f => decide (f.acc = .rww)) = false) (hn : off ∉ noteRegs) :
    ∃ t, s.csrWrite init off v (fun _ => false) false code = (true, t) ∧
      t.rd off = s.wordAfter spec.fields off v false % 2 ^ 32 := by
  have hclamped : ∀ (l : List (Nat × Nat × Nat)) (t : State),
      (l.foldl (fun t c => t.clamped init off c.1 c.2.1 v c.2.2) t).rd off = t.rd off := by
    intro l
    induction l with
    | nil => exact fun _ => rfl
    | cons c l ih => exact fun t => (ih _).trans (rd_queueRecord t _ off hn)
  refine ⟨(s.corrections spec.fields off v false).foldl (fun t c => t.clamped init off c.1 c.2.1 v c.2.2)
    (s.wr off (s.wordAfter spec.fields off v false)), ?_, ?_⟩
  · unfold State.csrWrite
    rw [hspec]
    dsimp only
    rw [hrww, Bool.false_and, Bool.false_and, if_neg Bool.false_ne_true]
    simp
  · rw [hclamped, rd_wr_same]

end

/-! ## What stays -/

/-- BOOT_STAT and the causes of the dispatcher: what boot shows. -/
def bootShows : List Nat := [Reg.BOOT_STAT, Reg.DISP_INT_STAT]

/-- Those and BAR2_CTRL. -/
def bootKeeps : List Nat := [Reg.BOOT_STAT, Reg.DISP_INT_STAT, Reg.BAR2_CTRL]

/-- The registers of `keep` stay, and so does every part of the device but the link layer and the lines of its ports, their
exchanges of time, Shale and the handovers of the banks. -/
def State.Booted (keep : List Nat) (s t : State) : Prop :=
  t = { s with csr := t.csr, faults := t.faults, tx := t.tx, links := t.links, ports := t.ports, lines := t.lines
               time := t.time, shale := t.shale, spad := { s.spad with handover := t.spad.handover } } ∧
    ∀ off ∈ keep, t.rd off = s.rd off

section
variable {s t u : State} {keep : List Nat}

theorem State.Booted.refl : s.Booted keep s := ⟨rfl, fun _ _ => rfl⟩

theorem State.Booted.trans (h : s.Booted keep t) (h' : t.Booted keep u) : s.Booted keep u :=
  ⟨Eq.trans h'.1 (by rw [h.1]), fun off hoff => (h'.2 off hoff).trans (h.2 off hoff)⟩

theorem State.Booted.mono {keep' : List Nat} (h : s.Booted keep t) (hk : ∀ off ∈ keep', off ∈ keep) : s.Booted keep' t :=
  ⟨h.1, fun off hoff => h.2 off (hk off hoff)⟩

theorem State.Booted.foldl {α : Type} (f : State → α → State) (h : ∀ s a, State.Booted keep s (f s a)) (l : List α) (s : State) :
    State.Booted keep s (l.foldl f s) :=
  foldl_rel (State.Booted keep) (fun _ => .refl) (fun _ _ _ => State.Booted.trans) f h l s

theorem State.Noted.booted (h : s.Noted t) (hk : ∀ off ∈ keep, t.rd off = s.rd off) : s.Booted keep t :=
  ⟨Eq.trans h (by rw [show t.links = s.links by rw [h], show t.ports = s.ports by rw [h], show t.lines = s.lines by rw [h],
    show t.time = s.time by rw [h], show t.shale = s.shale by rw [h], show t.spad = s.spad by rw [h]]), hk⟩

theorem State.Booted.boot (h : s.Booted keep t) : t.boot = s.boot := by rw [h.1]
theorem State.Booted.fuses (h : s.Booted keep t) : t.fuses = s.fuses := by rw [h.1]
theorem State.Booted.badger (h : s.Booted keep t) : t.badger = s.badger := by rw [h.1]
theorem State.Booted.ddr (h : s.Booted keep t) : t.ddr = s.ddr := by rw [h.1]
theorem State.Booted.rc (h : s.Booted keep t) : t.rc = s.rc := by rw [h.1]
theorem State.Booted.mem (h : s.Booted keep t) : t.spad.mem = s.spad.mem := by rw [h.1]

end

section
variable (s : State) {keep : List Nat}

theorem booted_setFld (off l w v : Nat) (h : off ∉ keep) : s.Booted keep (s.setFld off l w v) :=
  (noted_setFld s off l w v).booted fun r hr => rd_setFld_other s off l w v r fun hro => h (hro ▸ hr)

theorem booted_setFlag (off i : Nat) (b : Bool) (h : off ∉ keep) : s.Booted keep (s.setFlag off i b) :=
  booted_setFld s off i 1 _ h

theorem booted_count (off l w k : Nat) (h : off ∉ keep) : s.Booted keep (s.count off l w k) := booted_setFld s off l w _ h

theorem booted_modLink (p : Nat) (f : Link → Link) : s.Booted keep (s.modLink p f) := ⟨rfl, fun _ _ => rfl⟩
theorem booted_modPort (p : Nat) (f : Port → Port) : s.Booted keep (s.modPort p f) := ⟨rfl, fun _ _ => rfl⟩
theorem booted_modLine (p : Nat) (f : Line → Line) : s.Booted keep (s.modLine p f) := ⟨rfl, fun _ _ => rfl⟩
theorem booted_modTime (f : TimeBase → TimeBase) : s.Booted keep (s.modTime f) := ⟨rfl, fun _ _ => rfl⟩
theorem booted_modSh (f : Shale → Shale) : s.Booted keep (s.modSh f) := ⟨rfl, fun _ _ => rfl⟩
theorem booted_handover (f : Spad → Map (Option (Nat × Bool))) :
    s.Booted keep (s.modSpad fun x => { x with handover := f x }) := ⟨rfl, fun _ _ => rfl⟩
theorem booted_emit (l : List TxItem) : s.Booted keep (s.emit l) := ⟨rfl, fun _ _ => rfl⟩

theorem bootKeeps_apart (off : Nat) (h : off ∈ bootKeeps) : off = 0x28 ∨ off = 0xB0_1020 ∨ off = 0x10 := by
  simpa [bootKeeps] using h

theorem bootKeeps_not_noteRegs (off : Nat) (h : off ∈ bootKeeps) : off ∉ noteRegs := by
  have := bootKeeps_apart off h
  exact not_mem_noteRegs (by omega)

theorem booted_record (a b c d : Nat) : s.Booted bootKeeps (s.record a b c d) :=
  (noted_record s a b c d).booted fun r hr => rd_record s a b c d r (bootKeeps_not_noteRegs r hr)

theorem booted_irqEdges (s0 : State) (l : List Nat) : s.Booted bootKeeps (State.irqEdges s0 s l) :=
  (noted_irqEdges s s0 l).booted fun r hr => rd_irqEdges s s0 l r (bootKeeps_not_noteRegs r hr)

theorem booted_csrWrite (init : Initiator) (off v : Nat) (p : FieldSpec → Bool) (lock : Bool) (code : Nat)
    (hk : ∀ r ∈ keep, r ∈ bootKeeps) (h : off ∉ keep) : s.Booted keep (s.csrWrite init off v p lock code).2 :=
  (noted_csrWrite s init off v p lock code).booted fun r hr =>
    rd_csrWrite_other s init off v r p lock code (fun hro => h (hro ▸ hr)) (bootKeeps_not_noteRegs r (hk r hr))

/-! ## The ports train (R180) -/

theorem portStat_apart (p : Nat) : Reg.PORT_STAT p ∉ bootKeeps := fun h => by
  have h' : 0x50_0008 + p * 0x1000 = 0x28 ∨ 0x50_0008 + p * 0x1000 = 0xB0_1020 ∨ 0x50_0008 + p * 0x1000 = 0x10 :=
    bootKeeps_apart _ h
  omega

theorem portEvents_apart (p : Nat) : Reg.PORT_EVENTS p ∉ bootKeeps := fun h => by
  have h' : 0x50_0010 + p * 0x1000 = 0x28 ∨ 0x50_0010 + p * 0x1000 = 0xB0_1020 ∨ 0x50_0010 + p * 0x1000 = 0x10 :=
    bootKeeps_apart _ h
  omega

theorem laneStat_apart (p n : Nat) : Reg.LANE_STAT p n ∉ bootKeeps := fun h => by
  have h' : 0x50_0100 + p * 0x1000 + n * 0x40 = 0x28 ∨ 0x50_0100 + p * 0x1000 + n * 0x40 = 0xB0_1020 ∨
      0x50_0100 + p * 0x1000 + n * 0x40 = 0x10 := bootKeeps_apart _ h
  omega

theorem booted_setLogical (p active : Nat) : s.Booted bootKeeps (s.setLogical p active) :=
  State.Booted.foldl _ (fun t n => booted_setFld t _ _ _ _ (laneStat_apart p n)) _ s

theorem booted_timePortDown (p : Nat) : s.Booted bootKeeps (s.timePortDown p) := booted_modTime s _

theorem booted_portOff (p : Nat) : s.Booted bootKeeps (s.portOff p) :=
  (booted_setFld s _ 30 2 0 (portStat_apart p)).trans <| (booted_setFld _ _ 8 20 0 (portStat_apart p)).trans <|
    (booted_setLogical _ p 0).trans (booted_timePortDown _ p)

theorem booted_sendTraining (p : Nat) : s.Booted bootKeeps (s.sendTraining p) := by
  unfold State.sendTraining State.sendTseq
  split
  · exact booted_emit s _
  · split
    · exact .refl
    · exact booted_emit s _

theorem booted_startTraining (p : Nat) (first : Bool) : s.Booted bootKeeps (s.startTraining p first) := by
  unfold State.startTraining
  split
  · exact .refl
  · refine State.Booted.trans (t := if (first || (s.link p).peerDown) = true then _ else _) ?_ <| (booted_portOff _ p).trans <|
      (booted_setFlag _ _ _ _ (portStat_apart p)).trans <| (booted_modPort _ p _).trans <| (booted_modLine _ p _).trans <|
      (booted_modLink _ p _).trans (booted_sendTraining _ p)
    split
    · exact booted_modLink s p _
    · exact booted_count s _ _ _ _ (portEvents_apart p)

/-! ## SP0-SP3 and MB00 (R374, R391) -/

theorem booted_writeSpad (init : Initiator) (k v : Nat) : s.Booted bootKeeps (s.writeSpad init (Reg.SPAD_OWNER k) v) := by
  have hoff : Reg.SPAD_OWNER k ∉ bootKeeps := fun h => by
    have h' : 0xE0_0000 + k * 4 = 0x28 ∨ 0xE0_0000 + k * 4 = 0xB0_1020 ∨ 0xE0_0000 + k * 4 = 0x10 := bootKeeps_apart _ h
    omega
  generalize Reg.SPAD_OWNER k = off at hoff ⊢
  have hwrite := booted_csrWrite s init off v (fun _ => false) false 0x0C03 (fun _ h => h) hoff
  unfold State.writeSpad
  generalize s.csrWrite init off v (fun _ => false) false 0x0C03 = x at hwrite ⊢
  obtain ⟨done, t⟩ := x
  dsimp only at hwrite ⊢
  split
  · split
    · exact booted_record s _ _ _ _
    · split
      · exact hwrite
      · split
        · exact hwrite
        · exact hwrite.trans <| (booted_setFld t _ _ _ _ hoff).trans <| (booted_setFlag _ _ _ _ hoff).trans <|
            (booted_setFlag _ _ _ _ hoff).trans (booted_handover _ _)
  · exact hwrite

theorem booted_writeMailbox (init : Initiator) (m v : Nat) : s.Booted bootKeeps (s.writeMailbox init (Reg.MB_CFG m) v) := by
  have hoff : Reg.MB_CFG m ∉ bootKeeps := fun h => by
    have h' : 0xC0_0000 + m * 0x10 = 0x28 ∨ 0xC0_0000 + m * 0x10 = 0xB0_1020 ∨ 0xC0_0000 + m * 0x10 = 0x10 := bootKeeps_apart _ h
    omega
  generalize Reg.MB_CFG m = off at hoff ⊢
  have hwrite : ∀ p, s.Booted bootKeeps (s.csrWrite init off v p false 0x0B0B).2 := fun p =>
    booted_csrWrite s init off v p false 0x0B0B (fun _ h => h) hoff
  unfold State.writeMailbox
  dsimp only
  split
  · split
    · exact booted_record s _ _ _ _
    · exact (hwrite _).trans (booted_irqEdges _ _ _)
  · exact hwrite _

theorem booted_serveHost : s.Booted bootKeeps s.serveHost :=
  (State.Booted.foldl _ (fun t k => booted_writeSpad t (.core 0) k 8) (List.range 4) s).trans
    (booted_writeMailbox _ (.core 0) 0 (2 ^ 30))

theorem booted_takeBanks : s.Booted bootKeeps s.takeBanks := by
  refine State.Booted.foldl _ (fun t k => ?_) (List.range 4) s
  split
  · exact .refl
  · exact booted_writeSpad t _ k 0

end
end Sys2Proof.Machine

/-!
Boot: the writes that open BAR2, the loads of Shale that the boot ROM starts, and the judgement of an image (R455-R460).
-/

namespace Sys2Proof.Machine

/-- What boot does leaves more registers as they were than the ones it shows. -/
theorem bootShows_sub (off : Nat) (h : off ∈ bootShows) : off ∈ bootKeeps := by
  simp only [bootShows, bootKeeps, List.mem_cons, List.not_mem_nil, or_false] at h ⊢
  omega

/-! ## BAR2_CTRL (R28, R457) -/

/-- The fields of BAR2_CTRL. -/
def bar2Fields : List FieldSpec :=
  [⟨31, 1, .w1s, 0, .no⟩, ⟨24, 1, .rw, 0, .no⟩, ⟨8, 8, .rw, 0, .ddrBase⟩, ⟨0, 6, .rwl, 0x22, .rng 30 38⟩]

theorem regAt_bar2 : (regAt Reg.BAR2_CTRL).map RegSpec.fields = some bar2Fields := by decide +kernel

section
variable (s : State)

/-- What an unlocked write of BAR2_CTRL leaves in LOCK, the enable of the aperture and SIZE. -/
theorem wordAfter_bar2 (v : Nat) (hsize : 30 ≤ bits v 0 6 ∧ bits v 0 6 ≤ 38) :
    let w := s.wordAfter bar2Fields Reg.BAR2_CTRL v false
    bits w 31 1 = (s.fld Reg.BAR2_CTRL 31 1 ||| bits v 31 1) % 2 ^ 1 ∧ bits w 24 1 = bits v 24 1 ∧ bits w 0 6 = bits v 0 6 := by
  have h24 : bits v 24 1 % 2 ^ 1 = bits v 24 1 := Nat.mod_mod_of_dvd _ dvd_rfl
  have h0 : bits v 0 6 % 2 ^ 6 = bits v 0 6 := Nat.mod_mod_of_dvd _ dvd_rfl
  have hrng : (if bits v 0 6 < 30 then 30 else if 38 < bits v 0 6 then 38 else bits v 0 6) = bits v 0 6 := by
    rw [if_neg (by omega), if_neg (by omega)]
  obtain ⟨base, hbase⟩ : ∃ base, s.wordAfter bar2Fields Reg.BAR2_CTRL v false =
      putBits (putBits (putBits (putBits (s.rd Reg.BAR2_CTRL) 31 1 (s.fld Reg.BAR2_CTRL 31 1 ||| bits v 31 1)) 24 1
        (bits v 24 1)) 0 6 (if bits v 0 6 < 30 then 30 else if 38 < bits v 0 6 then 38 else bits v 0 6)) 8 8 base := ⟨_, rfl⟩
  rw [hbase, hrng]
  refine ⟨?_, ?_, ?_⟩
  · rw [bits_putBits_other _ 8 8 base 31 1 (by decide), bits_putBits_other _ 0 6 _ 31 1 (by decide),
      bits_putBits_other _ 24 1 _ 31 1 (by decide), bits_putBits_same]
  · rw [bits_putBits_other _ 8 8 base 24 1 (by decide), bits_putBits_other _ 0 6 _ 24 1 (by decide), bits_putBits_same, h24]
  · rw [bits_putBits_other _ 8 8 base 0 6 (by decide), bits_putBits_same, h0]

/-- A write of BAR2_CTRL is one of its fields, and of the causes that it asserts. -/
theorem writeDevice_bar2 (init : Initiator) (v : Nat) :
    s.writeDevice init Reg.BAR2_CTRL v =
      (let x := s.csrWrite init Reg.BAR2_CTRL v (fun _ => false) (s.flag Reg.BAR2_CTRL 31) 0x1009
       if x.1 then State.irqEdges s x.2 [19] else x.2) := by
  unfold State.writeDevice
  rw [if_neg (by decide), if_neg (fun h => absurd h.1 (by decide))]
  have himg : (decide (Reg.IMG_CFG ≤ Reg.BAR2_CTRL) && decide (Reg.BAR2_CTRL ≤ Reg.IMG_PROBE_ID) &&
      decide (s.rc.state ≠ .loading)) = false := rfl
  simp only [himg]
  generalize s.csrWrite init Reg.BAR2_CTRL v (fun _ => false) (s.flag Reg.BAR2_CTRL 31) 0x1009 = x
  obtain ⟨done, t⟩ := x
  cases done
  · rfl
  · rfl

/-- A write of BAR2_CTRL leaves the rest of what boot shows. -/
theorem booted_writeBar2 (init : Initiator) (v : Nat) : s.Booted bootShows (s.writeDevice init Reg.BAR2_CTRL v) := by
  have hwrite := booted_csrWrite s init Reg.BAR2_CTRL v (fun _ => false) (s.flag Reg.BAR2_CTRL 31) 0x1009 bootShows_sub
    (by decide)
  rw [writeDevice_bar2]
  dsimp only
  split
  · exact hwrite.trans ((booted_irqEdges _ s [19]).mono bootShows_sub)
  · exact hwrite

theorem bits_one (n i : Nat) : bits n i 1 = (n.testBit i).toNat := by
  rw [bits, Nat.toNat_testBit, Nat.shiftRight_eq_div_pow, pow_one]

/-- A bit that reads the same as a field is the same bit. -/
theorem flag_eq_of_bits {s t : State} {off i : Nat} (h : bits (t.rd off) i 1 = bits (s.rd off) i 1) :
    t.flag off i = s.flag off i := by
  rw [bits_one, bits_one] at h
  exact Bool.eq_iff_iff.2 (by rw [State.flag, State.flag, ← Bool.toNat_eq_one, ← Bool.toNat_eq_one, h])

/-- While BAR2_CTRL is unlocked, a write takes effect. -/
theorem writeBar2_unlocked (init : Initiator) (v : Nat) (hsize : 30 ≤ bits v 0 6 ∧ bits v 0 6 ≤ 38)
    (hlock : s.flag Reg.BAR2_CTRL 31 = false) :
    let t := s.writeDevice init Reg.BAR2_CTRL v
    bits (t.rd Reg.BAR2_CTRL) 31 1 = bits v 31 1 ∧ bits (t.rd Reg.BAR2_CTRL) 24 1 = bits v 24 1 ∧
      bits (t.rd Reg.BAR2_CTRL) 0 6 = bits v 0 6 := by
  have hnote : Reg.BAR2_CTRL ∉ noteRegs := bootKeeps_not_noteRegs _ (by decide)
  obtain ⟨spec, hspec, hfields⟩ := Option.map_eq_some_iff.1 regAt_bar2
  obtain ⟨u, hu, hrd⟩ := csrWrite_free s init Reg.BAR2_CTRL v 0x1009 spec hspec (by rw [hfields]; decide) hnote
  have ht : (s.writeDevice init Reg.BAR2_CTRL v).rd Reg.BAR2_CTRL = s.wordAfter bar2Fields Reg.BAR2_CTRL v false % 2 ^ 32 := by
    rw [writeDevice_bar2, hlock, hu]
    exact (rd_irqEdges u s [19] _ hnote).trans (hrd.trans (by rw [hfields]))
  have hold : s.fld Reg.BAR2_CTRL 31 1 = 0 := (bits_one _ 31).trans (congrArg Bool.toNat hlock)
  obtain ⟨h31, h24, h0⟩ := wordAfter_bar2 s v hsize
  dsimp only
  rw [ht, bits_mod _ 31 1 32 (by decide), bits_mod _ 24 1 32 (by decide), bits_mod _ 0 6 32 (by decide), h31, h24, h0, hold,
    Nat.zero_or]
  exact ⟨Nat.mod_mod_of_dvd _ dvd_rfl, rfl, rfl⟩

theorem booted_bootBar2 : s.Booted bootShows s.bootBar2 :=
  (booted_writeBar2 s _ _).trans <| (booted_writeBar2 _ _ _).trans (booted_writeBar2 _ _ _)

/-- The three writes of order 3 of R457 open BAR2: SIZE, then the aperture, then LOCK. -/
theorem bootBar2_opens (h : s.flag Reg.BAR2_CTRL 31 = false) :
    s.bootBar2.flag Reg.BAR2_CTRL 31 = true ∧ s.bootBar2.flag Reg.BAR2_CTRL 24 = true ∧ s.bootBar2.fld Reg.BAR2_CTRL 0 6 = 0x22 := by
  have put : ∀ (t : State) (lsb w x : Nat), t.flag Reg.BAR2_CTRL 31 = false →
      bits (putBits (t.rd Reg.BAR2_CTRL) lsb w x) 0 6 = 0x22 → _ := fun t lsb w x hlock hv =>
    writeBar2_unlocked t (.core 0) (putBits (t.rd Reg.BAR2_CTRL) lsb w x) (by rw [hv]; decide) hlock
  obtain ⟨a31, -, a0⟩ := put s 0 6 0x22 h (bits_putBits_same _ 0 6 0x22)
  set a := s.writeDevice (.core 0) Reg.BAR2_CTRL (putBits (s.rd Reg.BAR2_CTRL) 0 6 0x22) with ha
  rw [bits_putBits_other _ 0 6 _ 31 1 (by decide)] at a31
  rw [bits_putBits_same, show 0x22 % 2 ^ 6 = 0x22 from rfl] at a0
  have hlock : a.flag Reg.BAR2_CTRL 31 = false := (flag_eq_of_bits a31).trans h
  obtain ⟨b31, b24, b0⟩ := put a 24 1 1 hlock (by rw [bits_putBits_other _ 24 1 _ 0 6 (by decide), a0])
  set b := a.writeDevice (.core 0) Reg.BAR2_CTRL (putBits (a.rd Reg.BAR2_CTRL) 24 1 1) with hb
  rw [bits_putBits_other _ 24 1 _ 31 1 (by decide)] at b31
  rw [bits_putBits_same] at b24
  rw [bits_putBits_other _ 24 1 _ 0 6 (by decide), a0] at b0
  have hlock' : b.flag Reg.BAR2_CTRL 31 = false := (flag_eq_of_bits b31).trans hlock
  obtain ⟨c31, c24, c0⟩ := put b 31 1 1 hlock' (by rw [bits_putBits_other _ 31 1 _ 0 6 (by decide), b0])
  rw [bits_putBits_same, bits_one] at c31
  rw [bits_putBits_other _ 31 1 _ 24 1 (by decide), b24, bits_one] at c24
  rw [bits_putBits_other _ 31 1 _ 0 6 (by decide), b0] at c0
  exact ⟨Bool.toNat_eq_one.1 c31, Bool.toNat_eq_one.1 c24, c0⟩

/-! ## Loads of Shale that boot starts (R291, R457) -/

theorem shCtrl_apart : Reg.SH_LOAD_CTRL ∉ bootKeeps := by decide
theorem shStat_apart : Reg.SH_LOAD_STAT ∉ bootKeeps := by decide

/-- A load from flash or over the chain reads no DDR as it starts. -/
theorem booted_shStart (h : s.fld Reg.SH_LOAD_CTRL 29 2 ≠ 1) : s.Booted bootKeeps s.shStart := by
  have hstart : ∀ f, s.Booted bootKeeps (((s.setFlag Reg.SH_LOAD_STAT 31 true).setFld Reg.SH_LOAD_STAT 0 16 0).modSh f) :=
    fun f => (booted_setFlag s _ 31 true shStat_apart).trans <| (booted_setFld _ _ 0 16 0 shStat_apart).trans (booted_modSh _ f)
  unfold State.shStart
  split
  · exact booted_record s _ _ _ _
  · dsimp only
    split
    · exact (hstart _).trans (booted_emit _ _)
    · exact hstart _

/-- The fields of SH_LOAD_CTRL. -/
def shCtrlFields : List FieldSpec := [⟨31, 1, .wo, 0, .no⟩, ⟨29, 2, .rw, 0, .tgt 3 3 1⟩, ⟨0, 1, .rw, 0, .no⟩]

theorem regAt_shCtrl : (regAt Reg.SH_LOAD_CTRL).map RegSpec.fields = some shCtrlFields := by decide +kernel

/-- SRC takes what is written to it, but for the reserved code. -/
theorem wordAfter_shCtrl (v : Nat) (h : bits v 29 2 ≠ 3) :
    bits (s.wordAfter shCtrlFields Reg.SH_LOAD_CTRL v false) 29 2 = bits v 29 2 := by
  have hword : s.wordAfter shCtrlFields Reg.SH_LOAD_CTRL v false =
      putBits (putBits (putBits (s.rd Reg.SH_LOAD_CTRL) 31 1 (bits v 31 1)) 29 2
        (if 3 ≤ bits v 29 2 ∧ bits v 29 2 ≤ 3 then 1 else bits v 29 2)) 0 1 (bits v 0 1) := rfl
  rw [hword, if_neg (by omega), bits_putBits_other _ 0 1 _ 29 2 (by decide), bits_putBits_same]
  exact Nat.mod_mod_of_dvd _ dvd_rfl

theorem writeShale_load (init : Initiator) (v : Nat) (h : bits v 29 2 ≠ 3) :
    ∃ t, s.Booted bootKeeps t ∧ t.fld Reg.SH_LOAD_CTRL 29 2 = bits v 29 2 ∧
      s.writeShale init Reg.SH_LOAD_CTRL v = if v.testBit 31 then t.shStart else t := by
  have hnote : Reg.SH_LOAD_CTRL ∉ noteRegs := not_mem_noteRegs (by decide)
  obtain ⟨spec, hspec, hfields⟩ := Option.map_eq_some_iff.1 regAt_shCtrl
  obtain ⟨u, hu, hrd⟩ := csrWrite_free s init Reg.SH_LOAD_CTRL v 0x0810 spec hspec (by rw [hfields]; decide) hnote
  have hwrite := booted_csrWrite s init Reg.SH_LOAD_CTRL v (fun _ => false) false 0x0810 (fun _ h => h) shCtrl_apart
  rw [hu] at hwrite
  refine ⟨u.setFlag Reg.SH_LOAD_CTRL 31 false, hwrite.trans (booted_setFlag u _ 31 false shCtrl_apart), ?_, ?_⟩
  · rw [fld_setFlag_apart u _ 31 29 2 false (by decide) (by decide), State.fld, hrd, bits_mod _ 29 2 32 (by decide), hfields,
      wordAfter_shCtrl s v h]
  · have hlocked : (s.flag Reg.SH_LOAD_STAT 31 && (decide (Reg.SH_LOAD_CTRL = Reg.SH_LOAD_ADDR_LO) ||
        decide (Reg.SH_LOAD_CTRL = Reg.SH_LOAD_ADDR_HI) || decide (Reg.SH_LOAD_CTRL = Reg.SH_SCRUB_CFG) ||
        decide (Reg.SH_LOAD_CTRL = Reg.SH_GOLD_BASE) || decide (Reg.SH_LOAD_CTRL = Reg.STARTUP_SEQ))) = false :=
      Bool.and_false _
    unfold State.writeShale
    simp only [hlocked, hu]
    rfl

/-- The loads that boot starts leave all but Shale. -/
theorem booted_bootShale (src : Nat) (h : src = 0 ∨ src = 2) : s.Booted bootKeeps (s.bootShale src) := by
  have hbits : bits (2 ^ 31 + src * 2 ^ 29) 29 2 = src := by rcases h with rfl | rfl <;> rfl
  obtain ⟨t, hbooted, hsrc, hwrite⟩ := writeShale_load s (.core 0) (2 ^ 31 + src * 2 ^ 29) (by omega)
  unfold State.bootShale
  rw [hwrite]
  refine State.Booted.trans ?_ (booted_modSh _ _)
  split
  · exact hbooted.trans (booted_shStart t (by omega))
  · exact hbooted

/-! ## The boot ROM serves the host (R457, R460) -/

theorem booted_romServes : s.Booted bootShows s.romServes := by
  unfold State.romServes
  split
  · exact .refl
  · refine (booted_bootBar2 s).trans (State.Booted.trans ?_ ((booted_serveHost _).mono bootShows_sub))
    split
    · exact (booted_bootShale _ 2 (.inr rfl)).mono bootShows_sub
    · exact .refl

/-- In HOST and CHAIN modes the boot ROM opens BAR2. -/
theorem romServes_opens (hmode : s.bootMode ≠ 0) (h : s.flag Reg.BAR2_CTRL 31 = false) :
    s.romServes.flag Reg.BAR2_CTRL 31 = true ∧ s.romServes.flag Reg.BAR2_CTRL 24 = true ∧
      s.romServes.fld Reg.BAR2_CTRL 0 6 = 0x22 := by
  obtain ⟨h31, h24, h0⟩ := bootBar2_opens s h
  have hrest : s.bootBar2.Booted bootKeeps s.romServes := by
    unfold State.romServes
    rw [if_neg hmode]
    refine State.Booted.trans ?_ (booted_serveHost _)
    split
    · exact booted_bootShale _ 2 (.inr rfl)
    · exact .refl
  have hbar := hrest.2 Reg.BAR2_CTRL (by decide)
  exact ⟨(flag_congr hbar 31).trans h31, (flag_congr hbar 24).trans h24, (fld_congr hbar 0 6).trans h0⟩

end
end Sys2Proof.Machine

/-!
The rows of boot: BOOT, DDR_TRAINING_DONE and IMAGE_FETCH_DONE (R452, R455-R457, R459, R460).
-/

namespace Sys2Proof.Machine

section
variable (s : State)

theorem bootStat_not_noteRegs : Reg.BOOT_STAT ∉ noteRegs := bootKeeps_not_noteRegs _ (by decide)

theorem core_modCore_same (k : Nat) (f : Core → Core) : (s.modCore k f).core k = f (s.core k) := Map.get_set_same _ _ _ _

theorem rd_modCore (k : Nat) (f : Core → Core) (off : Nat) : (s.modCore k f).rd off = s.rd off := rfl

theorem core_setFld (off l w v k : Nat) : (s.setFld off l w v).core k = s.core k := rfl

/-- A core and a register change, and nothing else. -/
theorem setFld_modCore_keeps (k : Nat) (f : Core → Core) (off l w v : Nat) :
    ((s.modCore k f).setFld off l w v).boot = s.boot ∧ ((s.modCore k f).setFld off l w v).fuses = s.fuses ∧
      ((s.modCore k f).setFld off l w v).spad = s.spad ∧ ((s.modCore k f).setFld off l w v).ddr = s.ddr ∧
      ((s.modCore k f).setFld off l w v).rc = s.rc := ⟨rfl, rfl, rfl, rfl, rfl⟩

theorem core_congr {s t : State} (h : t.badger = s.badger) (k : Nat) : t.core k = s.core k := by
  unfold State.core
  rw [h]

theorem bootMode_congr {s t : State} (h : t.fuses = s.fuses) : t.bootMode = s.bootMode := by
  unfold State.bootMode
  rw [h]

/-! ## The end of a reset -/

/-- The reset ends with the record of its cause waiting, and the dispatcher in ORDERLY with cause START. -/
theorem resetEnds_shows :
    ∃ r, s.resetEnds.boot = { s.boot with begun := true, inReset := false, announce := some r } ∧
      r.cls = cInfo ∧ r.code = 0x1001 ∧ r.detail = s.boot.cause % 2 ^ 32 ∧
      s.resetEnds.flag Reg.DISP_INT_STAT 1 = true ∧ State.Noted { s with boot := s.resetEnds.boot } s.resetEnds ∧
      s.resetEnds.rd Reg.BAR2_CTRL = s.rd Reg.BAR2_CTRL := by
  set u : State := { s with boot := { s.boot with
    begun := true, inReset := false, announce := some (s.recordNow cInfo bRunctl 0x1001 s.boot.cause) } } with hu
  have hnote : Reg.DISP_INT_STAT ∉ noteRegs := bootKeeps_not_noteRegs _ (by decide)
  have hbar : Reg.BAR2_CTRL ∉ noteRegs := bootKeeps_not_noteRegs _ (by decide)
  have hends : s.resetEnds = (u.record cInfo bBadger 0x0B04 0).raise 11 1 := rfl
  have hnoted : u.Noted s.resetEnds := hends ▸ (noted_record u _ _ _ _).trans (noted_raise _ _ _)
  have hboot : s.resetEnds.boot = u.boot := by rw [hnoted]
  refine ⟨_, hboot.trans rfl, rfl, rfl, rfl, ?_, by rw [hboot]; exact hnoted, ?_⟩
  · rw [hends]
    exact flag_raise _ 11 1 Reg.DISP_INT_STAT rfl hnote (by decide)
  · rw [hends, rd_raise _ 11 1 _ hbar (by decide), rd_record u _ _ _ _ _ hbar]
    rfl

/-- The ports train, and the Warden starts in the boot ROM. -/
theorem romStarts_runs :
    ∃ t, s.Booted bootKeeps t ∧
      s.romStarts = (t.modCore 0 fun c => { c with pc := 0x40_4000_0000 }).setFld Reg.BOOT_STAT 29 3 1 := by
  refine ⟨_, ?_, rfl⟩
  refine State.Booted.trans ?_ (State.Booted.foldl _ (fun t p => booted_startTraining t p true) (List.range 8) _)
  split
  · exact booted_record s _ _ _ _
  · exact .refl

end

/-- BOOT, after the straps of a reset by DEV_RST have been sampled. -/
theorem boot_runs (s : State) :
    let t := s.resetEnds.romStarts.romServes
    (∃ r, t.boot = { s.boot with begun := true, inReset := false, announce := some r } ∧
      r.cls = cInfo ∧ r.code = 0x1001 ∧ r.detail = s.boot.cause % 2 ^ 32) ∧
    t.fuses = s.fuses ∧ (t.core 0).pc = 0x40_4000_0000 ∧ t.fld Reg.BOOT_STAT 29 3 = 1 ∧ t.flag Reg.DISP_INT_STAT 1 = true ∧
    t.spad.mem = s.spad.mem ∧ t.ddr = s.ddr ∧ t.rc.state = s.rc.state ∧
    (t.bootMode ≠ 0 → s.flag Reg.BAR2_CTRL 31 = false →
      t.flag Reg.BAR2_CTRL 31 = true ∧ t.flag Reg.BAR2_CTRL 24 = true ∧ t.fld Reg.BAR2_CTRL 0 6 = 0x22) := by
  obtain ⟨r, hboot, hcls, hcode, hdetail, hcause, hnoted, hbar⟩ := resetEnds_shows s
  generalize s.resetEnds = a at hboot hcause hnoted hbar ⊢
  obtain ⟨b, hab, hstarts⟩ := romStarts_runs a
  have hserves := booted_romServes a.romStarts
  have hopens := romServes_opens a.romStarts
  have hdisp : a.romStarts.rd Reg.DISP_INT_STAT = a.rd Reg.DISP_INT_STAT := by
    rw [hstarts, rd_setFld_other _ _ _ _ _ _ (by decide), rd_modCore]
    exact hab.2 _ (by decide)
  have hbar' : a.romStarts.rd Reg.BAR2_CTRL = s.rd Reg.BAR2_CTRL := by
    rw [hstarts, rd_setFld_other _ _ _ _ _ _ (by decide), rd_modCore, ← hbar]
    exact hab.2 _ (by decide)
  have hstage : a.romStarts.fld Reg.BOOT_STAT 29 3 = 1 := by
    rw [hstarts]
    exact fld_setFld_same _ _ 29 3 1 (by decide)
  have hpc : (a.romStarts.core 0).pc = 0x40_4000_0000 := by
    rw [hstarts, core_setFld, core_modCore_same]
  have hkept : a.romStarts.boot = a.boot ∧ a.romStarts.fuses = s.fuses ∧ a.romStarts.spad.mem = s.spad.mem ∧
      a.romStarts.ddr = s.ddr ∧ a.romStarts.rc = s.rc := by
    have hfuses : a.fuses = s.fuses := by rw [hnoted]
    have hmem : a.spad.mem = s.spad.mem := by rw [hnoted]
    have hddr : a.ddr = s.ddr := by rw [hnoted]
    have hrc : a.rc = s.rc := by rw [hnoted]
    obtain ⟨kboot, kfuses, kspad, kddr, krc⟩ :=
      setFld_modCore_keeps b 0 (fun c => { c with pc := 0x40_4000_0000 }) Reg.BOOT_STAT 29 3 1
    rw [hstarts, kboot, kfuses, kspad, kddr, krc]
    exact ⟨hab.boot, hab.fuses.trans hfuses, hab.mem.trans hmem, hab.ddr.trans hddr, hab.rc.trans hrc⟩
  obtain ⟨hboot', hfuses, hmem, hddr, hrc⟩ := hkept
  generalize a.romStarts = c at *
  refine ⟨⟨r, hserves.boot.trans (hboot'.trans hboot), hcls, hcode, hdetail⟩, hserves.fuses.trans hfuses, ?_, ?_, ?_,
    hserves.mem.trans hmem, hserves.ddr.trans hddr, congrArg RunCtl.state (hserves.rc.trans hrc), fun hmode hlock => ?_⟩
  · rw [core_congr hserves.badger]
    exact hpc
  · exact (fld_congr (hserves.2 _ (by decide)) 29 3).trans hstage
  · exact (flag_congr (hserves.2 _ (by decide)) 1).trans ((flag_congr hdisp 1).trans hcause)
  · refine hopens ?_ ((flag_congr hbar' 31).trans hlock)
    rw [← bootMode_congr hserves.fuses]
    exact hmode

/-! ## The image runs, or the host is served (R457, R459, R460) -/

section
variable (s : State)

/-- BOOT_STAT as the boot ROM jumps into the image. -/
def State.shownOk (s : State) (key svn : Nat) : State :=
  ((({ s with boot := { s.boot with image := none } } : State).setFld Reg.BOOT_STAT 29 3 3).setFld Reg.BOOT_STAT 26 2 key).setFld
    Reg.BOOT_STAT 20 6 svn

theorem shownOk_keeps (key svn off : Nat) (h : off ≠ Reg.BOOT_STAT) : (s.shownOk key svn).rd off = s.rd off := by
  unfold State.shownOk
  rw [rd_setFld_other _ _ _ _ _ _ h, rd_setFld_other _ _ _ _ _ _ h, rd_setFld_other _ _ _ _ _ _ h]
  rfl

theorem shownOk_stage (key svn : Nat) : (s.shownOk key svn).fld Reg.BOOT_STAT 29 3 = 3 := by
  unfold State.shownOk
  rw [fld_setFld_apart _ _ 20 6 svn 29 3 (by decide) (by decide), fld_setFld_apart _ _ 26 2 key 29 3 (by decide) (by decide),
    fld_setFld_same _ _ 29 3 3 (by decide)]
  rfl

theorem shownOk_ddr (key svn : Nat) : (s.shownOk key svn).flag Reg.BOOT_STAT 28 = s.flag Reg.BOOT_STAT 28 := by
  unfold State.shownOk
  rw [flag_setFld_same _ _ 20 6 svn 28 (by decide), flag_setFld_same _ _ 26 2 key 28 (by decide),
    flag_setFld_same _ _ 29 3 3 28 (by decide)]
  rfl

theorem shownOk_boot (key svn : Nat) : (s.shownOk key svn).boot = { s.boot with image := none } := by
  rw [State.shownOk, setFld_boot, setFld_boot, setFld_boot]
theorem shownOk_spad (key svn : Nat) : (s.shownOk key svn).spad = s.spad := by
  rw [State.shownOk, setFld_spad, setFld_spad, setFld_spad]
theorem shownOk_memory (key svn : Nat) : (s.shownOk key svn).ddr = s.ddr := by
  rw [State.shownOk, setFld_ddr, setFld_ddr, setFld_ddr]

theorem bootFinish_eq (key svn entry : Nat) : ∃ t, (s.shownOk key svn).Noted t ∧
    (∀ off, off ∉ noteRegs → t.rd off = (s.shownOk key svn).rd off) ∧
    s.bootFinish key svn entry = t.modCore 0 fun c => { c with pc := 0x40_1000_0100 + entry } :=
  ⟨_, noted_record _ _ _ _ _, fun off h => rd_record _ _ _ _ _ off h, rfl⟩

/-- BOOT_OK shows, and the Warden is at the entry of the image. -/
theorem bootFinish_runs (key svn entry : Nat) :
    let t := s.bootFinish key svn entry
    t.fld Reg.BOOT_STAT 29 3 = 3 ∧ (t.core 0).pc = 0x40_1000_0100 + entry ∧ t.flag Reg.BOOT_STAT 28 = s.flag Reg.BOOT_STAT 28 ∧
      t.boot = { s.boot with image := none } ∧ s.keepsRegs t [Reg.BOOT_STAT] ∧ t.spad = s.spad ∧ t.ddr = s.ddr := by
  obtain ⟨t, hnoted, hrd, hfinish⟩ := bootFinish_eq s key svn entry
  have hstat := hrd _ bootStat_not_noteRegs
  have hboot : t.boot = (s.shownOk key svn).boot := by rw [hnoted]
  have hspad : t.spad = (s.shownOk key svn).spad := by rw [hnoted]
  have hddr : t.ddr = (s.shownOk key svn).ddr := by rw [hnoted]
  rw [hfinish]
  refine ⟨(fld_congr hstat 29 3).trans (shownOk_stage s key svn), ?_, (flag_congr hstat 28).trans (shownOk_ddr s key svn), ?_,
    fun off hoff hn => (hrd off hn).trans (shownOk_keeps s key svn off fun h => hoff (h ▸ List.mem_singleton_self _)), ?_, ?_⟩
  · rw [core_modCore_same]
  · rw [modCore_boot, hboot, shownOk_boot]
  · rw [modCore_spad, hspad, shownOk_spad]
  · rw [modCore_ddr, hddr, shownOk_memory]

theorem verifyImage_error_le (n : Nat) (h : s.verifyImage = .error n) : n < 2 ^ 3 := by
  unfold State.verifyImage at h
  dsimp only at h
  split_ifs at h <;> cases h <;> decide

/-- What the checks of R459 find depends on the banks and the fuses. -/
theorem verifyImage_congr {s t : State} (hspad : t.spad = s.spad) (hfuses : t.fuses = s.fuses) :
    t.verifyImage = s.verifyImage := by
  unfold State.verifyImage State.imageBytes State.partNumber
  rw [hspad, hfuses]

/-- The judgement begins: BOOT_STAT shows it. -/
theorem verifyImage_setFld (off l w v : Nat) : (s.setFld off l w v).verifyImage = s.verifyImage :=
  verifyImage_congr (setFld_spad s off l w v) (setFld_fuses s off l w v)

/-- A good image runs once DDR training has ended, and waits for it before. -/
theorem judgeImage_ok (key svn entry : Nat) (h : s.verifyImage = .ok (key, svn, entry)) :
    s.judgeImage.spad.mem = s.spad.mem ∧ s.judgeImage.ddr = s.ddr ∧
      if s.boot.trained then
        s.judgeImage.fld Reg.BOOT_STAT 29 3 = 3 ∧ (s.judgeImage.core 0).pc = 0x40_1000_0100 + entry
      else s.judgeImage.fld Reg.BOOT_STAT 29 3 = 2 ∧ s.judgeImage.boot.image = some (key, svn, entry) := by
  set u := s.setFld Reg.BOOT_STAT 29 3 2 with hu
  have hstage : u.fld Reg.BOOT_STAT 29 3 = 2 := fld_setFld_same s _ 29 3 2 (by decide)
  obtain ⟨t, ht, hbooted⟩ : ∃ t, t = (if u.bootMode = 0 then u.bootShale 0 else u) ∧ u.Booted bootKeeps t := by
    refine ⟨_, rfl, ?_⟩
    split
    · exact booted_bootShale u 0 (.inl rfl)
    · exact .refl
  have hjudge : s.judgeImage = if t.boot.trained then t.bootFinish key svn entry
      else { t with boot := { t.boot with image := some (key, svn, entry) } } := by
    unfold State.judgeImage
    simp only [verifyImage_setFld, h]
    rw [ht]
  have hmem : t.spad.mem = s.spad.mem := by rw [hbooted.mem, hu, setFld_spad]
  have hddr : t.ddr = s.ddr := by rw [hbooted.ddr, hu, setFld_ddr]
  have htrained : t.boot.trained = s.boot.trained := by rw [hbooted.boot, hu, setFld_boot]
  rw [hjudge, htrained]
  split
  · obtain ⟨hrun, hpc, -, -, -, hspad', hddr'⟩ := bootFinish_runs t key svn entry
    exact ⟨(congrArg Spad.mem hspad').trans hmem, hddr'.trans hddr, hrun, hpc⟩
  · exact ⟨hmem, hddr, (fld_congr (hbooted.2 _ (by decide)) 29 3).trans hstage, rfl⟩

/-- The host is served after a bad image, with the number of the check that failed. -/
theorem judgeImage_error (n : Nat) (h : s.verifyImage = .error n) :
    s.judgeImage.spad.mem = s.spad.mem ∧ s.judgeImage.ddr = s.ddr ∧ s.judgeImage.fld Reg.BOOT_STAT 29 3 = 4 ∧
      s.judgeImage.fld Reg.BOOT_STAT 0 3 = n := by
  set u := (s.setFld Reg.BOOT_STAT 29 3 2).record cConfig bBadger 0x1003 n with hu
  have hjudge : s.judgeImage = ((u.setFld Reg.BOOT_STAT 0 3 n).bootBar2.setFld Reg.BOOT_STAT 29 3 4).serveHost := by
    unfold State.judgeImage
    simp only [verifyImage_setFld, h]
    rfl
  have hu' : (s.setFld Reg.BOOT_STAT 29 3 2).Booted bootKeeps u := booted_record _ _ _ _ _
  have hbar := booted_bootBar2 (u.setFld Reg.BOOT_STAT 0 3 n)
  have hserve := booted_serveHost ((u.setFld Reg.BOOT_STAT 0 3 n).bootBar2.setFld Reg.BOOT_STAT 29 3 4)
  rw [hjudge]
  refine ⟨?_, ?_, ?_, ?_⟩
  · rw [hserve.mem, setFld_spad, hbar.mem, setFld_spad, hu'.mem, setFld_spad]
  · rw [hserve.ddr, setFld_ddr, hbar.ddr, setFld_ddr, hu'.ddr, setFld_ddr]
  · rw [fld_congr (hserve.2 _ (by decide)), fld_setFld_same _ _ 29 3 4 (by decide)]
    rfl
  · rw [fld_congr (hserve.2 _ (by decide)), fld_setFld_apart _ _ 29 3 4 0 3 (by decide) (by decide),
      fld_congr (hbar.2 _ (by decide)), fld_setFld_same _ _ 0 3 n (by decide), Nat.mod_eq_of_lt (verifyImage_error_le s n h)]

end

/-! ## The rows -/

section
variable (s : State)

/-- The straps of a reset by DEV_RST are sampled (R452, R456, R457). -/
def State.sampled (s : State) (straps : Straps) : State :=
  if s.boot.cause = 2 then { s with fuses := { s.fuses with straps := straps } } else s

/-- The straps, and nothing else, may change. -/
theorem sampled_keeps (straps : Straps) :
    s.sampled straps = { s with fuses := { s.fuses with straps := if s.boot.cause = 2 then straps else s.fuses.straps } } := by
  unfold State.sampled
  split <;> rfl

/-- BAR2_CTRL has no reset value of the straps. -/
theorem sampled_bar2 (straps : Straps) : (s.sampled straps).rd Reg.BAR2_CTRL = s.rd Reg.BAR2_CTRL := by
  rw [sampled_keeps]
  exact congrArg BitVec.toNat (Map.get_congr s.csr (regReset_straps _ _ _ (by decide)))

theorem exec_boot (straps : Straps) (hbegun : s.boot.begun = false) (hlow : s.boot.low = false) :
    exec (.boot straps) s = .next (s.sampled straps).resetEnds.romStarts.romServes := by
  show execBoot straps s = _
  unfold execBoot
  rw [if_neg (by rw [hbegun, hlow]; decide)]
  rfl

/-- DDR training ends: BOOT_STAT shows whether it was good. -/
def State.trainingEnds (s : State) (good : Bool) : State :=
  let t := ({ s with boot := { s.boot with trained := true } } : State).setFlag Reg.BOOT_STAT 28 good
  if good then t else t.record cConfig bBadger 0x1004 1

theorem trainingEnds_shows (good : Bool) :
    (s.trainingEnds good).flag Reg.BOOT_STAT 28 = good ∧ s.keepsRegs (s.trainingEnds good) [Reg.BOOT_STAT] ∧
      State.Noted { s with boot := { s.boot with trained := true } } (s.trainingEnds good) := by
  set t := ({ s with boot := { s.boot with trained := true } } : State).setFlag Reg.BOOT_STAT 28 good with ht
  have hends : s.trainingEnds good = if good then t else t.record cConfig bBadger 0x1004 1 := rfl
  have hshows : t.flag Reg.BOOT_STAT 28 = good := flag_setFlag_same _ _ 28 good (by decide)
  have hkeeps : ∀ off, off ∉ [Reg.BOOT_STAT] → t.rd off = s.rd off := fun off hoff =>
    (rd_setFlag_other _ Reg.BOOT_STAT 28 off good fun h => hoff (h ▸ List.mem_singleton_self _)).trans rfl
  have hnoted : State.Noted { s with boot := { s.boot with trained := true } } t := noted_setFlag _ _ _ _
  rw [hends]
  cases good
  · exact ⟨(flag_congr (rd_record t _ _ _ _ _ bootStat_not_noteRegs) 28).trans hshows,
      fun off hoff hn => (rd_record t _ _ _ _ off hn).trans (hkeeps off hoff), hnoted.trans (noted_record t _ _ _ _)⟩
  · exact ⟨hshows, fun off hoff _ => hkeeps off hoff, hnoted⟩

theorem trainingEnds_boot (good : Bool) : (s.trainingEnds good).boot = { s.boot with trained := true } := by
  obtain ⟨-, -, hnoted⟩ := trainingEnds_shows s good
  rw [hnoted]

section
variable (good : Bool) (hbegun : s.boot.begun = true) (htrained : s.boot.trained = false)
include hbegun htrained

theorem exec_ddrTrainingDone_early (himage : s.boot.image = none) :
    exec (.ddrTrainingDone good) s = .next (s.trainingEnds good) := by
  have hboot := trainingEnds_boot s good
  show execDdrTrainingDone good s = _
  unfold execDdrTrainingDone
  rw [if_neg (by rw [hbegun, htrained]; decide)]
  show (match (s.trainingEnds good).boot.image with
    | some (key, svn, entry) => ok ((s.trainingEnds good).bootFinish key svn entry)
    | none => ok (s.trainingEnds good)) = _
  rw [hboot, himage]

/-- An image that waited for the end of DDR training runs. -/
theorem exec_ddrTrainingDone_waiting {key svn entry : Nat} (himage : s.boot.image = some (key, svn, entry)) :
    exec (.ddrTrainingDone good) s = .next ((s.trainingEnds good).bootFinish key svn entry) := by
  have hboot := trainingEnds_boot s good
  show execDdrTrainingDone good s = _
  unfold execDdrTrainingDone
  rw [if_neg (by rw [hbegun, htrained]; decide)]
  show (match (s.trainingEnds good).boot.image with
    | some (key, svn, entry) => ok ((s.trainingEnds good).bootFinish key svn entry)
    | none => ok (s.trainingEnds good)) = _
  rw [hboot, himage]

end

/-- The row of a stage in which the boot ROM runs with a flash. -/
theorem exec_imageFetchDone_flash (l : List Byte) (hbegun : s.boot.begun = true) (hstage : s.fld Reg.BOOT_STAT 29 3 = 1)
    (hmode : s.bootMode = 0) : exec (.imageFetchDone (some l)) s = .next (s.romLoads l).romReads.judgeImage := by
  show execImageFetchDone (some l) s = _
  unfold execImageFetchDone
  dsimp only
  rw [if_neg (by rw [hbegun, hstage]; decide), if_pos ⟨hstage, hmode⟩]

/-- Without soft errors the boot ROM reads what it has written. -/
theorem romReads_romLoads (l : List Byte) (hsoft : s.spad.soft = []) (hbad : s.spad.bad = []) :
    (s.romLoads l).romReads =
      s.withBanks (s.spad.mem.setAll (fun _ => 0) ((List.range (min l.length (2 ^ 20))).zip l)) := by
  have hload : s.romLoads l =
      s.withBanks (s.spad.mem.setAll (fun _ => 0) ((List.range (min l.length (2 ^ 20))).zip l)) := by
    unfold State.romLoads State.modSpad State.withBanks
    simp only [hsoft, hbad, List.filter_nil]
  have hread : ∀ t : State, t.spad.soft = [] → t.spad.bad = [] → t.romReads = t := fun t ht hb => by
    unfold State.romReads
    rw [ht, hb]
    rfl
  rw [hload]
  exact hread _ hsoft hbad

/-- While the boot ROM waits for the host, nothing happens before a word lies in MB00; then it takes SP0-SP3 back. -/
theorem exec_imageFetchDone_waits (image : Option (List Byte)) (hbegun : s.boot.begun = true) (htaking : s.boot.taking = false)
    (hwait : s.fld Reg.BOOT_STAT 29 3 = 4 ∨ (s.fld Reg.BOOT_STAT 29 3 = 1 ∧ s.bootMode ≠ 0)) :
    exec (.imageFetchDone image) s = if (s.mbox 0).full then
      .next (({ s.modMbox 0 (fun m => { m with full := false }) with boot := { s.boot with taking := true } } : State).takeBanks)
    else .next s := by
  have hrun : ¬((!s.boot.begun) = true ∨ (s.fld Reg.BOOT_STAT 29 3 ≠ 1 ∧ s.fld Reg.BOOT_STAT 29 3 ≠ 4)) := by
    rw [hbegun]
    rintro (h | ⟨h1, h4⟩)
    · cases h
    · rcases hwait with h | ⟨h, -⟩
      · exact h4 h
      · exact h1 h
  have hflash : ¬(s.fld Reg.BOOT_STAT 29 3 = 1 ∧ s.bootMode = 0) := by
    rintro ⟨h1, h0⟩
    rcases hwait with h | ⟨-, h⟩
    · omega
    · exact h h0
  show execImageFetchDone image s = _
  unfold execImageFetchDone
  dsimp only
  rw [if_neg hrun, if_neg hflash, htaking, if_neg Bool.false_ne_true]
  cases (s.mbox 0).full
  · rfl
  · rfl

end

/-- Settles O54: what the end of a reset, training, a fetch and the wait for the host each change is said by a lemma of its own;
the frame `Booted` carries what they leave. -/
theorem bootRunsItsOrder : Obligations.BootRunsItsOrder := by
  unfold Obligations.BootRunsItsOrder
  refine fun s => ⟨?_, ?_, ?_, ?_⟩
  · intro straps hbegun hlow
    have hrow := exec_boot s straps hbegun hlow
    have hruns := boot_runs (s.sampled straps)
    have hbar := sampled_bar2 s straps
    generalize (s.sampled straps).resetEnds.romStarts.romServes = t at hrow hruns
    obtain ⟨⟨r, hboot, hcls, hcode, hdetail⟩, hfuses, hpc, hstage, hcause, hmem, hddr, hrc, hopens⟩ := hruns
    rw [sampled_keeps] at hboot hdetail hfuses hmem hddr hrc
    exact ⟨t, r, hrow, hboot, hcls, hcode, hdetail, hfuses, hpc, hstage, hcause, hmem, hddr, hrc,
      fun hmode hlock => hopens hmode ((flag_congr hbar 31).trans hlock)⟩
  · intro hbegun htrained good
    obtain ⟨hshows, hkeeps, hnoted⟩ := trainingEnds_shows s good
    have hboot := trainingEnds_boot s good
    refine ⟨fun himage => ⟨_, exec_ddrTrainingDone_early s good hbegun htrained himage, hshows, hnoted, hkeeps⟩,
      fun key svn entry himage => ?_⟩
    obtain ⟨hrun, hpc, hddr, hboot', hkeeps', -, -⟩ := bootFinish_runs (s.trainingEnds good) key svn entry
    refine ⟨_, exec_ddrTrainingDone_waiting s good hbegun htrained himage, hddr.trans hshows, hrun, hpc, ?_,
      fun off hoff hn => (hkeeps' off hoff hn).trans (hkeeps off hoff hn)⟩
    rw [hboot', hboot]
  · intro l hbegun hstage hmode hsoft hbad placed
    have hplaced : (s.romLoads l).romReads = placed := romReads_romLoads s l hsoft hbad
    refine ⟨placed.judgeImage, ?_, ?_⟩
    · rw [exec_imageFetchDone_flash s l hbegun hstage hmode, hplaced]
    · rcases hv : placed.verifyImage with n | ⟨key, svn, entry⟩
      · obtain ⟨hmem, hddr, h4, hn⟩ := judgeImage_error placed n hv
        exact ⟨hmem, hddr, h4, hn⟩
      · obtain ⟨hmem, hddr, hrun⟩ := judgeImage_ok placed key svn entry hv
        exact ⟨hmem, hddr, hrun⟩
  · intro image hbegun htaking hwait
    have hrow := exec_imageFetchDone_waits s image hbegun htaking hwait
    refine ⟨fun hempty => ?_, fun hfull => ?_⟩
    · rw [hrow, hempty, if_neg Bool.false_ne_true]
    · rw [hfull, if_pos rfl] at hrow
      have htake := booted_takeBanks
        ({ s.modMbox 0 (fun m => { m with full := false }) with boot := { s.boot with taking := true } } : State)
      refine ⟨_, hrow, htake.boot, ?_, htake.mem, htake.ddr⟩
      unfold State.mbox
      rw [htake.badger]
      exact congrArg Mbox.full (Map.get_set_same _ _ _ _)

end Sys2Proof.Machine

/-!
What the operations that neither begin nor end a cycle leave of it: run control's account of the cycle, the clusters, the
state banks, the inbox, the held store, the probes and the accumulators.
-/

namespace Sys2Proof.Machine

/-! ## The view of a cycle -/

/-- Run control's account of the cycle in progress, with the unsealed cycles where they are asked for. -/
structure CycleRun where
  ecn : Nat
  begun : Bool
  fresh : Bool
  executed : Nat
  curBank : Nat
  unsealed : List CycleRec

/-- What a cycle's start and its end set, with the clusters where they are asked for. -/
structure CycleView where
  run : CycleRun
  clusters : Map Cluster
  banks : Map (Map Bool)
  inbox : Map (List (Nat × Bool))
  held : List SlotWord
  probes : Map (Option Deposit)
  fabTrig : Map (Option Deposit)
  acc : Map W128

/-- The account of a run control; `recs`: with its unsealed cycles, which a seal removes. -/
def RunCtl.cycleRun (recs : Bool) (r : RunCtl) : CycleRun :=
  ⟨r.ecn, r.begun, r.fresh, r.executed, r.curBank, if recs then r.unsealed else []⟩

/-- The view of a state; `recs` as above, `cls`: with the clusters, which a cycle's start sets stepping. An operation that leaves
the view alone for every `recs` and `cls` has no part in a cycle; a seal leaves it with `recs` false, a start with `cls` false. -/
def State.cycleView (recs cls : Bool) (s : State) : CycleView :=
  ⟨s.rc.cycleRun recs, if cls then s.clusters else [], s.banks, s.inbox, s.held, s.probes, s.fabTrig, s.acc⟩

section
variable {s t : State} {recs cls : Bool}

/-- Nothing but what lies aside of the view changes. -/
def State.Aside (s t : State) : Prop :=
  t = { t with rc := s.rc, clusters := s.clusters, banks := s.banks, inbox := s.inbox, held := s.held, probes := s.probes
               fabTrig := s.fabTrig, acc := s.acc }

theorem State.Aside.cycleView (h : s.Aside t) : t.cycleView recs cls = s.cycleView recs cls := by rw [h]; rfl
theorem State.Ordered.cycleView (h : s.Ordered t) : t.cycleView recs cls = s.cycleView recs cls := by rw [h]; rfl
theorem State.Noted.cycleView (h : s.Noted t) : t.cycleView recs cls = s.cycleView recs cls :=
  h.traced.woken.ordered.cycleView
theorem State.Powered.cycleView (h : s.Powered t) : t.cycleView recs cls = s.cycleView recs cls := by rw [h]; rfl

/-- A fold of an operation that leaves the view alone leaves it alone. -/
theorem foldl_cycleView {β : Type} (f : State → β → State) (h : ∀ s b, (f s b).cycleView recs cls = s.cycleView recs cls)
    (l : List β) (s : State) : (l.foldl f s).cycleView recs cls = s.cycleView recs cls :=
  foldl_rel (fun s t => t.cycleView recs cls = s.cycleView recs cls) (fun _ => rfl) (fun _ _ _ h h' => h'.trans h) f h l s

/-- So does one that answers something beside the state. -/
theorem foldl_snd_cycleView {α β : Type} (f : α × State → β → α × State)
    (h : ∀ x b, (f x b).2.cycleView recs cls = x.2.cycleView recs cls) (l : List β) (x : α × State) :
    (l.foldl f x).2.cycleView recs cls = x.2.cycleView recs cls := by
  induction l generalizing x with
  | nil => rfl
  | cons b l ih => exact (ih _).trans (h x b)

variable (s)

/-- A choice between two operations that leave the view alone leaves it alone. -/
@[simp] theorem ite_cycleView (p : Prop) [Decidable p] (a b : State) :
    (if p then a else b).cycleView recs cls = if p then a.cycleView recs cls else b.cycleView recs cls :=
  apply_ite (State.cycleView recs cls) p a b

/-! ## Registers, records, trace and domains -/

@[simp] theorem wr_cycleView (off v : Nat) : (s.wr off v).cycleView recs cls = s.cycleView recs cls :=
  State.Aside.cycleView rfl
@[simp] theorem wr64_cycleView (off v : Nat) : (s.wr64 off v).cycleView recs cls = s.cycleView recs cls :=
  State.Aside.cycleView rfl
@[simp] theorem setFld_cycleView (off l w v : Nat) : (s.setFld off l w v).cycleView recs cls = s.cycleView recs cls :=
  State.Aside.cycleView rfl
@[simp] theorem setFlag_cycleView (off i : Nat) (b : Bool) : (s.setFlag off i b).cycleView recs cls = s.cycleView recs cls :=
  State.Aside.cycleView rfl
@[simp] theorem count_cycleView (off l w k : Nat) : (s.count off l w k).cycleView recs cls = s.cycleView recs cls :=
  State.Aside.cycleView rfl
@[simp] theorem raise_cycleView (i b : Nat) : (s.raise i b).cycleView recs cls = s.cycleView recs cls :=
  (noted_raise s i b).cycleView
@[simp] theorem record_cycleView (a b c d : Nat) : (s.record a b c d).cycleView recs cls = s.cycleView recs cls :=
  (noted_record s a b c d).cycleView
@[simp] theorem recordAt_cycleView (a b c d e : Nat) : (s.recordAt a b c d e).cycleView recs cls = s.cycleView recs cls :=
  (noted_recordAt s a b c d e).cycleView
@[simp] theorem cmdStatus_cycleView (a b : Nat) : (s.cmdStatus a b).cycleView recs cls = s.cycleView recs cls :=
  (noted_cmdStatus s a b).cycleView
@[simp] theorem spEmit_cycleView (k : Nat) (l : List Byte) : (s.spEmit k l).cycleView recs cls = s.cycleView recs cls :=
  (traced_spEmit s k l).woken.ordered.cycleView
@[simp] theorem spTrigger_cycleView (k : Nat) : (s.spTrigger k).cycleView recs cls = s.cycleView recs cls :=
  (traced_spTrigger s k).woken.ordered.cycleView
@[simp] theorem touch_cycleView (d : Nat) : (s.touch d).cycleView recs cls = s.cycleView recs cls :=
  State.Aside.cycleView rfl
@[simp] theorem leaveDom_cycleView (d : Nat) : (s.leaveDom d).cycleView recs cls = s.cycleView recs cls :=
  (woken_leaveDom s d).ordered.cycleView
@[simp] theorem dropGoals_cycleView : s.dropGoals.cycleView recs cls = s.cycleView recs cls :=
  (woken_dropGoals s).ordered.cycleView
@[simp] theorem enterOrderly_cycleView (k : Nat) : (s.enterOrderly k).cycleView recs cls = s.cycleView recs cls :=
  (ordered_enterOrderly s k).cycleView

/-! ## Parts of the state that are no part of a cycle -/

@[simp] theorem emit_cycleView (l : List TxItem) : (s.emit l).cycleView recs cls = s.cycleView recs cls :=
  State.Aside.cycleView rfl
@[simp] theorem modLx_cycleView (f : Lynx → Lynx) : (s.modLx f).cycleView recs cls = s.cycleView recs cls :=
  State.Aside.cycleView rfl
@[simp] theorem modAcq_cycleView (f : Acq → Acq) : (s.modAcq f).cycleView recs cls = s.cycleView recs cls :=
  State.Aside.cycleView rfl
@[simp] theorem modRun_cycleView (f : AcqRun → AcqRun) : (s.modRun f).cycleView recs cls = s.cycleView recs cls :=
  State.Aside.cycleView rfl
@[simp] theorem modCry_cycleView (f : Crypt → Crypt) : (s.modCry f).cycleView recs cls = s.cycleView recs cls :=
  State.Aside.cycleView rfl
@[simp] theorem modLink_cycleView (p : Nat) (f : Link → Link) : (s.modLink p f).cycleView recs cls = s.cycleView recs cls :=
  State.Aside.cycleView rfl

/-- A change of run control that leaves its account of the cycle. -/
theorem modRc_cycleView (f : RunCtl → RunCtl) (h : ∀ r, (f r).cycleRun recs = r.cycleRun recs) :
    (s.modRc f).cycleView recs cls = s.cycleView recs cls :=
  congrArg (fun x => { s.cycleView recs cls with run := x }) (h s.rc)

@[simp] theorem modCl_cycleView (k : Nat) (f : Cluster → Cluster) :
    (s.modCl k f).cycleView recs false = s.cycleView recs false := rfl
@[simp] theorem modRec_cycleView (n : Nat) (f : CycleRec → CycleRec) :
    (s.modRec n f).cycleView false cls = s.cycleView false cls := rfl
@[simp] theorem modRuns_cycleView (f : AcqRun → AcqRun) :
    (s.modRuns f).cycleView false cls = s.cycleView false cls := rfl

/-! ## FATAL -/

@[simp] theorem cancelCmd_cycleView : s.cancelCmd.cycleView recs cls = s.cycleView recs cls := by
  unfold State.cancelCmd
  split
  · rfl
  · exact cmdStatus_cycleView _ _ _

@[simp] theorem sendUpAs_cycleView (k g : Nat) (m : Msg) : (s.sendUpAs k g m).cycleView recs cls = s.cycleView recs cls := by
  unfold State.sendUpAs
  split <;> simp

@[simp] theorem sendUp_cycleView (k : Nat) (m : Msg) : (s.sendUp k m).cycleView recs cls = s.cycleView recs cls :=
  sendUpAs_cycleView s k _ m

@[simp] theorem net_cycleView (n : Net) : ({ s with net := n } : State).cycleView recs cls = s.cycleView recs cls :=
  State.Aside.cycleView rfl

@[simp] theorem sendDeviceDown_cycleView (k : Nat) : (s.sendDeviceDown k).cycleView recs cls = s.cycleView recs cls :=
  State.Aside.cycleView rfl

@[simp] theorem enterFatal_cycleView : s.enterFatal.cycleView recs cls = s.cycleView recs cls := by
  unfold State.enterFatal
  split
  · rfl
  · dsimp only
    rw [enterOrderly_cycleView, net_cycleView, sendDeviceDown_cycleView, raise_cycleView, modRc_cycleView _ _ (by exact fun _ => rfl)]
    simp

@[simp] theorem fatal_cycleView (a b d : Nat) : (s.fatal a b d).cycleView recs cls = s.cycleView recs cls := by
  unfold State.fatal
  dsimp only
  split <;> simp

end
end Sys2Proof.Machine

/-!
Accesses to DDR, to the scratchpads and to the message-port rings have no part in a cycle.
-/

namespace Sys2Proof.Machine

variable (s : State) {recs cls : Bool}

/-! ## Judgement (R398) -/

@[simp] theorem reservedAccess_cycleView (who : Initiator) (a : Nat) :
    (s.reservedAccess who a).cycleView recs cls = s.cycleView recs cls := (noted_reservedAccess s who a).cycleView

@[simp] theorem deny_cycleView (r : Nat) (who : Initiator) (op : DdrOp) (a : Nat) :
    (s.deny r who op a).cycleView recs cls = s.cycleView recs cls := by simp [State.deny]

@[simp] theorem judge_cycleView (who : Initiator) (op : DdrOp) (a : Nat) :
    (s.judge who op a).2.cycleView recs cls = s.cycleView recs cls := by
  unfold State.judge
  split
  · split
    · rfl
    · exact reservedAccess_cycleView s _ _
  · split
    · rfl
    · split
      · rfl
      · dsimp only
        split
        · simp
        · split
          · simp
          · split <;> split <;> simp

@[simp] theorem judgeAll_cycleView (who : Initiator) (op : DdrOp) (a n : Nat) :
    (s.judgeAll who op a n).2.cycleView recs cls = s.cycleView recs cls := by
  unfold State.judgeAll
  refine foldl_snd_cycleView _ (fun acc p => ?_) _ _
  split
  · rfl
  · have hj := judge_cycleView acc.2 (recs := recs) (cls := cls) who op p.1
    split <;> rename_i hq <;> rw [hq] at hj <;> exact hj

/-! ## The counter tree (R401-R408) -/

@[simp] theorem free_cycleView : s.free.2.cycleView recs cls = s.cycleView recs cls :=
  State.Aside.cycleView rfl
@[simp] theorem retag_cycleView (lo hi : Nat) (f : Option LineTag) :
    (s.retag lo hi f).cycleView recs cls = s.cycleView recs cls :=
  State.Aside.cycleView rfl

@[simp] theorem fatalIntegrity_cycleView (who : Initiator) (node : Bool) (a : Nat) :
    (s.fatalIntegrity who node a).cycleView recs cls = s.cycleView recs cls := by simp [State.fatalIntegrity]

@[simp] theorem showBusy_cycleView : s.showBusy.cycleView recs cls = s.cycleView recs cls := by
  unfold State.showBusy
  split <;> simp

@[simp] theorem startRekey_cycleView (r : Nat) (e : Bool) :
    (s.startRekey r e).cycleView recs cls = s.cycleView recs cls := by
  unfold State.startRekey
  dsimp only
  split
  · rw [raise_cycleView, record_cycleView, setFld_cycleView]; split <;> rfl
  · split
    · rw [setFld_cycleView]; split <;> rfl
    · simp

@[simp] theorem noteEnd_cycleView (r c : Nat) : (s.noteEnd r c).cycleView recs cls = s.cycleView recs cls := by
  unfold State.noteEnd; split <;> simp

@[simp] theorem setNodeCtr_cycleView (r l i v : Nat) : (s.setNodeCtr r l i v).cycleView recs cls = s.cycleView recs cls := by
  unfold State.setNodeCtr; dsimp only; split <;> rfl

@[simp] theorem dirtyNode_cycleView (r l i : Nat) : (s.dirtyNode r l i).cycleView recs cls = s.cycleView recs cls := by
  unfold State.dirtyNode; dsimp only; split <;> rfl

@[simp] theorem writeNode_cycleView (r l i : Nat) : (s.writeNode r l i).cycleView recs cls = s.cycleView recs cls := by
  unfold State.writeNode
  dsimp only
  rw [noteEnd_cycleView]
  split <;> simp

@[simp] theorem writeBackNode_cycleView (line r : Nat) (x : Option (Nat × Nat)) :
    (s.writeBackNode line r x).cycleView recs cls = s.cycleView recs cls := by
  unfold State.writeBackNode
  rcases x with _ | ⟨l, i⟩
  · rfl
  · dsimp only; split <;> simp

@[simp] theorem evictNode_cycleView (line : Nat) : (s.evictNode line).cycleView recs cls = s.cycleView recs cls := by
  unfold State.evictNode
  split
  · split <;> simp
  · rfl

@[simp] theorem cacheNode_cycleView (line r : Nat) (keep : List Nat) :
    (s.cacheNode line r keep).cycleView recs cls = s.cycleView recs cls := by
  unfold State.cacheNode
  dsimp only
  split <;> simp

@[simp] theorem reread_cycleView (who : Initiator) (node : Bool) (line : Nat) :
    (s.reread who node line).cycleView recs cls = s.cycleView recs cls := by
  unfold State.reread; dsimp only; split <;> simp

@[simp] theorem loadNode_cycleView (r l i : Nat) : (s.loadNode r l i).cycleView recs cls = s.cycleView recs cls := by
  unfold State.loadNode; dsimp only; split <;> rfl

@[simp] theorem fetchNode_cycleView (who : Initiator) (r l i : Nat) (keep : List Nat) :
    (s.fetchNode who r l i keep).2.cycleView recs cls = s.cycleView recs cls := by
  unfold State.fetchNode
  dsimp only
  split
  · simp
  · split
    · split <;> simp
    · split
      · split
        · split <;> simp
        · simp
      · rfl

@[simp] theorem fetchPath_cycleView (who : Initiator) (r line : Nat) :
    (s.fetchPath who r line).2.cycleView recs cls = s.cycleView recs cls := by
  unfold State.fetchPath
  dsimp only
  refine foldl_snd_cycleView _ (fun x n => ?_) _ _
  split <;> simp

@[simp] theorem checkLine_cycleView (who : Initiator) (r line : Nat) :
    (s.checkLine who r line).2.cycleView recs cls = s.cycleView recs cls := by
  have h := fetchPath_cycleView s (recs := recs) (cls := cls) who r line
  unfold State.checkLine
  split <;> rename_i hq <;> rw [hq] at h
  · exact h
  · dsimp only
    split <;> simpa using h

@[simp] theorem checkLines_cycleView (who : Initiator) (r a n : Nat) :
    (s.checkLines who r a n).2.cycleView recs cls = s.cycleView recs cls := by
  unfold State.checkLines
  refine foldl_snd_cycleView _ (fun x k => ?_) _ _
  split <;> simp

@[simp] theorem bumpCtr_cycleView (r line : Nat) : (s.bumpCtr r line).cycleView recs cls = s.cycleView recs cls := by
  unfold State.bumpCtr
  dsimp only
  rw [noteEnd_cycleView]
  split <;> split <;> simp

/-! ## Reads and writes of DDR -/

theorem getPart_cycleView (who : Initiator) (a : Nat) (acc : Except (DdrErr × Nat) (Map Byte) × State) (p : Nat × Nat) :
    (getPart who a acc p).2.cycleView recs cls = acc.2.cycleView recs cls := by
  unfold getPart
  split
  · rfl
  · dsimp only
    split
    · rfl
    · rename_i r _
      have h : (if acc.2.regionMode r = 2 then acc.2.checkLines who r p.1 p.2 else (none, acc.2)).2.cycleView recs cls =
          acc.2.cycleView recs cls := by split <;> simp
      split <;> rename_i hq <;> rw [hq] at h <;> exact h

@[simp] theorem ddrGet_cycleView (who : Initiator) (op : DdrOp) (a n : Nat) :
    (s.ddrGet who op a n).2.cycleView recs cls = s.cycleView recs cls := by
  have hj := judgeAll_cycleView s (recs := recs) (cls := cls) who op a n
  unfold State.ddrGet
  split <;> rename_i u hq <;> rw [hq] at hj
  · exact hj
  · have h := foldl_snd_cycleView (recs := recs) (cls := cls) (getPart who a) (getPart_cycleView who a)
      (u.judgeParts who a n) (.ok [], u)
    split <;> rename_i hr <;> exact (congrArg (fun x => x.2.cycleView recs cls) hr).symm.trans (h.trans hj)

@[simp] theorem ddrRead_cycleView (who : Initiator) (a n : Nat) :
    (s.ddrRead who a n).2.2.cycleView recs cls = s.cycleView recs cls := by
  have h := ddrGet_cycleView s (recs := recs) (cls := cls) who .read a n
  unfold State.ddrRead
  split <;> rename_i hq <;> rw [hq] at h <;> exact h

@[simp] theorem ddrMap_cycleView (who : Initiator) (a n : Nat) :
    (s.ddrMap who a n).2.cycleView recs cls = s.cycleView recs cls := by
  have h := ddrGet_cycleView s (recs := recs) (cls := cls) who .read a n
  unfold State.ddrMap
  split <;> rename_i hq <;> rw [hq] at h <;> exact h

@[simp] theorem ddr_cycleView (d : Map Byte) : ({ s with ddr := d } : State).cycleView recs cls = s.cycleView recs cls :=
  State.Aside.cycleView rfl

@[simp] theorem convertLine_cycleView (r line : Nat) : (s.convertLine r line).cycleView recs cls = s.cycleView recs cls := by
  unfold State.convertLine; split <;> rfl

@[simp] theorem mergeLine_cycleView (r line : Nat) (l : List (Nat × Byte)) :
    (s.mergeLine r line l).cycleView recs cls = s.cycleView recs cls := by
  unfold State.mergeLine
  split
  · rfl
  · rw [ddr_cycleView]
    split
    · split <;> rfl
    · exact convertLine_cycleView s r line

@[simp] theorem storeInt_cycleView (who : Initiator) (r line : Nat) (l : List (Nat × Byte)) :
    (s.storeInt who r line l).2.cycleView recs cls = s.cycleView recs cls := by
  have h : (if wholeLine l then s.fetchPath who r line else s.checkLine who r line).2.cycleView recs cls =
      s.cycleView recs cls := by split <;> simp
  unfold State.storeInt
  split
  · rfl
  · split
    · rfl
    · split <;> rename_i hq <;> rw [hq] at h
      · exact h
      · dsimp only
        rw [ddr_cycleView, bumpCtr_cycleView]
        split
        · exact h
        · exact (convertLine_cycleView _ _ _).trans h

@[simp] theorem storePart_cycleView (r base a n : Nat) (m : Map Byte) :
    (s.storePart r base a n m).cycleView recs cls = s.cycleView recs cls := by
  unfold State.storePart
  dsimp only
  rw [mergeLine_cycleView]
  split
  · exact mergeLine_cycleView s _ _ _
  · exact mergeLine_cycleView s _ _ _

@[simp] theorem storeLines_cycleView (who : Initiator) (r base a n : Nat) (m : Map Byte) :
    (s.storeLines who r base a n m).2.cycleView recs cls = s.cycleView recs cls := by
  unfold State.storeLines
  refine foldl_snd_cycleView _ (fun x p => ?_) _ _
  split <;> simp

@[simp] theorem ddrPut_cycleView (who : Initiator) (op : DdrOp) (a n : Nat) (m : Map Byte) :
    (s.ddrPut who op a n m).2.cycleView recs cls = s.cycleView recs cls := by
  unfold State.ddrPut
  refine foldl_snd_cycleView _ (fun acc p => ?_) _ _
  split
  · rfl
  · have hj := judge_cycleView acc.2 (recs := recs) (cls := cls) who op p.1
    split <;> rename_i hq <;> rw [hq] at hj
    · exact hj
    · split
      · exact hj
      · split
        · exact (storeLines_cycleView _ _ _ _ _ _ _).trans hj
        · exact (foldl_cycleView _ (fun u q => storePart_cycleView u _ _ _ _ _) _ _).trans hj

@[simp] theorem ddrWrite_cycleView (who : Initiator) (a n v : Nat) :
    (s.ddrWrite who a n v).2.cycleView recs cls = s.cycleView recs cls := by
  have h := ddrPut_cycleView s (recs := recs) (cls := cls) who .write a n (mapOfBytes (bytesOfNat v n))
  unfold State.ddrWrite
  split <;> rename_i hq <;> rw [hq] at h <;> exact h

@[simp] theorem ddrFill_cycleView (who : Initiator) (a n : Nat) (m : Map Byte) :
    (s.ddrFill who a n m).2.cycleView recs cls = s.cycleView recs cls := by
  have h := ddrPut_cycleView s (recs := recs) (cls := cls) who .write a n m
  unfold State.ddrFill
  split <;> rename_i hq <;> rw [hq] at h <;> exact h

/-! ## The scratchpads (R389-R392) -/

@[simp] theorem spadRefuse_cycleView (who : Initiator) (k off : Nat) (g : SpadGate) :
    (s.spadRefuse who k off g).cycleView recs cls = s.cycleView recs cls := (noted_spadRefuse who k off g).cycleView

@[simp] theorem spadCheck_cycleView (who : Initiator) (w : Nat) :
    (s.spadCheck who w).2.cycleView recs cls = s.cycleView recs cls := by
  unfold State.spadCheck
  dsimp only
  split
  · exact (noted_spadUncorrectable who _ _).cycleView
  · split
    · exact (noted_spadCorrected who _ _).cycleView
    · rfl

@[simp] theorem spadCheckAll_cycleView (who : Initiator) (l : List Nat) :
    (s.spadCheckAll who l).2.cycleView recs cls = s.cycleView recs cls :=
  foldl_snd_cycleView (fun x w => (x.1 || (x.2.spadCheck who w).1, (x.2.spadCheck who w).2))
    (fun x w => spadCheck_cycleView x.2 who w) l (false, s)

@[simp] theorem spadRead_cycleView (who : Initiator) (k off n : Nat) :
    (s.spadRead who k off n).2.2.cycleView recs cls = s.cycleView recs cls := by
  unfold State.spadRead
  split
  · have h := spadCheckAll_cycleView (s.touch (82 + k)) (recs := recs) (cls := cls) who (bankWords (k * 2 ^ 18 + off) n)
    dsimp only
    split <;> rename_i hq <;> rw [hq] at h <;> exact h
  · exact spadRefuse_cycleView s who k off _

@[simp] theorem spadWriteWord_cycleView (who : Initiator) (w : Nat) (l : List (Nat × Byte)) :
    (s.spadWriteWord who w l).2.cycleView recs cls = s.cycleView recs cls := by
  unfold State.spadWriteWord
  dsimp only
  split
  · rfl
  · have h := spadCheck_cycleView s (recs := recs) (cls := cls) who w
    split <;> rename_i hq <;> rw [hq] at h <;> exact h

@[simp] theorem spadWrite_cycleView (who : Initiator) (k off : Nat) (l : List (Nat × Byte)) :
    (s.spadWrite who k off l).2.cycleView recs cls = s.cycleView recs cls := by
  unfold State.spadWrite
  split
  · refine (foldl_snd_cycleView _ (fun x w => ?_) _ _).trans (touch_cycleView s _)
    exact spadWriteWord_cycleView x.2 who w _
  · exact spadRefuse_cycleView s who k off _

@[simp] theorem aliasWord_cycleView (set : Bool) (who : Initiator) (k off : Nat) (l : List Byte) :
    (s.aliasWord set who k off l).2.cycleView recs cls = s.cycleView recs cls := by
  have h := spadCheckAll_cycleView s (recs := recs) (cls := cls) who (bankWords (k * 2 ^ 18 + off) l.length)
  unfold State.aliasWord
  dsimp only
  split <;> rename_i hq <;> rw [hq] at h <;> exact h

@[simp] theorem aliasPut_cycleView (set : Bool) (who : Initiator) (k off : Nat) (l : List Byte) :
    (s.aliasPut set who k off l).2.cycleView recs cls = s.cycleView recs cls := by
  unfold State.aliasPut
  split
  · split
    · refine (foldl_snd_cycleView _ (fun x p => ?_) _ _).trans (touch_cycleView s _)
      exact aliasWord_cycleView x.2 set who k p.1 _
    · exact record_cycleView s _ _ _ _
  · exact spadRefuse_cycleView s who k off _

/-! ## The internal space and the message-port rings (R249-R251) -/

@[simp] theorem memRead_cycleView (who : Initiator) (a n : Nat) :
    (s.memRead who a n).2.2.cycleView recs cls = s.cycleView recs cls := by
  unfold State.memRead
  split
  · have h := ddrMap_cycleView s (recs := recs) (cls := cls) who a n
    split <;> rename_i hq <;> rw [hq] at h <;> exact h
  · split
    · split <;> simp
    · split
      · split <;> rfl
      · simp

@[simp] theorem memWrite_cycleView (who : Initiator) (a : Nat) (l : List Byte) :
    (s.memWrite who a l).2.cycleView recs cls = s.cycleView recs cls := by
  unfold State.memWrite
  split
  · have h := ddrFill_cycleView s (recs := recs) (cls := cls) who a l.length (mapOfBytes l)
    split <;> rename_i hq <;> rw [hq] at h <;> exact h
  · dsimp only
    split
    · rfl
    · split <;> simp

@[simp] theorem mpWord_cycleView (base cfg pos : Nat) :
    (s.mpWord base cfg pos).2.cycleView recs cls = s.cycleView recs cls := by
  unfold State.mpWord
  dsimp only
  split
  · simp
  · have h := memRead_cycleView s (recs := recs) (cls := cls) .hostMmio (s.mpAddr base cfg pos) 8
    split <;> rename_i hq <;> rw [hq] at h <;> exact h

@[simp] theorem mpPut_cycleView (base cfg pos : Nat) (w : W64) :
    (s.mpPut base cfg pos w).2.cycleView recs cls = s.cycleView recs cls := by
  unfold State.mpPut
  dsimp only
  split <;> simp

end Sys2Proof.Machine

/-!
The start of a cycle (R14, R16 order 2): what its operations leave of the view, with the unsealed cycles and without the clusters.
-/

namespace Sys2Proof.Machine

variable (s : State) {recs cls : Bool}

/-! ## Operations of a start and of a commit -/

@[simp] theorem setWaits_cycleView (l : List WaitKind) : (s.setWaits l).cycleView recs cls = s.cycleView recs cls := by
  unfold State.setWaits
  dsimp only
  rw [modRc_cycleView _ _ (by exact fun _ => rfl), foldl_cycleView _ fun u k => ?_, foldl_cycleView _ fun u w => ?_]
  · exact count_cycleView u _ _ _ _
  · split
    · exact count_cycleView u _ _ _ _
    · rfl

@[simp] theorem sayFaults_cycleView (n : Nat) : (s.sayFaults n).cycleView recs cls = s.cycleView recs cls := by
  unfold State.sayFaults
  split
  · rfl
  · rw [modRc_cycleView _ _ (by exact fun _ => rfl), recordAt_cycleView]

@[simp] theorem lxSpillError_cycleView (b k a : Nat) : (s.lxSpillError b k a).cycleView recs cls = s.cycleView recs cls :=
  fatal_cycleView s _ _ _

/-! ## The Lynx channels (R261, R265, R269) -/

@[simp] theorem noteLag_cycleView (b n : Nat) : (s.noteLag b n).cycleView recs cls = s.cycleView recs cls := by
  unfold State.noteLag
  simp

@[simp] theorem lxSample_cycleView (b n : Nat) : (s.lxSample b n).cycleView recs cls = s.cycleView recs cls := by
  have h := ddrRead_cycleView s (recs := recs) (cls := cls) .lynx (s.lxCycAddr b n) 8
  unfold State.lxSample
  split
  · rfl
  · dsimp only
    split
    · split <;> rename_i hq <;> rw [hq] at h
      · exact (lxSpillError_cycleView _ _ _ _).trans h
      · rw [modLx_cycleView, wr64_cycleView]; exact h
    · split <;> exact modLx_cycleView s _

@[simp] theorem lynxCycleStart_cycleView : s.lynxCycleStart.cycleView recs cls = s.cycleView recs cls := by
  have h : ((List.range 8).foldl (fun u b => State.lxSample u b s.rc.ecn) (s.modLx fun l => { l with present := [] })).cycleView
      recs cls = s.cycleView recs cls :=
    (foldl_cycleView _ (fun u b => lxSample_cycleView u b _) _ _).trans (modLx_cycleView s _)
  unfold State.lynxCycleStart
  dsimp only
  split
  · exact (foldl_cycleView _ (fun u b => noteLag_cycleView u b _) _ _).trans h
  · exact h

@[simp] theorem lxWord_cycleView (b p : Nat) : (s.lxWord b p).2.cycleView recs cls = s.cycleView recs cls := by
  unfold State.lxWord
  split
  · rfl
  · split
    · have h := ddrRead_cycleView s (recs := recs) (cls := cls) .lynx (s.lxSpillAddr b p) 8
      dsimp only
      split <;> rename_i hq <;> rw [hq] at h
      · exact (lxSpillError_cycleView _ _ _ _).trans h
      · exact h
    · rfl

@[simp] theorem lxHead_cycleView (b : Nat) (w : Bool) : (s.lxHead b w).2.cycleView recs cls = s.cycleView recs cls := by
  unfold State.lxHead
  dsimp only
  split <;> simp

/-! ## The input windows (R55, R56) -/

@[simp] theorem headWord_cycleView (src : Nat) (w : Bool) : (s.headWord src w).2.cycleView recs cls = s.cycleView recs cls := by
  unfold State.headWord
  dsimp only
  split
  · split <;> simp
  · split <;> simp

@[simp] theorem noteSeen_cycleView (h p : Nat) : (s.noteSeen h p).cycleView recs cls = s.cycleView recs cls := by
  unfold State.noteSeen
  dsimp only
  split
  · rfl
  · exact modRc_cycleView _ _ fun _ => rfl


theorem latchSource_cycleView (l : List (Nat × Nat)) (src : Nat) :
    (State.latchSource l s src).cycleView recs false = s.cycleView recs false := by
  have hread : ∀ p : Bool, (if p then s.headWord src false else (none, s)).2.cycleView recs false =
      s.cycleView recs false := fun p => by split <;> simp
  unfold State.latchSource
  dsimp only
  generalize Option.all _ _ = p
  have h := hread p
  generalize (if p = true then s.headWord src false else (none, s)) = x at h ⊢
  have hlog : ∀ (q : Prop) [Decidable q] (e : LatchEntry),
      (if q then x.2 else x.2.modRc fun r => { r with latch := r.latch ++ [e] }).cycleView recs false =
        s.cycleView recs false := fun q _ e => by
    rw [ite_cycleView, modRc_cycleView _ _ (by exact fun _ => rfl), ite_self, h]
  rw [foldl_cycleView _ fun u k => modCl_cycleView u _ _]
  split
  · rw [ite_cycleView, noteSeen_cycleView, ite_self]
    exact hlog _ _
  · exact hlog _ _

theorem latchWindows_cycleView : s.latchWindows.cycleView recs false = s.cycleView recs false := by
  unfold State.latchWindows
  dsimp only
  exact (foldl_cycleView _ (fun u src => latchSource_cycleView u _ src) _ _).trans rfl

/-! ## The other parts of a start (R132, R135, R211, R319) -/

@[simp] theorem noteReplay_cycleView : s.noteReplay.cycleView recs cls = s.cycleView recs cls := by
  unfold State.noteReplay
  split
  · rfl
  · dsimp only
    split <;> simp only [recordAt_cycleView, raise_cycleView, setFld_cycleView] <;> exact modRc_cycleView _ _ fun _ => rfl

@[simp] theorem retireMap_cycleView (n : Nat) : (s.retireMap n).cycleView recs cls = s.cycleView recs cls := by
  unfold State.retireMap
  split
  · split <;> rfl
  · rfl

theorem swapAt_cycleView (n : Nat) : (s.swapAt n).cycleView recs cls = s.cycleView recs cls := by
  unfold State.swapAt State.swapBanks
  split
  · dsimp only
    split
    · rfl
    · have h : ∀ m : Net, ({ s with net := m }.raise 6 5).cycleView recs cls = s.cycleView recs cls := fun m =>
        (raise_cycleView _ 6 5).trans (net_cycleView s m)
      split
      · exact (retireMap_cycleView _ _).trans ((net_cycleView _ _).trans (h _))
      · exact (net_cycleView _ _).trans (h _)
  · rfl

@[simp] theorem snapError_cycleView (k off : Nat) : (s.snapError k off).cycleView recs cls = s.cycleView recs cls := by
  unfold State.snapError
  rw [record_cycleView, setFlag_cycleView, modRc_cycleView _ _ (by exact fun _ => rfl)]

theorem modRc_snap_cycleView (f : RunCtl → Option SnapJob) :
    (s.modRc fun r => { r with snap := f r }).cycleView recs cls = s.cycleView recs cls := modRc_cycleView s _ fun _ => rfl

theorem armSnapshot_cycleView : s.armSnapshot.cycleView recs cls = s.cycleView recs cls := by
  unfold State.armSnapshot
  extract_lets n slot a
  have hu := ddrRead_cycleView s (recs := recs) (cls := cls) .engine (a + 0xE0) 4
  split
  · split
    · simp
    · split
      rename_i bad v u hq
      rw [hq] at hu
      have hw := ddrWrite_cycleView u (recs := recs) (cls := cls) .engine (a + 0xE0) 4 0
      split
      · exact (snapError_cycleView u _ _).trans hu
      · split
        rename_i bad' w hq'
        rw [hq'] at hw
        split
        · exact (snapError_cycleView w _ _).trans (hw.trans hu)
        · rw [setFlag_cycleView, modRc_snap_cycleView, ite_cycleView, setFld_cycleView, ite_self]
          exact hw.trans hu
  · rfl

@[simp] theorem applyBind_cycleView (n : Nat) (b : AcqBindKind) : (s.applyBind n b).cycleView recs cls = s.cycleView recs cls := by
  unfold State.applyBind
  split <;> simp

theorem applyBinds_cycleView (n : Nat) (kept l : List AcqBind) :
    (State.applyBinds n kept l s).cycleView recs cls = s.cycleView recs cls := by
  induction l generalizing kept s with
  | nil => exact modAcq_cycleView s _
  | cons b l ih =>
    unfold State.applyBinds
    dsimp only
    split
    · exact ih s _
    · rw [ih]; simp

theorem acqCycleStart_cycleView : s.acqCycleStart.cycleView recs cls = s.cycleView recs cls := applyBinds_cycleView s _ _ _

/-! ## Step 0 -/

@[simp] theorem frameWord_cycleView (p slot : Nat) (m w : W64) : (s.frameWord p slot m w).cycleView recs cls = s.cycleView recs cls := by
  unfold State.frameWord
  simp

@[simp] theorem flushAssembly_cycleView : s.flushAssembly.cycleView recs cls = s.cycleView recs cls := by
  unfold State.flushAssembly
  dsimp only
  refine foldl_cycleView _ (fun u e => ?_) _ _
  split <;> simp

theorem advance_cycleView (k start : Nat) : (s.advance k start).cycleView recs false = s.cycleView recs false := by
  unfold State.advance
  dsimp only
  split <;> (rw [modCl_cycleView]; split <;> rfl)

theorem beginSteps_cycleView : s.beginSteps.cycleView recs false = s.cycleView recs false := by
  unfold State.beginSteps
  dsimp only
  rw [ite_cycleView, flushAssembly_cycleView, ite_self, foldl_cycleView _ fun u k => ?_, modRc_cycleView _ _ (by exact fun _ => rfl)]
  split
  · rw [advance_cycleView, modCl_cycleView]
  · rfl

theorem noteBankWait_cycleView : s.noteBankWait.cycleView recs cls = s.cycleView recs cls := by
  unfold State.noteBankWait
  split
  · rw [ite_cycleView, raise_cycleView, record_cycleView, modRc_cycleView _ _ (by exact fun _ => rfl), ite_self]
  · rfl

theorem trySteps_cycleView : s.trySteps.cycleView recs false = s.cycleView recs false := by
  unfold State.trySteps
  dsimp only
  simp [beginSteps_cycleView, noteBankWait_cycleView]

/-! ## The whole start -/

/-- The operations between the record of the cycle and the trigger bits. -/
theorem startFabric_cycleView (l : List Nat) :
    ((l.foldl State.touch s).touch 64).noteReplay.latchWindows.cycleView recs false = s.cycleView recs false := by
  rw [latchWindows_cycleView, noteReplay_cycleView, touch_cycleView, foldl_cycleView _ fun u d => touch_cycleView u d]

theorem lxHeadErrors_nil (l : List Nat) : s.lxHeadErrors l [] = s := rfl

theorem dropTriggers_cycleView : ({ s with probes := [], fabTrig := [] } : State).cycleView recs cls =
    { s.cycleView recs cls with probes := [], fabTrig := [] } := rfl

/-- What a cycle start leaves: the cycle has begun and its record, with what a replay needs, is the last of the unsealed. -/
theorem beginCycle_cycleView : ∃ run, (s.beginCycle []).cycleView true false = { s.cycleView true false with
    run := ⟨s.rc.ecn, true, false, max s.rc.executed (s.rc.ecn + 1), s.rc.curBank,
      s.rc.unsealed ++ [{ ecn := s.rc.ecn, bank := s.rc.curBank, acc := s.acc, acq := run }]⟩
    probes := []
    fabTrig := [] } := by
  have hstart := (lynxCycleStart_cycleView (s.sayFaults s.latestBegun) (recs := true) (cls := false)).trans
    (sayFaults_cycleView s _)
  unfold State.beginCycle
  extract_lets n u0 u v w x y z
  have hv : v.cycleView true false = { u.cycleView true false with
      run := ⟨u.rc.ecn, true, false, max u.rc.executed (n + 1), u.rc.curBank,
        u.rc.unsealed ++ [{ ecn := n, bank := u.rc.curBank, acc := u.acc, acq := u.acq.run }]⟩ } := rfl
  have hw : w.cycleView true false = v.cycleView true false := startFabric_cycleView v _
  have hx : x = w := lxHeadErrors_nil w _
  have hy : y.cycleView true false = { x.cycleView true false with probes := [], fabTrig := [] } := dropTriggers_cycleView x
  have hz : z.acqCycleStart.trySteps.cycleView true false = y.cycleView true false := by
    rw [trySteps_cycleView, acqCycleStart_cycleView, armSnapshot_cycleView, swapAt_cycleView]
  refine ⟨u.acq.run, ?_⟩
  rw [hz, hy, hx, hw, hv]
  have hecn : u.rc.ecn = s.rc.ecn := congrArg (·.run.ecn) hstart
  have hexec : u.rc.executed = s.rc.executed := congrArg (·.run.executed) hstart
  have hbank : u.rc.curBank = s.rc.curBank := congrArg (·.run.curBank) hstart
  have hrecs : u.rc.unsealed = s.rc.unsealed := congrArg (·.run.unsealed) hstart
  have hacc : u.acc = s.acc := congrArg (·.acc) hstart
  rw [hecn, hexec, hbank, hrecs, hacc, show u.cycleView true false = s.cycleView true false from hstart]

end Sys2Proof.Machine

/-!
CYCLE_START where nothing but the seal keeps the cycle from beginning (R14, R123, R268).
-/

namespace Sys2Proof.Machine

variable (s : State)

/-! ## Domains that are awake (R439) -/

variable {s} in
theorem awake_touch (d : Nat) (h : s.awake) : (s.touch d).awake := by
  intro e
  rw [dom_touch]
  split <;> exact h e

variable {s} in
theorem leaveDom_awake (d : Nat) (h : s.awake) : s.leaveDom d = s.touch d :=
  if_pos ⟨(h d).1, by rw [(h d).2]; rfl⟩

variable {s} in
theorem wakeCluster_awake (c : Nat) (h : s.awake) : s.wakeCluster c = s.touch c :=
  if_pos ⟨(h c).1, by rw [(h c).2]; rfl⟩

theorem foldl_wakeCluster_awake (l : List Nat) (h : s.awake) :
    s.Powered (l.foldl State.wakeCluster s) ∧ (l.foldl State.wakeCluster s).awake := by
  induction l generalizing s with
  | nil => exact ⟨rfl, h⟩
  | cons c l ih =>
    rw [List.foldl_cons, wakeCluster_awake c h]
    obtain ⟨hp, ha⟩ := ih (s.touch c) (awake_touch c h)
    exact ⟨Eq.trans hp rfl, ha⟩

/-- At a device that is awake, waking the fabric restarts idle times and nothing else. -/
theorem powered_wakeFabric (h : s.awake) : s.Powered s.wakeFabric := by
  obtain ⟨hp, ha⟩ := foldl_wakeCluster_awake s (s.clusterIds.filter s.enabled) h
  unfold State.wakeFabric
  rw [leaveDom_awake 64 ha]
  generalize List.foldl State.wakeCluster s _ = t at hp ⊢
  rw [hp]; rfl

/-! ## Waits (R121, R123, R268) -/

/-- The first wait, for the seal, is noted with its time; the events of a seal wait are counted by the start it delays. -/
theorem setWaits_seal (h : s.rc.waits = []) :
    s.setWaits [.seal] = { s with rc := { s.rc with waits := [(.seal, s.now)] } } := by
  simp [State.setWaits, State.modRc, WaitKind.eventsReg, h]

theorem setWaits_none (h : s.rc.waits = []) : s.setWaits [] = s := by
  have hrc : { s.rc with waits := [] } = s.rc := by rw [← h]
  simp [State.setWaits, State.modRc, h, hrc]

/-- A fold that pace waits leave alone. -/
theorem foldl_pace {α : Type} (g : α → WaitKind → α) (hg : ∀ u b, g u (.pace b) = u) (l : List Nat) (u : α) :
    (l.map WaitKind.pace).foldl g u = u := by
  induction l with
  | nil => rfl
  | cons b l ih => rw [List.map_cons, List.foldl_cons, hg, ih]

/-- The wait for the seal ends and the waits for the pace of the bridges begin: only the first has time to add. -/
theorem setWaits_pace {since : Nat} (h : s.rc.waits = [(.seal, since)]) (l : List Nat) :
    s.setWaits (l.map .pace) = { s.count Reg.SEAL_WAIT_NS 0 32 (s.now - since) with
      rc := { s.rc with waits := l.map fun b => (.pace b, s.now) } } := by
  have hpast : s.rc.waits.filter (fun w => !(l.map WaitKind.pace).contains w.1) = [(.seal, since)] := by simp [h]
  have hstay : s.rc.waits.filter (fun w => (l.map WaitKind.pace).contains w.1) = [] := by simp [h]
  have hnew : (l.map WaitKind.pace).filter (fun k => !s.rc.waits.any (fun w => w.1 = k)) = l.map .pace := by simp [h]
  unfold State.setWaits State.modRc
  dsimp only
  rw [hpast, hnew, foldl_pace _ fun _ _ => rfl, List.foldl_cons, List.foldl_nil, show (State.count s _ _ _ _).rc = s.rc from rfl,
    hstay, List.nil_append, List.map_map]
  rfl

/-! ## Pacing -/

/-- The bridges that keep a start waiting depend on run control, the time bases and the bridges' own registers. -/
theorem paceLacking_congr {s t : State} (hrc : t.rc = s.rc) (htime : t.time = s.time)
    (hr : ∀ off, 0x70_0000 ≤ off → t.rd off = s.rd off) : t.paceLacking = s.paceLacking := by
  have hcfg : ∀ b, t.rd (Reg.LX_IN_CFG b) = s.rd (Reg.LX_IN_CFG b) := fun b => hr _ (Nat.le_add_right _ _)
  have hbase : ∀ b, t.paceBase b = s.paceBase b := fun b =>
    fld_congr (hr (Reg.LX_PACE_CFG b) ((by decide : 0x70_0000 ≤ 0x70_0100).trans (Nat.le_add_right _ _))) 30 1
  have hpaced : t.pacedBridges = s.pacedBridges := List.filter_congr fun b _ => by
    rw [flag_congr (hcfg b), fld_congr (hcfg b)]
  have hpace : ∀ b n, t.pace b n = s.pace b n := fun b n => by
    have ht : 0x70_0000 ≤ Reg.LX_PACE_T0_LO b := (by decide : 0x70_0000 ≤ 0x70_0110).trans (Nat.le_add_right _ _)
    have hn : 0x70_0000 ≤ Reg.LX_PACE_N0_LO b := (by decide : 0x70_0000 ≤ 0x70_0108).trans (Nat.le_add_right _ _)
    have hp : 0x70_0000 ≤ Reg.LX_PACE_PERIOD b := (by decide : 0x70_0000 ≤ 0x70_0104).trans (Nat.le_add_right _ _)
    unfold State.pace State.rd64
    rw [hr _ ht, hr _ (ht.trans (Nat.le_add_right _ _)), hr _ hn, hr _ (hn.trans (Nat.le_add_right _ _)), hr _ hp]
  have htb : ∀ k, t.baseTime k = s.baseTime k := fun k => by
    unfold State.baseTime State.tb0; rw [htime]
  unfold State.paceLacking
  simp only [hrc, hpaced, hbase, hpace, htb]

/-! ## The row -/

variable {s}

theorem mayBegin_begun (h : s.mayBegin = true) : s.rc.begun = false := by
  simp only [State.mayBegin, Bool.and_eq_true, Bool.not_eq_true'] at h
  obtain ⟨⟨⟨⟨⟨⟨-, hbegun⟩, -⟩, -⟩, -⟩, -⟩, -⟩ := h
  exact hbegun

theorem mayBegin_live (h : s.mayBegin = true) : s.live = true := by
  simp only [State.mayBegin, Bool.and_eq_true] at h
  obtain ⟨⟨⟨⟨⟨⟨hlive, -⟩, -⟩, -⟩, -⟩, -⟩, -⟩ := h
  exact hlive

/-- The start that the seal has delayed, counted as it is no longer delayed. -/
def State.sealCounted (s : State) : State :=
  if s.rc.waits.any (fun w => w.1 = .seal) then s.count Reg.SEAL_WAIT_EVENTS 0 32 1 else s

variable (errs : List EccErr)

theorem exec_cycleStart_unsealed (hrun : s.rc.state = .running) (hmay : s.mayBegin = true) (hseal : s.sealHeld = false) :
    exec (.cycleStart errs) s = .next (s.setWaits [.seal]) := by
  show execCycleStart errs s = _
  simp [execCycleStart, mayBegin_begun hmay, hrun, hmay, hseal]

theorem exec_cycleStart_paced (hrun : s.rc.state = .running) (hmay : s.mayBegin = true) (hseal : s.sealHeld = true)
    (hpace : s.sealCounted.paceLacking ≠ []) :
    exec (.cycleStart errs) s = .next (s.sealCounted.setWaits (s.sealCounted.paceLacking.map .pace)) := by
  have hne : s.sealCounted.paceLacking.isEmpty = false := by simpa using hpace
  show execCycleStart errs s = _
  unfold execCycleStart
  rw [if_neg (by simp [mayBegin_begun hmay]), if_neg (by simp [hrun]), if_neg (by simp [hmay]), if_neg (by simp [hseal])]
  exact if_pos (by rw [← State.sealCounted, hne]; simp)

theorem exec_cycleStart_begins (hrun : s.rc.state = .running) (hmay : s.mayBegin = true) (hseal : s.sealHeld = true)
    (hwaits : s.rc.waits = []) (hpace : s.paceLacking = []) (hlive : s.wakeFabric.live = true) :
    exec (.cycleStart errs) s = .next (s.wakeFabric.beginCycle errs) := by
  show execCycleStart errs s = _
  simp [execCycleStart, mayBegin_begun hmay, hrun, hmay, hseal, hwaits, hpace, setWaits_none s hwaits, hlive]

end Sys2Proof.Machine

namespace Sys2Proof.Machine

/-! ## The clauses of the statement -/

variable {s : State}

/-- The cycle begins: what the start left is read off the view of `beginCycle`. -/
theorem cycleStart_begins (hrun : s.rc.state = .running) (hmay : s.mayBegin = true) (hwaits : s.rc.waits = [])
    (hseal : s.sealHeld = true) (hpace : s.paceLacking = []) (hawake : s.awake) :
    ∃ t, exec (.cycleStart []) s = .next t ∧ t.rc.begun = true ∧ t.rc.ecn = s.rc.ecn ∧ t.rc.fresh = false ∧
      t.rc.executed = max s.rc.executed (s.rc.ecn + 1) ∧ t.probes = [] ∧ t.fabTrig = [] ∧
      ∃ r ∈ t.rc.unsealed, r.ecn = s.rc.ecn ∧ r.bank = s.rc.curBank ∧ r.acc = s.acc := by
  have hwake := powered_wakeFabric s hawake
  have hrow := exec_cycleStart_begins [] hrun hmay hseal hwaits hpace
  obtain ⟨run, hview⟩ := beginCycle_cycleView s.wakeFabric
  generalize s.wakeFabric = u at hwake hrow hview
  rw [hwake] at hrow hview
  have hlive : ({ s with power := u.power } : State).live = true := mayBegin_live hmay
  have hrecs := congrArg (·.run.unsealed) hview
  refine ⟨_, hrow hlive, congrArg (·.run.begun) hview, congrArg (·.run.ecn) hview, congrArg (·.run.fresh) hview,
    congrArg (·.run.executed) hview, congrArg (·.probes) hview, congrArg (·.fabTrig) hview,
    { ecn := s.rc.ecn, bank := s.rc.curBank, acc := s.acc, acq := run }, ?_, rfl, rfl, rfl⟩
  refine (congrArg (_ ∈ ·) hrecs).mpr ?_
  exact List.mem_append_right _ (List.mem_singleton_self _)

/-- The registers are no part of run control. -/
theorem rd_withRc (u : State) (r : RunCtl) (off : Nat) : ({ u with rc := r } : State).rd off = u.rd off := rfl

/-- The start that waited for the seal counts its wait and waits for the pace of its bridges. -/
theorem cycleStart_paced {since : Nat} (errs : List EccErr) (hrun : s.rc.state = .running) (hmay : s.mayBegin = true)
    (hwaits : s.rc.waits = [(.seal, since)]) (hseal : s.sealHeld = true) (hpace : s.paceLacking ≠ []) :
    ∃ t, exec (.cycleStart errs) s = .next t ∧
      t = { s with csr := t.csr, rc := { s.rc with waits := s.paceLacking.map fun b => (.pace b, s.now) } } ∧
      t.rd Reg.SEAL_WAIT_EVENTS = satAdd (2 ^ 32 - 1) (s.rd Reg.SEAL_WAIT_EVENTS) 1 ∧
      t.rd Reg.SEAL_WAIT_NS = satAdd (2 ^ 32 - 1) (s.rd Reg.SEAL_WAIT_NS) (s.now - since) ∧
      s.keepsRegs t [Reg.SEAL_WAIT_EVENTS, Reg.SEAL_WAIT_NS] := by
  have hrow := exec_cycleStart_paced errs hrun hmay hseal
  have hcount : s.sealCounted = s.count Reg.SEAL_WAIT_EVENTS 0 32 1 := if_pos (by simp [hwaits])
  have hlacking : (s.count Reg.SEAL_WAIT_EVENTS 0 32 1).paceLacking = s.paceLacking :=
    paceLacking_congr rfl rfl fun off hoff =>
      rd_count_other s _ _ _ _ off fun h => absurd (h ▸ hoff) (by decide)
  rw [hcount, hlacking, setWaits_pace (s.count Reg.SEAL_WAIT_EVENTS 0 32 1) (since := since) hwaits] at hrow
  refine ⟨_, hrow hpace, rfl, ?_, ?_, fun off hoff _ => ?_⟩
  · rw [rd_withRc, rd_count_other _ _ _ _ _ _ (by decide), rd_count_whole]
  · rw [rd_withRc, rd_count_whole, rd_count_other _ _ _ _ _ _ (by decide)]
    rfl
  · simp only [List.mem_cons, List.not_mem_nil, or_false, not_or] at hoff
    obtain ⟨hevents, hns⟩ := hoff
    rw [rd_withRc, rd_count_other _ _ _ _ _ _ hns, rd_count_other _ _ _ _ _ _ hevents]

/-- Settles O12: the start that begins by the view that `beginCycle` leaves, the two that wait by what `setWaits` notes. -/
theorem cycleBeginsWithItsSeal : Obligations.CycleBeginsWithItsSeal := by
  unfold Obligations.CycleBeginsWithItsSeal
  refine fun s hrun hmay => ⟨fun hwaits hseal hpace _ hawake => ?_, fun errs hwaits hseal => ?_,
    fun errs since hwaits hseal hpace => ?_⟩
  · exact cycleStart_begins hrun hmay hwaits hseal hpace hawake
  · rw [exec_cycleStart_unsealed errs hrun hmay hseal, setWaits_seal s hwaits]
  · exact cycleStart_paced errs hrun hmay hwaits hseal hpace

end Sys2Proof.Machine

/-!
The end of a cycle (R16 orders 6 to 10): what the parts of a commit and of a seal leave of the view, without the unsealed cycles.
-/

namespace Sys2Proof.Machine

variable (s : State) {recs cls : Bool}

/-! ## Trace events (R418, R430) -/

@[simp] theorem acqEvent_cycleView (i : Nat) : (s.acqEvent i).cycleView recs cls = s.cycleView recs cls := by
  unfold State.acqEvent
  split
  · rfl
  · exact State.Aside.cycleView rfl

@[simp] theorem fabEvent_cycleView (kind c x y : Nat) : (s.fabEvent kind c x y).cycleView recs cls = s.cycleView recs cls := by
  unfold State.fabEvent
  extract_lets perCluster rpl step arg b2 traced u v
  have hu : u.cycleView recs cls = s.cycleView recs cls := by
    show (ite _ _ _ : State).cycleView recs cls = _
    rw [ite_cycleView, spEmit_cycleView, ite_self]
  have hv : v.cycleView recs cls = u.cycleView recs cls := by
    show (ite _ _ _ : State).cycleView recs cls = _
    rw [ite_cycleView, foldl_cycleView _ fun w j => ?_, ite_self]
    rw [ite_cycleView, acqEvent_cycleView, ite_self]
  rw [ite_cycleView, spTrigger_cycleView, ite_self, hv, hu]

/-! ## The parts of a commit (R97, R264, R309) -/

@[simp] theorem popSource_cycleView (src : Nat) : (s.popSource src).cycleView recs cls = s.cycleView recs cls := by
  unfold State.popSource State.lynxPop
  simp

theorem lynxCommit_cycleView (n : Nat) : (s.lynxCommit n).cycleView recs cls = s.cycleView recs cls := by
  unfold State.lynxCommit
  split
  · rfl
  · refine foldl_cycleView _ (fun u b => ?_) _ _
    split
    · extract_lets a v
      have h := ddrWrite_cycleView u (recs := recs) (cls := cls) .lynx a 8 v
      split <;> rename_i hq <;> rw [hq] at h
      · exact (lxSpillError_cycleView _ _ _ _).trans h
      · exact h
    · rfl

@[simp] theorem evlogError_cycleView (a : Nat) : (s.evlogError a).cycleView recs cls = s.cycleView recs cls :=
  fatal_cycleView s _ _ _

@[simp] theorem fixExt_cycleView (n : Nat) : (s.fixExt n).cycleView recs cls = s.cycleView recs cls := by
  unfold State.fixExt
  split
  · rfl
  · split
    · split
      · have h := ddrRead_cycleView s (recs := recs) (cls := cls) .acq (s.evlogAddr n) 8
        split
        rename_i hq
        rw [hq] at h
        rw [ite_cycleView, evlogError_cycleView, modAcq_cycleView, ite_self]
        exact h
      · exact modAcq_cycleView s _
    · exact modAcq_cycleView s _

theorem acqCommit_cycleView (n : Nat) : (s.acqCommit n).cycleView recs cls = s.cycleView recs cls := by
  unfold State.acqCommit
  extract_lets u was
  split
  split
  rw [ite_cycleView, spTrigger_cycleView, modAcq_cycleView, ite_self]
  exact fixExt_cycleView s n

/-! ## Host-out and Lynx words at a seal (R251, R270, R273) -/

@[simp] theorem deliverOut_cycleView (h : Nat) (l : List W64) : (s.deliverOut h l).cycleView recs cls = s.cycleView recs cls := by
  unfold State.deliverOut
  extract_lets cfg drop limit kept lost p
  split
  · rfl
  · split
    rename_i n u hq
    have hu : u.cycleView recs cls = s.cycleView recs cls := by
      refine (congrArg (fun x => x.2.cycleView recs cls) hq).symm.trans (foldl_snd_cycleView _ (fun acc w => ?_) kept (0, s))
      have hp := mpPut_cycleView acc.2 (recs := recs) (cls := cls) (Reg.MP_OUT_BASE_LO h) cfg (p + acc.1) w
      split <;> rename_i hput <;> rw [hput] at hp
      · exact hp
      · exact (count_cycleView _ _ _ _ _).trans hp
    simp [hu]

@[simp] theorem releaseHostOut_cycleView (r : CycleRec) : (s.releaseHostOut r).cycleView recs cls = s.cycleView recs cls := by
  unfold State.releaseHostOut
  split
  · rfl
  · exact foldl_cycleView _ (fun u h => deliverOut_cycleView u h _) _ s

@[simp] theorem egStore_cycleView (b : Nat) (f : LxFrame) : (s.egStore b f).cycleView recs cls = s.cycleView recs cls := by
  unfold State.egStore
  extract_lets k u
  rw [modLx_cycleView]
  show (ite _ _ _ : State).cycleView recs cls = _
  rw [ite_cycleView, foldl_cycleView _ fun v w => ?_, ite_self]
  have h := ddrWrite_cycleView v (recs := recs) (cls := cls) .lynx (v.egSpillAddr b (k + w.1)) 8 w.2.toNat
  dsimp only
  split <;> rename_i hq <;> rw [hq] at h
  · exact (lxSpillError_cycleView _ _ _ _).trans h
  · exact h

@[simp] theorem egDropRecord_cycleView (b c d k : Nat) : (s.egDropRecord b c d k).cycleView recs cls = s.cycleView recs cls :=
  (raise_cycleView _ _ _).trans (record_cycleView s _ _ _ _)

@[simp] theorem egRelease_cycleView (b n : Nat) (l : List W64) : (s.egRelease b n l).cycleView recs cls = s.cycleView recs cls := by
  unfold State.egRelease
  dsimp only
  split
  · rfl
  · simp

@[simp] theorem releaseLynx_cycleView (r : CycleRec) : (s.releaseLynx r).cycleView recs cls = s.cycleView recs cls := by
  unfold State.releaseLynx
  split
  · rfl
  · exact foldl_cycleView _ (fun u b => egRelease_cycleView u b _ _) _ s

/-! ## Words that leave their sources (R117, R249, R257, R260) -/

@[simp] theorem lxFullEvent_cycleView (b c : Nat) : (s.lxFullEvent b c).cycleView recs cls = s.cycleView recs cls := by
  unfold State.lxFullEvent
  simp

@[simp] theorem lxReady_cycleView (b : Nat) : (s.lxReady b).cycleView recs cls = s.cycleView recs cls := by
  unfold State.lxReady
  extract_lets cfg low
  split <;> simp

@[simp] theorem lxSpill_cycleView (b a n v : Nat) : (s.lxSpill b a n v).cycleView recs cls = s.cycleView recs cls := by
  have h := ddrWrite_cycleView s (recs := recs) (cls := cls) .lynx a n v
  unfold State.lxSpill
  split <;> rename_i hq <;> rw [hq] at h
  · exact (lxSpillError_cycleView _ _ _ _).trans h
  · exact h

@[simp] theorem lynxRelease_cycleView (b n : Nat) : (s.lynxRelease b n).cycleView recs cls = s.cycleView recs cls := by
  unfold State.lynxRelease
  extract_lets p u v w
  have hv : v.cycleView recs cls = s.cycleView recs cls := by
    show State.cycleView recs cls (match u.lxEntry b p with | some e => _ | none => _) = _
    split <;> simp [u]
  rw [lxReady_cycleView]
  show (ite _ _ _ : State).cycleView recs cls = _
  rw [ite_cycleView, lxSpill_cycleView, ite_self, hv]

@[simp] theorem releaseWord_cycleView (src : Nat) : (s.releaseWord src).cycleView recs cls = s.cycleView recs cls := by
  unfold State.releaseWord
  simp

end Sys2Proof.Machine

/-!
A seal, and what follows a commit (R16 orders 9 and 10, R218): what they leave of the view, without the unsealed cycles.
-/

namespace Sys2Proof.Machine

variable (s : State) {recs cls : Bool}

/-! ## The held effects of acquisition (R312, R316, R322, R326) -/

@[simp] theorem logEvents_cycleView (n : Nat) : (s.logEvents n).cycleView recs cls = s.cycleView recs cls := by
  unfold State.logEvents
  split
  · have h := ddrWrite_cycleView s (recs := recs) (cls := cls) .acq (s.evlogAddr n) 8
      (2 ^ 63 + n % 2 ^ 15 * 2 ^ 48 + s.extOf n)
    split
    rename_i hq
    rw [hq] at h
    rw [ite_cycleView, evlogError_cycleView, ite_self]
    exact h
  · rfl

@[simp] theorem storeRecord_cycleView (r : AcqRec) : (s.storeRecord r).cycleView false cls = s.cycleView false cls := by
  unfold State.storeRecord
  extract_lets p addr
  split
  · rfl
  · have h := ddrFill_cycleView s (recs := false) (cls := cls) .acq addr r.data.length (mapOfBytes r.data)
    split <;> rename_i hq <;> rw [hq] at h
    · simpa using h
    · extract_lets v w mine done
      have hw : w.cycleView false cls = s.cycleView false cls := by
        show State.cycleView false cls (match r.trig with | some n => _ | none => _) = _
        split <;> simpa [v] using h
      rw [ite_cycleView, ite_cycleView, raise_cycleView, ite_self, modRuns_cycleView, ite_self, hw]

@[simp] theorem pulse_cycleView (k : Nat) : (s.pulse k).cycleView recs cls = s.cycleView recs cls := by
  unfold State.pulse
  simp

@[simp] theorem modBlock_cycleView (b : Nat) (f : ResBlock → ResBlock) :
    (s.modBlock b f).cycleView recs cls = s.cycleView recs cls := modAcq_cycleView s _

@[simp] theorem showBlock_cycleView (b q : Nat) (l : List (Nat × Nat)) (x : Nat) :
    (s.showBlock b q l x).cycleView recs cls = s.cycleView recs cls := by
  unfold State.showBlock
  dsimp only
  rw [ite_cycleView, raise_cycleView, ite_self, wr_cycleView]
  exact foldl_cycleView _ (fun u e => wr_cycleView u _ _) l s

@[simp] theorem completeBlock_cycleView (b : Nat) (l : List (Nat × Nat)) (x : Nat) :
    (s.completeBlock b l x).cycleView recs cls = s.cycleView recs cls := by
  unfold State.completeBlock
  dsimp only
  split
  · simp
  · rw [modBlock_cycleView]
    split <;> simp

theorem releaseAcq_cycleView (r : CycleRec) : (s.releaseAcq r).cycleView false cls = s.cycleView false cls := by
  unfold State.releaseAcq
  dsimp only
  rw [modAcq_cycleView, foldl_cycleView _ fun u b => completeBlock_cycleView u _ _ _, ite_cycleView, pulse_cycleView,
    ite_self, foldl_cycleView _ fun u k => ?_, foldl_cycleView _ fun u x => storeRecord_cycleView u x, logEvents_cycleView]
  rw [ite_cycleView, pulse_cycleView, ite_self]

/-! ## System triggers (R222) -/

@[simp] theorem act_cycleView (m : Msg) (g : Nat) : (s.act m g).cycleView recs cls = s.cycleView recs cls := by
  unfold State.act
  simp

@[simp] theorem forgetTriggers_cycleView (d q : Nat) : (s.forgetTriggers d q).cycleView recs cls = s.cycleView recs cls :=
  net_cycleView s _

@[simp] theorem systemTriggerIn_cycleView (l n : Nat) : (s.systemTriggerIn l n).cycleView recs cls = s.cycleView recs cls := by
  unfold State.systemTriggerIn
  refine (foldl_cycleView _ (fun u i => ?_) _ _).trans (State.Aside.cycleView rfl)
  rw [ite_cycleView, acqEvent_cycleView, ite_self]

@[simp] theorem actTrigger_cycleView (e o q l : Nat) : (s.actTrigger e o q l).cycleView recs cls = s.cycleView recs cls := by
  unfold State.actTrigger
  simp

@[simp] theorem sendDownAs_cycleView (t g : Nat) (m : Msg) : (s.sendDownAs t g m).cycleView recs cls = s.cycleView recs cls := by
  unfold State.sendDownAs
  extract_lets u
  rw [ite_cycleView, net_cycleView, ite_self, emit_cycleView]

@[simp] theorem sendDown_cycleView (t : Nat) (m : Msg) : (s.sendDown t m).cycleView recs cls = s.cycleView recs cls :=
  sendDownAs_cycleView s t _ m

@[simp] theorem castDown_cycleView (m : Msg) : (s.castDown m).cycleView recs cls = s.cycleView recs cls := by
  unfold State.castDown
  simp

@[simp] theorem triggerUp_cycleView (t e o q l : Nat) : (s.triggerUp t e o q l).cycleView recs cls = s.cycleView recs cls := by
  unfold State.triggerUp
  simp

@[simp] theorem launchTrigger_cycleView : s.launchTrigger.cycleView recs cls = s.cycleView recs cls := by
  unfold State.launchTrigger
  split
  · rfl
  · simp

@[simp] theorem raiseTrigger_cycleView (l n : Nat) : (s.raiseTrigger l n).cycleView recs cls = s.cycleView recs cls :=
  (launchTrigger_cycleView _).trans (net_cycleView s _)

/-! ## Pauses (R110, R245) -/

@[simp] theorem cutWaits_cycleView : s.cutWaits.cycleView recs cls = s.cycleView recs cls := by
  unfold State.cutWaits
  rw [setWaits_cycleView, modRc_cycleView _ _ (by exact fun _ => rfl)]

/-- A change of run control that ends no cycle, where none is in progress. -/
theorem modRc_pause_cycleView (f : RunCtl → RunCtl) (h : ∀ r, (f r).cycleRun recs = { r.cycleRun recs with begun := false })
    (hs : (s.cycleView recs cls).run.begun = false) : (s.modRc f).cycleView recs cls = s.cycleView recs cls := by
  refine congrArg (fun x => { s.cycleView recs cls with run := x }) ((h s.rc).trans ?_)
  rw [← hs]; rfl

theorem enterPaused_cycleView (p : Nat) (hs : (s.cycleView recs cls).run.begun = false) :
    (s.enterPaused p).cycleView recs cls = s.cycleView recs cls := by
  unfold State.enterPaused
  extract_lets cmd ends u v w net x y
  have hv : v.cycleView recs cls = s.cycleView recs cls := by
    show (ite _ _ _ : State).cycleView recs cls = _
    rw [ite_cycleView, modRc_cycleView _ _ (by exact fun _ => rfl), raise_cycleView, ite_self, sayFaults_cycleView,
      cutWaits_cycleView]
  have hw : w.cycleView recs cls = s.cycleView recs cls :=
    (modRc_pause_cycleView v _ (fun _ => rfl) (hv ▸ hs)).trans hv
  have hy : y.cycleView recs cls = s.cycleView recs cls := (raise_cycleView _ _ _).trans ((net_cycleView w _).trans hw)
  clear_value cmd
  split
  · rw [ite_cycleView, cmdStatus_cycleView, wr64_cycleView, modRc_cycleView _ _ (by exact fun _ => rfl), cancelCmd_cycleView,
      ite_self, hy]
  · exact hy

@[simp] theorem checkPause_cycleView : s.checkPause.cycleView recs cls = s.cycleView recs cls := by
  unfold State.checkPause
  split
  · rfl
  · rename_i h
    have hs : (s.cycleView recs cls).run.begun = false := by
      simp only [Bool.or_eq_true, not_or, Bool.not_eq_true] at h
      obtain ⟨⟨-, hbegun⟩, -⟩ := h
      exact hbegun
    extract_lets p held
    clear_value p
    split
    · rw [ite_cycleView, enterPaused_cycleView _ _ hs, ite_self]
    · rfl

/-! ## The seal (R16 orders 9 and 10, R218) -/

@[simp] theorem releaseForerunner_cycleView (n : Nat) : (s.releaseForerunner n).cycleView recs cls = s.cycleView recs cls :=
  State.Aside.cycleView rfl

theorem sealOne_cycleView (n : Nat) : (s.sealOne n).cycleView false cls = s.cycleView false cls := by
  unfold State.sealOne
  split
  · exact modRc_cycleView _ _ fun _ => rfl
  · rename_i r _
    extract_lets u sys v w x y
    have hu : u.cycleView false cls = s.cycleView false cls := by simp [u]
    have hv : v.cycleView false cls = s.cycleView false cls := (releaseAcq_cycleView u r).trans hu
    have hw : w.cycleView false cls = s.cycleView false cls := by
      show (ite _ _ _ : State).cycleView false cls = _
      rw [ite_cycleView, raiseTrigger_cycleView, ite_self, hv]
    have hx : x.cycleView false cls = s.cycleView false cls :=
      (foldl_cycleView _ (fun u src => releaseWord_cycleView u src) _ _).trans hw
    have hy : y.cycleView false cls = s.cycleView false cls := by
      show State.cycleView false cls (match r.committedAt with | some t => _ | none => _) = _
      split
      · rw [setFld_cycleView, setFld_cycleView, hx]
      · exact hx
    rw [fabEvent_cycleView, wr64_cycleView, retireMap_cycleView, releaseForerunner_cycleView,
      modRc_cycleView _ _ (by exact fun _ => rfl), hy]

theorem sealTo_cycleView (k w : Nat) : (State.sealTo k s w).cycleView false cls = s.cycleView false cls := by
  induction k generalizing s with
  | zero => rfl
  | succ k ih =>
    unfold State.sealTo
    rw [ite_cycleView, ih, sealOne_cycleView, ite_self]

theorem actSeal_cycleView (w : Nat) : (s.actSeal w).cycleView false cls = s.cycleView false cls := by
  unfold State.actSeal
  split
  · rfl
  · exact (checkPause_cycleView _).trans ((net_cycleView _ _).trans (sealTo_cycleView s _ w))

theorem watermark_cycleView (t : Nat) : (s.watermark t).cycleView false cls = s.cycleView false cls := by
  unfold State.watermark
  extract_lets m
  split
  · rfl
  · split
    · rw [ite_cycleView, actSeal_cycleView, castDown_cycleView, ite_self]
    · split
      · exact (sendUp_cycleView _ _ _).trans (net_cycleView s _)
      · rfl

end Sys2Proof.Machine

/-!
COMMIT where no soft error is found (R16, R45, R46, R52): the view of `commitCycle`, what the later orders leave of it, and
what the statement reads off it.
-/

namespace Sys2Proof.Machine

variable {s t : State}

/-! ## Maps -/

/-- A fold of writes that leave key `k` alone leaves it alone. -/
theorem get_foldl_of_kept {α β : Type} (d : Nat → α) (k : Nat) (f : Map α → β → Map α) (l : List β)
    (h : ∀ m, ∀ e ∈ l, (f m e).get d k = m.get d k) (m : Map α) : (l.foldl f m).get d k = m.get d k :=
  List.foldlRecOn (motive := fun m' => m'.get d k = m.get d k) l f rfl fun _ ih e he => (h _ e he).trans ih

/-- What a key holds is listed, or the default. -/
theorem get_mem_or_default {α : Type} (d : Nat → α) (m : Map α) (k : Nat) : (∃ e ∈ m, m.get d k = e.2) ∨ m.get d k = d k := by
  induction m with
  | nil => exact .inr rfl
  | cons e m ih =>
    unfold Map.get
    split
    · exact .inl ⟨e, List.mem_cons_self, rfl⟩
    · exact ih.imp_left fun ⟨x, hx, h⟩ => ⟨x, List.mem_cons_of_mem _ hx, h⟩

/-! ## The DMB writes and the rotation (R45, R46, R119) -/

/-- Only the DMBs, and what a rollback of the unsealed cycles gives back to them, change. -/
def State.DmWritten (s t : State) : Prop :=
  t = { s with dmb := t.dmb, rc := { s.rc with unsealed := t.rc.unsealed } }

theorem State.DmWritten.trans {u : State} (h : s.DmWritten t) (h' : t.DmWritten u) : s.DmWritten u := by
  unfold State.DmWritten at *
  rw [h', h]

theorem dmWritten_applyDmLog (s : State) (c : Nat) : s.DmWritten (s.applyDmLog c) := by
  unfold State.applyDmLog
  refine foldl_rel State.DmWritten (fun _ => rfl) (fun _ _ _ => State.DmWritten.trans) _ (fun u e => ?_) _ s
  rfl

theorem dmWritten_applyDmLogs (s : State) (l : List Nat) : s.DmWritten (l.foldl State.applyDmLog s) :=
  foldl_rel State.DmWritten (fun _ => rfl) (fun _ _ _ => State.DmWritten.trans) _ dmWritten_applyDmLog l s

/-- The DMB writes change nothing of what the rotation leaves. -/
theorem State.DmWritten.rotate_cycleView {cls : Bool} (h : s.DmWritten t) :
    t.rotate.cycleView false cls = s.rotate.cycleView false cls := by rw [h]; rfl

theorem rotate_ecn (s : State) : s.rotate.rc.ecn = s.rc.ecn := rfl
theorem rotate_curBank (s : State) : s.rotate.rc.curBank = (s.rc.curBank + 1) % s.nBanks := rfl

/-- A state bit that no BP wrote keeps its value as the banks rotate. -/
theorem rotate_bank_unwritten (s : State) (k : Nat)
    (h : ∀ e ∈ s.clusters, ∀ w ∈ e.2.next, w.2.isSome → e.1 * 65536 + w.1 ≠ k) :
    (s.rotate.bank s.rotate.rc.curBank).get (fun _ => false) k = (s.bank s.rc.curBank).get (fun _ => false) k := by
  show Map.get _ (Map.get _ (Map.set (fun _ => []) s.banks _ _) _) k = _
  rw [rotate_curBank, Map.get_set_same]
  refine get_foldl_of_kept _ k _ _ (fun m e he => ?_) _
  refine get_foldl_of_kept _ k _ _ (fun m w hw => ?_) _
  split
  · rename_i v hv
    exact Map.get_set_other _ _ _ _ _ (h e he w hw (by rw [hv]; rfl)).symm
  · rfl

/-! ## The end of the cycle (R16 order 6, R52) -/

/-- The inbox without the entries tagged `t`. -/
def releasedInbox (t : Nat) (m : Map (List (Nat × Bool))) : Map (List (Nat × Bool)) :=
  m.filterMap fun e => let l := e.2.filter (fun x => x.1 ≠ t); if l = [] then none else some (e.1, l)

/-- The view after the end of the cycle it shows. -/
def CycleView.ended (v : CycleView) : CycleView :=
  { v with
    run := { v.run with ecn := v.run.ecn + 1, begun := false }
    clusters := v.clusters.filterMap clusterKeep
    inbox := releasedInbox (v.run.ecn % 4) v.inbox }

/-- What `commitCycle` does last to run control, the clusters and the inbox, and no more of the view. -/
theorem endCycle_cycleView (u : State) (m : Net) (n : Nat) (h : u.rc.ecn = n) :
    ((({ u with clusters := u.clusters.filterMap clusterKeep, net := m } : State).releaseInbox (n % 4)).modRc fun r =>
      { r with ecn := n + 1, begun := false, stepping := false }).cycleView false true = (u.cycleView false true).ended := by
  subst h; rfl

theorem ecn_eq_of_cycleView {recs cls : Bool} (h : t.cycleView recs cls = s.cycleView recs cls) : t.rc.ecn = s.rc.ecn :=
  congrArg (·.run.ecn) h

theorem commitCycle_cycleView (s : State) : s.commitCycle.cycleView false true = (s.rotate.cycleView false true).ended := by
  unfold State.commitCycle
  extract_lets n pops out xq u0 u1 u2 u3 u4 u5 u6 u7 net u8 u9 u10
  have hrotated : u1.cycleView false true = s.rotate.cycleView false true := (dmWritten_applyDmLogs s _).rotate_cycleView
  have hpopped : u2.cycleView false true = u1.cycleView false true := foldl_cycleView _ (fun u src => popSource_cycleView u src) _ _
  have hnoted : u4.cycleView false true = u2.cycleView false true :=
    (modRc_cycleView u3 _ fun _ => rfl).trans (modRec_cycleView u2 _ _)
  have hevaluated : u7.cycleView false true = u4.cycleView false true :=
    (sayFaults_cycleView u6 _).trans ((acqCommit_cycleView u5 _).trans (lynxCommit_cycleView u4 _))
  have hrot := hevaluated.trans (hnoted.trans (hpopped.trans hrotated))
  have hecn : u7.rc.ecn = n := (ecn_eq_of_cycleView hrot).trans (rotate_ecn s)
  rw [fabEvent_cycleView, wr64_cycleView]
  exact (endCycle_cycleView u7 _ n hecn).trans (congrArg _ hrot)

/-! ## What comes after (R52, R218) -/

/-- With no word held, the arrivals that are handled again change nothing. -/
theorem rereadHeld_nil (h : s.held = []) : s.rereadHeld [] = s := by
  have hs : ({ s with held := [] } : State) = s := by rw [← h]
  show (if s.rc.state = .fatal then s else s.deliverHeld) = s
  unfold State.deliverHeld
  rw [h, List.foldl_nil, hs, ite_self]

/-- COMMIT, where it is due and no soft error is found, leaves the view that `commitCycle` leaves. -/
theorem exec_commit_cycleView (hlive : s.live = true) (hbegun : s.rc.begun = true) (hstep : s.rc.stepping = true)
    (hend : s.allAtEnd = true) (hsent : s.sendsAccepted = true) (hstop : s.stopping = false) (hheld : s.held = []) :
    ∃ t, exec (.commit []) s = .next t ∧ t.cycleView false true = (s.rotate.cycleView false true).ended := by
  have hview := commitCycle_cycleView s
  have hrow : exec (.commit []) s = execCommit [] s := rfl
  rw [hrow]
  unfold execCommit
  rw [if_neg (by simp [hlive, hbegun, hstep, hend, hsent, hstop])]
  generalize s.commitCycle = u at hview ⊢
  have hkept : u.held = [] := (congrArg (·.held) hview).trans hheld
  rw [rereadHeld_nil hkept]
  dsimp only
  split
  · exact ⟨_, rfl, hview⟩
  · refine ⟨_, rfl, ?_⟩
    rw [checkPause_cycleView, watermark_cycleView, watermark_cycleView]
    exact (modRec_cycleView _ _ _).trans hview

/-! ## The clauses of the statement -/

/-- No inbox entry tagged `n` is left. -/
theorem releasedInbox_entries {n k : Nat} {m : Map (List (Nat × Bool))} :
    ∀ x ∈ (releasedInbox n m).get (fun _ => []) k, x.1 ≠ n := by
  obtain ⟨e, he, hget⟩ | hget := get_mem_or_default (fun _ => []) (releasedInbox n m) k
  · obtain ⟨e', -, hkept⟩ := List.mem_filterMap.mp he
    dsimp only at hkept
    split at hkept
    · cases hkept
    · cases hkept
      intro x hx
      rw [hget] at hx
      simpa using (List.mem_filter.mp hx).2
  · rw [hget]
    exact fun x hx => absurd hx List.not_mem_nil

/-- A cluster between cycles is idle, its scratch and its send records empty. -/
theorem get_clusterKeep (m : Map Cluster) (c : Nat) :
    let cl := Map.get (fun _ => {}) (m.filterMap clusterKeep) c
    cl.phase = .idle ∧ cl.scratch = [] ∧ cl.sent = [] := by
  intro cl
  obtain ⟨e, he, hget⟩ | hget := get_mem_or_default (fun _ => {}) (m.filterMap clusterKeep) c
  · obtain ⟨e', -, hkept⟩ := List.mem_filterMap.mp he
    rw [show cl = e.2 from hget]
    unfold clusterKeep at hkept
    dsimp only at hkept
    split at hkept
    · cases hkept
    · cases hkept
      exact ⟨rfl, rfl, rfl⟩
  · rw [show cl = {} from hget]
    exact ⟨rfl, rfl, rfl⟩

/-- Settles O13: the clauses are read off the view that the commit leaves. -/
theorem commitEndsTheCycle : Obligations.CommitEndsTheCycle := by
  unfold Obligations.CommitEndsTheCycle
  intro s hlive hbegun hstep hend hsent hstop hheld
  obtain ⟨t, hrow, hview⟩ := exec_commit_cycleView hlive hbegun hstep hend hsent hstop hheld
  have hcur : t.rc.curBank = s.rotate.rc.curBank := congrArg (·.run.curBank) hview
  have hbanks : t.banks = s.rotate.banks := congrArg (·.banks) hview
  have hinbox : t.inbox = releasedInbox (s.rc.ecn % 4) s.inbox := congrArg (·.inbox) hview
  have hclusters : t.clusters = s.clusters.filterMap clusterKeep := congrArg (·.clusters) hview
  refine ⟨t, hrow, congrArg (·.run.ecn) hview, congrArg (·.run.begun) hview, hcur, fun k hk => ?_, fun c b => ?_, fun c => ?_⟩
  · rw [State.bank, hbanks, hcur]
    exact rotate_bank_unwritten s k hk
  · rw [State.entries, hinbox]
    exact releasedInbox_entries
  · rw [State.cl, hclusters]
    exact get_clusterKeep _ c

end Sys2Proof.Machine

/-!
A BP executes its word (R34, R71-R81): what stays of `bpStep` where it does, and what the end of the step leaves to do where
another BP has still to execute the step.
-/

namespace Sys2Proof.Machine

variable {s t u : State} {b : BpSel}

/-! ## One cluster -/

theorem cl_modCl_same (s : State) (c : Nat) (f : Cluster → Cluster) : (s.modCl c f).cl c = f (s.cl c) :=
  cl_setCl_same s c _

theorem cl_modCl_other (s : State) {c d : Nat} (f : Cluster → Cluster) (h : d ≠ c) : (s.modCl c f).cl d = s.cl d :=
  cl_setCl_other s c d _ h

theorem onlyCluster_refl (s : State) (c : Nat) : s.onlyCluster s c (s.cl c) := ⟨rfl, rfl, fun _ _ => rfl⟩

theorem State.onlyCluster.modCl {c : Nat} {v : Cluster} (h : s.onlyCluster t c v) (f : Cluster → Cluster) :
    s.onlyCluster (t.modCl c f) c (f v) := by
  obtain ⟨hs, hv, hother⟩ := h
  refine ⟨?_, by rw [cl_modCl_same, hv], fun d hd => by rw [cl_modCl_other t f hd, hother d hd]⟩
  rw [hs]; rfl

/-! ## Where a BP stands in its step -/

/-- The step that the cluster is at, the BPs that have ended, and those that have executed the step: what tells which BPs have
still to execute it. -/
def Cluster.place (cl : Cluster) : Nat × List Nat × List Nat := (cl.step, cl.ended, cl.doneBps)

/-- Cluster `c` is at its place in the program. -/
def State.KeepsPlace (s t : State) (c : Nat) : Prop := t.imem = s.imem ∧ (t.cl c).place = (s.cl c).place

theorem State.onlyCluster.keepsPlace {c : Nat} {v : Cluster} (h : s.onlyCluster t c v) (hv : v.place = (s.cl c).place) :
    s.KeepsPlace t c := by
  obtain ⟨hs, hc, -⟩ := h
  exact ⟨by rw [hs], by rw [hc, hv]⟩

theorem busyWords_congr {c : Nat} (himem : t.imem = s.imem) (hended : (t.cl c).ended = (s.cl c).ended) (k : Nat) :
    t.busyWords c k = s.busyWords c k := by
  simp only [State.busyWords, himem, hended]

/-- The step does not end while another BP has to execute it. -/
theorem endStep_othersToGo (ho : s.othersToGo b) (hk : s.KeepsPlace t b.cluster) :
    (t.modCl b.cluster fun cl => cl.hasDone b.bp).endStep b.cluster = t.modCl b.cluster fun cl => cl.hasDone b.bp := by
  obtain ⟨himem, hplace⟩ := hk
  obtain ⟨e, he, hbp, hdone⟩ := ho
  simp only [Cluster.place, Prod.mk.injEq] at hplace
  obtain ⟨hstep, hended, hdoneBps⟩ := hplace
  have hwords : (t.modCl b.cluster fun cl => cl.hasDone b.bp).busyWords b.cluster (t.cl b.cluster).step =
      s.busyWords b.cluster (s.cl b.cluster).step := by
    rw [hstep]
    refine busyWords_congr ?_ ?_ _
    · exact himem
    · rw [cl_modCl_same]; exact hended
  refine if_neg fun hall => ?_
  rw [cl_modCl_same, show ((t.cl b.cluster).hasDone b.bp).step = (t.cl b.cluster).step from rfl, hwords,
    List.all_eq_true] at hall
  have hmem := hall e he
  simp only [Cluster.hasDone, hdoneBps, List.contains_eq_mem, List.mem_append, List.mem_singleton, decide_eq_true_eq] at hmem
  exact hmem.elim hdone hbp

/-! ## The instruction and the end of its step -/

section
variable {op : Nat} {ops : Nat → Bool} {f : State → W96 → State}

/-- A BP that may execute its word does: the instruction's own effect, then the end of the step. -/
theorem bpStep_executes (h : s.mayExecute b op) (hop : ops op = true) :
    s.bpStep b ops f = ((f s (s.wordFor b)).modCl b.cluster fun cl => cl.hasDone b.bp).endStep b.cluster := by
  obtain ⟨hlive, hstepping, henabled, hphase, hopened, hbp, hword, hdone, hended, herr⟩ := h
  have hops : ops (wOp (s.word b.cluster (s.cl b.cluster).step b.bp)) = true := by
    rw [← hop, ← hword]; rfl
  simp [State.bpStep, State.wordFor, Cluster.hasDone, hlive, hstepping, henabled, hphase, hopened, hbp, hops, hdone, hended, herr]

/-- Where another BP has still to execute the step, what follows the instruction is that the BP has executed it. -/
theorem bpStep_othersToGo (h : s.mayExecute b op) (hop : ops op = true) (ho : s.othersToGo b)
    (hk : s.KeepsPlace (f s (s.wordFor b)) b.cluster) :
    s.bpStep b ops f = (f s (s.wordFor b)).modCl b.cluster fun cl => cl.hasDone b.bp := by
  rw [bpStep_executes h hop, endStep_othersToGo ho hk]

/-- An instruction whose effect stays in its cluster, which it makes `v`. -/
theorem bpStep_onlyCluster {v v' : Cluster} (h : s.mayExecute b op) (hop : ops op = true) (ho : s.othersToGo b)
    (hf : s.onlyCluster (f s (s.wordFor b)) b.cluster v) (hv : v.place = (s.cl b.cluster).place)
    (hdone : v.hasDone b.bp = v') : s.onlyCluster (s.bpStep b ops f) b.cluster v' := by
  rw [bpStep_othersToGo h hop ho (hf.keepsPlace hv), ← hdone]
  exact hf.modCl _

end

/-! ## `result` (R71, R75, R76) -/

/-- f enters NEAR and the place that DEST names. -/
theorem put_onlyCluster {c bp dest : Nat} {f : Bool} {v : Cluster} (h : s.onlyCluster t c v) (hd : destValid dest) :
    s.onlyCluster ((t.modCl c fun cl => { cl with nearNext := cl.nearNext ++ [(bp, f)] }).put c bp dest f) c
      (v.withResult bp dest f) := by
  have hn := h.modCl fun cl => { cl with nearNext := cl.nearNext ++ [(bp, f)] }
  obtain hscratch | hnone | ⟨hnext, hlow⟩ := hd
  · simpa [State.put, Cluster.withResult, hscratch] using hn.modCl _
  · simpa [State.put, Cluster.withResult, hnone] using hn
  · simpa [State.put, Cluster.withResult, hnext, hlow] using hn.modCl _

/-- Raise the fault that the read of operand `k` meets, if it meets one. -/
def State.raiseOperand (s : State) (c bp k : Nat) : Option OpFault → State
  | some e => s.operandFault c bp k e
  | none => s

/-- The faults that the operand reads of a word meet (R72, R73), raised in the order of the operands. -/
def State.raiseOperands (s : State) (c bp : Nat) (w : W96) : State :=
  (List.range 4).foldl (fun t k => t.raiseOperand c bp k (s.operand c bp (wOperand w k)).2) s

theorem result_eq (s : State) (c bp : Nat) (w : W96) :
    s.result c bp w = ((s.raiseOperands c bp w).modCl c fun cl => { cl with
      nearNext := cl.nearNext ++ [(bp, s.evalWord c bp w)] }).put c bp (wDest w) (s.evalWord c bp w) := rfl

theorem raiseOperands_clean (h : s.cleanOperands b) : s.raiseOperands b.cluster b.bp (s.wordFor b) = s :=
  foldl_stays _ _ _ fun k hk => by rw [h k (List.mem_range.mp hk), State.raiseOperand]

/-- With no operand fault and a valid DEST, `result` puts f where it belongs and does nothing else. -/
theorem result_onlyCluster (hc : s.cleanOperands b) (hd : destValid (wDest (s.wordFor b))) :
    s.onlyCluster (s.result b.cluster b.bp (s.wordFor b)) b.cluster (s.resultIn b) := by
  rw [result_eq, raiseOperands_clean hc]
  exact put_onlyCluster (onlyCluster_refl s _) hd

theorem place_resultIn (s : State) (b : BpSel) : (s.resultIn b).place = (s.cl b.cluster).place := rfl

end Sys2Proof.Machine

/-!
NOP, LUT and END (R81), and the instructions whose effect stays in their cluster or in the probes, the fabric triggers and the
events (R79, R80, R83, R86, R89-R97).
-/

namespace Sys2Proof.Machine

/-- Settles O6: NOP by what the check of its word finds, LUT and END by what a BP that may execute does. -/
theorem nopLutEndAreR81 : Obligations.NopLutEndAreR81 := by
  unfold Obligations.NopLutEndAreR81
  refine ⟨fun s b herr => ?_, fun s b e herr hmem hop hfetched => ?_, fun s b h => ?_, fun s b h => ?_⟩
  · show execNop b s = _
    simp only [execNop, herr]
  · show execNop b s = _
    simp only [execNop, herr, hmem, hop, hfetched, and_self, if_true]
  · exact congrArg ok (bpStep_executes h rfl)
  · exact congrArg ok (bpStep_executes h rfl)

variable {s : State} {b : BpSel}

/-! ## Deposits into a word of the cluster (R79, R83, R86, R90) -/

/-- The deposit that the BP's instruction makes. -/
def State.depositOf (s : State) (b : BpSel) : Option Deposit :=
  some ⟨s.evalWord b.cluster b.bp (s.wordFor b), b.cluster, (s.cl b.cluster).step, b.bp⟩

/-- No BP has deposited bit `i` at step `step`. -/
def undeposited (m : Map (Option Deposit)) (step i : Nat) : Prop :=
  ∀ x, m.get (fun _ => none) i = some x → x.step ≠ step

/-- A bit that no BP has deposited at this step takes the deposit, and no deposit is left over. -/
theorem depositIn_undeposited {m : Map (Option Deposit)} {i : Nat} (h : undeposited m (s.cl b.cluster).step i) :
    depositIn m b.cluster (s.cl b.cluster).step b.bp i (s.evalWord b.cluster b.bp (s.wordFor b)) =
      (m.set (fun _ => none) i (s.depositOf b), none) := by
  unfold depositIn
  split
  · rename_i d hd
    exact if_neg (h d hd)
  · rfl

theorem dupDeposit_none (s : State) (c kind : Nat) : s.dupDeposit c kind none = s := rfl

/-- The fields of the cluster that the deposits go to, after `result`. -/
theorem resultIn_requests (s : State) (b : BpSel) :
    (s.resultIn b).step = (s.cl b.cluster).step ∧ (s.resultIn b).xqReq = (s.cl b.cluster).xqReq ∧
      (s.resultIn b).dmReq = (s.cl b.cluster).dmReq ∧ (s.resultIn b).arReq = (s.cl b.cluster).arReq ∧
      (s.resultIn b).staging = (s.cl b.cluster).staging := ⟨rfl, rfl, rfl, rfl, rfl⟩

section
variable (hc : s.cleanOperands b) (hd : destValid (wDest (s.wordFor b)))
include hc hd

theorem cl_result : (s.result b.cluster b.bp (s.wordFor b)).cl b.cluster = s.resultIn b := (result_onlyCluster hc hd).2.1

theorem membEffect_xq (hx : (wAux (s.wordFor b)).testBit 8 = true)
    (hfree : undeposited (s.cl b.cluster).xqReq (s.cl b.cluster).step (bits (wAux (s.wordFor b)) 0 7)) :
    s.onlyCluster (s.membEffect b.cluster b.bp (s.wordFor b)) b.cluster { s.resultIn b with
      xqReq := (s.cl b.cluster).xqReq.set (fun _ => none) (bits (wAux (s.wordFor b)) 0 7) (s.depositOf b)
      goXq := if (wAux (s.wordFor b)).testBit 7 then (s.cl b.cluster).goXq ++ [b.bp] else (s.cl b.cluster).goXq } := by
  simp only [State.membEffect, hx, if_true, cl_result hc hd, resultIn_requests, depositIn_undeposited hfree, dupDeposit_none]
  exact (result_onlyCluster hc hd).modCl _

theorem membEffect_dm (hx : (wAux (s.wordFor b)).testBit 8 = false)
    (hfree : undeposited (s.cl b.cluster).dmReq (s.cl b.cluster).step (bits (wAux (s.wordFor b)) 0 7)) :
    s.onlyCluster (s.membEffect b.cluster b.bp (s.wordFor b)) b.cluster { s.resultIn b with
      dmReq := (s.cl b.cluster).dmReq.set (fun _ => none) (bits (wAux (s.wordFor b)) 0 7) (s.depositOf b)
      goDm := if (wAux (s.wordFor b)).testBit 7 then (s.cl b.cluster).goDm ++ [b.bp] else (s.cl b.cluster).goDm } := by
  simp only [State.membEffect, hx, Bool.false_eq_true, if_false, cl_result hc hd, resultIn_requests,
    depositIn_undeposited hfree, dupDeposit_none]
  exact (result_onlyCluster hc hd).modCl _

theorem aribEffect_deposit {i : Nat} (hi : bits (wAux (s.wordFor b)) 0 7 = i) (hbit : i < 54 ∨ (64 ≤ i ∧ i < 118))
    (hfree : undeposited (s.cl b.cluster).arReq (s.cl b.cluster).step i) :
    s.onlyCluster (s.aribEffect b.cluster b.bp (s.wordFor b)) b.cluster { s.resultIn b with
      arReq := (s.cl b.cluster).arReq.set (fun _ => none) i (s.depositOf b)
      goAr := if (wAux (s.wordFor b)).testBit 7 then (s.cl b.cluster).goAr ++ [(b.bp, bits (wAux (s.wordFor b)) 8 4)]
        else (s.cl b.cluster).goAr } := by
  have hvalid : ¬ ((54 ≤ i ∧ i < 64) ∨ 118 ≤ i) := by omega
  simp only [State.aribEffect, hi, hvalid, if_false, cl_result hc hd, resultIn_requests, depositIn_undeposited hfree,
    dupDeposit_none]
  have hword := (result_onlyCluster hc hd).modCl fun cl => { cl with
    arReq := (s.cl b.cluster).arReq.set (fun _ => none) i (s.depositOf b) }
  split
  · exact hword.modCl _
  · exact hword

theorem portbEffect_deposit {ch : Nat} (hch : bits (wAux (s.wordFor b)) 6 5 = ch) (hlt : ch < 24)
    (hfree : undeposited (s.cl b.cluster).staging (s.cl b.cluster).step (ch * 64 + bits (wAux (s.wordFor b)) 0 6)) :
    s.onlyCluster (s.portbEffect b.cluster b.bp (s.wordFor b)) b.cluster { s.resultIn b with
      staging := (s.cl b.cluster).staging.set (fun _ => none) (ch * 64 + bits (wAux (s.wordFor b)) 0 6) (s.depositOf b)
      pushNow := if (wAux (s.wordFor b)).testBit 11 then (s.cl b.cluster).pushNow ++ [ch] else (s.cl b.cluster).pushNow } := by
  simp only [State.portbEffect, hch, Nat.not_le.mpr hlt, if_false, cl_result hc hd, resultIn_requests,
    depositIn_undeposited hfree, dupDeposit_none]
  exact (result_onlyCluster hc hd).modCl _

theorem popEffect_marks (hword : ((s.cl b.cluster).windows.get (fun _ => {}) (bits (wAux (s.wordFor b)) 0 4)).word.isSome) :
    s.onlyCluster ((s.result b.cluster b.bp (s.wordFor b)).modCl b.cluster fun cl => { cl with
        windows := let win := cl.windows.get (fun _ => {}) (bits (wAux (s.wordFor b)) 0 4)
          if win.word.isSome then cl.windows.set (fun _ => {}) (bits (wAux (s.wordFor b)) 0 4) { win with pop := true }
          else cl.windows })
      b.cluster { s.resultIn b with
        windows := (s.cl b.cluster).windows.set (fun _ => {}) (bits (wAux (s.wordFor b)) 0 4)
          { (s.cl b.cluster).windows.get (fun _ => {}) (bits (wAux (s.wordFor b)) 0 4) with pop := true } } := by
  have hmod := (result_onlyCluster hc hd).modCl fun cl => { cl with
    windows := let win := cl.windows.get (fun _ => {}) (bits (wAux (s.wordFor b)) 0 4)
      if win.word.isSome then cl.windows.set (fun _ => {}) (bits (wAux (s.wordFor b)) 0 4) { win with pop := true }
      else cl.windows }
  simpa only [show (s.resultIn b).windows = (s.cl b.cluster).windows from rfl, hword, if_true] using hmod

end

/-! ## Deposits into a device-wide bit (R80, R93) -/

/-- The deposit of a lower cluster stays, that of a higher one gives way, and every other bit is left alone. -/
theorem depositDevice_spec (m : Map (Option Deposit)) (c step bp i : Nat) (f : Bool) :
    ((∀ x, m.get (fun _ => none) i = some x → c < x.cluster) →
      (depositDevice m c step bp i f).get (fun _ => none) i = some ⟨f, c, step, bp⟩) ∧
    ((∃ x, m.get (fun _ => none) i = some x ∧ x.cluster < c) → depositDevice m c step bp i f = m) ∧
    ∀ j, j ≠ i → (depositDevice m c step bp i f).get (fun _ => none) j = m.get (fun _ => none) j := by
  unfold depositDevice
  cases m.get (fun _ => none) i with
  | none =>
    refine ⟨fun _ => Map.get_set_same _ _ _ _, ?_, fun j hj => Map.get_set_other _ _ _ _ _ hj⟩
    rintro ⟨x, hx, -⟩
    cases hx
  | some d =>
    dsimp only
    refine ⟨fun h => ?_, ?_, fun j hj => ?_⟩
    · rw [if_pos (Or.inl (h d rfl)), Map.get_set_same]
    · rintro ⟨x, hx, hlow⟩
      cases hx
      exact if_neg (by omega)
    · split
      · exact Map.get_set_other _ _ _ _ _ hj
      · rfl

/-! ## Events of MARK (R94, R311, R418, R430) -/

/-- The external events gathered for the next commit are those of `x`. -/
def State.gathering (s : State) (x : Nat) : State := { s with acq := { s.acq with extNext := x } }

/-- Outside REPLAYING an external event is gathered. -/
theorem acqEvent_gathers (hs : s.rc.state ≠ .replaying) (i : Nat) :
    s.acqEvent i = s.gathering (s.acq.extNext ||| 2 ^ (i - 32)) := if_neg hs

/-- What is gathered of the events `41 + j`, `j` below `n`, where `p` says which take place. -/
theorem foldl_acqEvent (p : Nat → Bool) (f : State → Nat → State) (n : Nat) (hs : s.rc.state ≠ .replaying)
    (hf : ∀ x j, f (s.gathering x) j = if p j then (s.gathering x).acqEvent (41 + j) else s.gathering x) :
    ∃ x, (List.range n).foldl f s = s.gathering x ∧
      ∀ i, x.testBit i = (s.acq.extNext.testBit i || (decide (9 ≤ i ∧ i < 9 + n) && p (i - 9))) := by
  induction n with
  | zero => exact ⟨s.acq.extNext, rfl, fun i => by simp⟩
  | succ n ih =>
    obtain ⟨x, hfold, hx⟩ := ih
    have hnew (i : Nat) : (9 ≤ i ∧ i < 9 + (n + 1)) ↔ (9 ≤ i ∧ i < 9 + n) ∨ i = 9 + n := by omega
    rw [List.range_succ, List.foldl_append, List.foldl_cons, List.foldl_nil, hfold, hf]
    by_cases hp : p n = true
    · refine ⟨x ||| 2 ^ (9 + n), ?_, fun i => ?_⟩
      · rw [if_pos hp, acqEvent_gathers (by exact hs), show 41 + n - 32 = 9 + n by omega]
        rfl
      · rw [Nat.testBit_or, hx, Nat.testBit_two_pow]
        by_cases hi : i = 9 + n
        · simp [hi, hp]
        · simp [hnew, hi, Ne.symm hi]
    · refine ⟨x, if_neg hp, fun i => ?_⟩
      rw [hx]
      by_cases hi : i = 9 + n
      · simp [hi, hp]
      · simp [hnew, hi]

/-- Spoor event `j` matches a MARK of cluster `c` with tag `tag`. -/
def State.markHit (s : State) (c tag j : Nat) : Bool :=
  s.flag (Reg.SPOOR_EVT j) 31 && s.fld (Reg.SPOOR_EVT j) 28 3 = 7 &&
    (s.flag (Reg.SPOOR_EVT j) 21 || s.fld (Reg.SPOOR_EVT j) 22 6 = c) && s.fld (Reg.SPOOR_EVT j) 0 12 = tag

/-- A MARK that is not traced, triggers nothing and is not executed again gathers the events that match it. -/
theorem fabEvent_mark (c tag bp : Nat) (hsrc : s.flag Reg.SPOOR_SRC 16 = false) (htrig : s.flag Reg.SPOOR_TRIG_CFG 2 = false)
    (hagain : s.rc.again = false) (hrun : s.rc.state = .running) :
    ∃ x, s.fabEvent 7 c tag bp = s.gathering x ∧
      ∀ i, x.testBit i = (s.acq.extNext.testBit i || (decide (9 ≤ i ∧ i < 13) && s.markHit c tag (i - 9))) := by
  have hlive : s.rc.state ≠ .replaying := by rw [hrun]; decide
  unfold State.fabEvent
  extract_lets perCluster rpl step arg b2 traced u v
  have htraced : traced = false := by simp [traced, hsrc]
  have hrpl : rpl = false := by simp [rpl, State.rpl, hagain]
  have hu : u = s := by simp [u, htraced]
  obtain ⟨x, hfold, hx⟩ := foldl_acqEvent (s := s) (s.markHit c tag)
    (fun w j => if w.markHit c tag j then w.acqEvent (41 + j) else w) 4 hlive fun _ _ => rfl
  have hv : v = s.gathering x := by
    rw [← hfold]
    simp [v, hrpl, hu, State.markHit, perCluster]
  refine ⟨x, ?_, hx⟩
  rw [hv]
  exact if_neg fun ⟨_, hon, _⟩ => absurd (htrig.symm.trans hon) (by decide)

/-! ## The clauses of the statement -/

section
variable (ho : s.othersToGo b) (hc : s.cleanOperands b) (hd : destValid (wDest (s.wordFor b)))
include ho hc hd

/-- `result`, an effect beside the clusters, and the BP has executed the step. -/
theorem bpStep_besideResult {op : Nat} {ops : Nat → Bool} {f : State → W96 → State} (h : s.mayExecute b op)
    (hop : ops op = true)
    (hf : (f s (s.wordFor b)).clusters = (s.result b.cluster b.bp (s.wordFor b)).clusters ∧
      (f s (s.wordFor b)).imem = (s.result b.cluster b.bp (s.wordFor b)).imem) :
    s.bpStep b ops f = ((f s (s.wordFor b)).modCl b.cluster fun cl => cl.hasDone b.bp) ∧
      (s.bpStep b ops f).cl b.cluster = (s.resultIn b).hasDone b.bp ∧
      ∀ c, c ≠ b.cluster → (s.bpStep b ops f).cl c = s.cl c := by
  obtain ⟨hclusters, himem⟩ := hf
  have hr := result_onlyCluster hc hd
  obtain ⟨hi, hplace⟩ := hr.keepsPlace (place_resultIn s b)
  obtain ⟨-, hown, hother⟩ := hr
  have hcl (c : Nat) : (f s (s.wordFor b)).cl c = (s.result b.cluster b.bp (s.wordFor b)).cl c := by
    rw [State.cl, hclusters]; rfl
  have hstep := bpStep_othersToGo h hop ho (f := f) ⟨himem.trans hi, by rw [hcl, hplace]⟩
  refine ⟨hstep, ?_, fun c hne => ?_⟩
  · rw [hstep, cl_modCl_same, hcl, hown]
  · rw [hstep, cl_modCl_other _ _ hne, hcl, hother c hne]

theorem exec_probe (h : s.mayExecute b 6) : ∃ t, exec (.probe b) s = .next t ∧
    t = { s with clusters := t.clusters, probes := t.probes } ∧
    t.cl b.cluster = (s.resultIn b).hasDone b.bp ∧ (∀ c, c ≠ b.cluster → t.cl c = s.cl c) ∧
    t.probes = depositDevice s.probes b.cluster (s.cl b.cluster).step b.bp (wAux (s.wordFor b))
      (s.evalWord b.cluster b.bp (s.wordFor b)) := by
  obtain ⟨hs, hown, -⟩ := result_onlyCluster hc hd
  obtain ⟨hstep, hcl⟩ := bpStep_besideResult ho hc hd (ops := (· = 6)) (f := fun s w =>
    let f := s.evalWord b.cluster b.bp w
    let s := s.result b.cluster b.bp w
    { s with probes := depositDevice s.probes b.cluster (s.cl b.cluster).step b.bp (wAux w) f }) h rfl ⟨rfl, rfl⟩
  refine ⟨_, rfl, ?_, hcl.1, hcl.2, ?_⟩
  · rw [hstep, hs]; rfl
  · rw [hstep]
    show depositDevice _ _ _ _ _ _ = _
    rw [hown, hs]; rfl

theorem exec_trigb (h : s.mayExecute b 7) : ∃ t, exec (.trigb b) s = .next t ∧
    t = { s with clusters := t.clusters, fabTrig := t.fabTrig } ∧
    t.cl b.cluster = (s.resultIn b).hasDone b.bp ∧ (∀ c, c ≠ b.cluster → t.cl c = s.cl c) ∧
    t.fabTrig = depositDevice s.fabTrig b.cluster (s.cl b.cluster).step b.bp (bits (wAux (s.wordFor b)) 0 4)
      (s.evalWord b.cluster b.bp (s.wordFor b)) := by
  obtain ⟨hs, hown, -⟩ := result_onlyCluster hc hd
  obtain ⟨hstep, hcl, hother⟩ := bpStep_besideResult ho hc hd (ops := (· = 7)) (f := fun s w =>
    let f := s.evalWord b.cluster b.bp w
    let s := s.result b.cluster b.bp w
    { s with fabTrig := depositDevice s.fabTrig b.cluster (s.cl b.cluster).step b.bp (bits (wAux w) 0 4) f }) h rfl ⟨rfl, rfl⟩
  refine ⟨_, rfl, ?_, hcl, hother, ?_⟩
  · rw [hstep, hs]; rfl
  · rw [hstep]
    show depositDevice _ _ _ _ _ _ = _
    rw [hown, hs]; rfl

theorem exec_mark (h : s.mayExecute b 0xE) (hsrc : s.flag Reg.SPOOR_SRC 16 = false)
    (htrig : s.flag Reg.SPOOR_TRIG_CFG 2 = false) (hagain : s.rc.again = false) (hrun : s.rc.state = .running) :
    ∃ t, exec (.mark b) s = .next t ∧
      t = { s with clusters := t.clusters, acq := { s.acq with extNext := t.acq.extNext } } ∧
      t.cl b.cluster = (s.resultIn b).hasDone b.bp ∧ (∀ c, c ≠ b.cluster → t.cl c = s.cl c) ∧
      ∀ i, t.acq.extNext.testBit i = (s.acq.extNext.testBit i ||
        (decide (9 ≤ i ∧ i < 13) && s.markHit b.cluster (wAux (s.wordFor b)) (i - 9))) := by
  obtain ⟨hs, -, -⟩ := result_onlyCluster hc hd
  obtain ⟨x, hx, hbits⟩ := fabEvent_mark (s := s.result b.cluster b.bp (s.wordFor b)) b.cluster (wAux (s.wordFor b)) b.bp
    (by rw [hs]; exact hsrc) (by rw [hs]; exact htrig) (by rw [hs]; exact hagain) (by rw [hs]; exact hrun)
  obtain ⟨hstep, hcl, hother⟩ := bpStep_besideResult ho hc hd (ops := (· = 0xE))
    (f := fun s w => (s.result b.cluster b.bp w).fabEvent 7 b.cluster (wAux w) b.bp) h rfl (by rw [hx]; exact ⟨rfl, rfl⟩)
  rw [hx] at hstep
  refine ⟨_, rfl, ?_, hcl, hother, fun i => ?_⟩
  · rw [hstep, hs]; rfl
  · rw [hstep, show ∀ f, (((s.result b.cluster b.bp (s.wordFor b)).gathering x).modCl b.cluster f).acq.extNext = x from
      fun _ => rfl, hbits i, hs]
    rfl

end

/-- WAITQ of an outstanding tag marks it for retirement. -/
theorem waitqEffect_outstanding
    (htag : ((s.cl b.cluster).tags.get (fun _ => none) (bits (wAux (s.wordFor b)) 0 5)).isSome) :
    s.onlyCluster (s.waitqEffect b.cluster b.bp (s.wordFor b)) b.cluster { s.cl b.cluster with
      retire := (s.cl b.cluster).retire ++ [(b.bp, bits (wAux (s.wordFor b)) 0 5)] } := by
  obtain ⟨x, hx⟩ := Option.isSome_iff_exists.mp htag
  simp only [State.waitqEffect, hx]
  exact (onlyCluster_refl s _).modCl _

/-- Settles O9: each row by its own effect, its clauses in the order of the statement: the words of the cluster, the device-wide
bits, the waits, and MARK. -/
theorem depositsAndWaitsReachTheirObjects : Obligations.DepositsAndWaitsReachTheirObjects := by
  unfold Obligations.DepositsAndWaitsReachTheirObjects
  refine ⟨?_, ?_, ?_, ?_⟩
  · intro s b w cl bit d free ho hc hd
    refine ⟨fun h hx hfree => ?_, fun h hx hfree => ?_, fun h hbit hfree => ?_, fun h hch hfree => ?_⟩
    · exact ⟨_, rfl, bpStep_onlyCluster h rfl ho (membEffect_xq hc hd hx hfree) (by rfl) (by rfl)⟩
    · exact ⟨_, rfl, bpStep_onlyCluster h rfl ho (membEffect_dm hc hd hx hfree) (by rfl) (by rfl)⟩
    · exact ⟨_, rfl, bpStep_onlyCluster h rfl ho (aribEffect_deposit hc hd rfl hbit hfree) (by rfl) (by rfl)⟩
    · exact ⟨_, rfl, bpStep_onlyCluster h rfl ho (portbEffect_deposit hc hd rfl hch hfree) (by rfl) (by rfl)⟩
  · intro s b w cl d after ho hc hd
    refine ⟨fun h => ?_, fun h => ?_⟩
    · obtain ⟨t, ht, hs, hown, hother, hprobes⟩ := exec_probe ho hc hd h
      exact ⟨t, ht, hs, hown, hother, hprobes ▸ depositDevice_spec _ _ _ _ _ _⟩
    · obtain ⟨t, ht, hs, hown, hother, htrig⟩ := exec_trigb ho hc hd h
      exact ⟨t, ht, hs, hown, hother, htrig ▸ depositDevice_spec _ _ _ _ _ _⟩
  · intro s b w cl ho
    refine ⟨fun h htag => ?_, fun h => ?_, fun h hc hd hword => ?_⟩
    · exact ⟨_, rfl, bpStep_onlyCluster h rfl ho (waitqEffect_outstanding htag) (by rfl) (by rfl)⟩
    · exact ⟨_, rfl, bpStep_onlyCluster h rfl ho (onlyCluster_refl s _) (by rfl) (by rfl)⟩
    · exact ⟨_, rfl, bpStep_onlyCluster h rfl ho (popEffect_marks hc hd hword) (by rfl) (by rfl)⟩
  · intro s b w hit h ho hc hd hsrc htrig hagain hrun
    exact exec_mark ho hc hd h hsrc htrig hagain hrun

end Sys2Proof.Machine

/-!
Reports up both control trees (R214, R217), and what a SCHEDULE fault leaves (R107-R110), on a device that is root of neither.
-/

namespace Sys2Proof.Machine

variable {s t u : State}

/-! ## Reports (R214, R215) -/

/-- A report `l` has left: nothing else changes but the lanes it leaves by and what is to be repeated until its answer. -/
def State.Reported (s t : State) (l : List TxItem) : Prop :=
  t = { s with tx := s.tx ++ l, lines := t.lines, net := { s.net with repeats := t.net.repeats } }

theorem State.Reported.trans {l m : List TxItem} (h : s.Reported t l) (h' : t.Reported u m) : s.Reported u (l ++ m) :=
  Eq.trans h' (by rw [h, ← List.append_assoc])

/-- The copies of `m` that a device which is root of no tree sends to its two parents. -/
def State.reportsFor (s : State) (g : Nat) (m : Msg) : List TxItem :=
  s.setsFor [s.parent 0] 0 g m ++ s.setsFor [s.parent 1] 1 g m

theorem mem_setsFor {p : Nat} (h : s.portSends p = true) (k g : Nat) (m : Msg) :
    TxItem.set p (k + 1) 2 g m ∈ s.setsFor [p] k g m := by
  simp [State.setsFor, h]

/-- A copy leaves on each tree where the port to the parent can send. -/
theorem mem_reportsFor {k : Nat} (hk : k < 2) (h : s.portSends (s.parent k) = true) (g : Nat) (m : Msg) :
    TxItem.set (s.parent k) (k + 1) 2 g m ∈ s.reportsFor g m := by
  obtain rfl | rfl : k = 0 ∨ k = 1 := by omega
  · exact List.mem_append_left _ (mem_setsFor h 0 g m)
  · exact List.mem_append_right _ (mem_setsFor h 1 g m)

theorem reported_await (s : State) (k : Nat) (m : Msg) : s.Reported (s.await k m) [] := by
  unfold State.await State.Reported
  split <;> simp

theorem reported_sendUpAs {k : Nat} (h : s.isRoot k = false) (g : Nat) (m : Msg) :
    s.Reported (s.sendUpAs k g m) (s.setsFor [s.parent k] k g m) := by
  unfold State.sendUpAs
  rw [if_neg (by simp [h])]
  rfl

/-- A report is sent up and, unless it is answered already (`p`), awaited. -/
theorem reported_sendUp_await {k : Nat} (h : s.isRoot k = false) (g : Nat) (m : Msg) (p : Prop) [Decidable p] :
    s.Reported (if p then s.sendUpAs k g m else (s.sendUpAs k g m).await k m) (s.setsFor [s.parent k] k g m) := by
  have hsend := reported_sendUpAs h g m
  split
  · exact hsend
  · simpa using hsend.trans (reported_await _ k m)

theorem reported_schedStopUp {k : Nat} (h : s.isRoot k = false) (g n dev : Nat) :
    s.Reported (s.schedStopUp k g n dev) (s.setsFor [s.parent k] k g (.schedStop n dev)) := by
  unfold State.schedStopUp
  rw [if_neg (by simp [h])]
  exact reported_sendUp_await h g _ _

theorem reported_abortUp {k : Nat} (h : s.isRoot k = false) (g n dev : Nat) :
    s.Reported (s.abortUp k g n dev) (s.setsFor [s.parent k] k g (.abortUp n dev)) := by
  unfold State.abortUp
  rw [if_neg (by simp [h])]
  exact reported_sendUp_await h g _ _

/-- A device that is root of no tree sends its report up tree A, then up tree B. -/
theorem reported_bothTrees (h : s.notRoot) (f : State → Nat → State) (g : Nat) (m : Msg)
    (hf : ∀ (u : State) k, u.devId = s.devId → u.isRoot k = false → u.Reported (f u k) (u.setsFor [u.parent k] k g m)) :
    s.Reported (s.bothTrees f) (s.reportsFor g m) := by
  obtain ⟨h0, h1⟩ := h
  have ha := hf s 0 rfl h0
  unfold State.bothTrees
  rw [if_neg (by simp [h0])]
  refine ha.trans ?_
  have hb := hf (f s 0) 1 (by rw [ha]; rfl) (by rw [ha]; exact h1)
  rwa [show (f s 0).setsFor [(f s 0).parent 1] 1 g m = s.setsFor [s.parent 1] 1 g m by rw [ha]; rfl] at hb

/-- Registers that what a device notes of a fault leaves alone decide where its reports go, as do its links and whether it is
in FATAL. -/
theorem reportsFor_congr (hr : s.keepsRegs t [Reg.ABORT_STAT]) (hlinks : t.links = s.links)
    (hstate : t.rc.state = s.rc.state) (g : Nat) (m : Msg) : t.reportsFor g m = s.reportsFor g m := by
  have hkeep (off : Nat) (h : 0x50_0000 ≤ off ∧ off < 0x61_0000) : t.rd off = s.rd off :=
    hr off (by simp only [List.mem_singleton, Reg.ABORT_STAT]; omega) (not_mem_noteRegs (by omega))
  have hparent (k : Nat) (hk : k < 2) : t.parent k = s.parent k := fld_congr (hkeep _ (by simp only [Reg.TREE_CFG]; omega)) _ _
  have hsets (k : Nat) (hk : k < 2) : t.setsFor [t.parent k] k g m = s.setsFor [s.parent k] k g m := by
    have hlt : s.parent k < 8 := fld_lt s _ _ 3
    have hport : t.flag (Reg.PORT_STAT (s.parent k)) 31 = s.flag (Reg.PORT_STAT (s.parent k)) 31 :=
      flag_congr (hkeep _ (by simp only [Reg.PORT_STAT]; omega)) _
    have hsends : t.portSends (s.parent k) = s.portSends (s.parent k) := by
      simp only [State.portSends, State.link, hport, hlinks, hstate]
    rw [State.setsFor, State.setsFor, hparent k hk, List.filter_cons, List.filter_cons, hsends]
    rfl
  rw [State.reportsFor, State.reportsFor, hsets 0 (by decide), hsets 1 (by decide)]

theorem notRoot_congr (hr : s.keepsRegs t [Reg.ABORT_STAT]) (h : s.notRoot) : t.notRoot := by
  have hroot (k : Nat) (hk : k < 2) : t.isRoot k = s.isRoot k :=
    flag_congr (hr _ (by simp only [List.mem_singleton, Reg.ABORT_STAT, Reg.TREE_CFG]; omega)
      (not_mem_noteRegs (by simp only [Reg.TREE_CFG]; omega))) _
  exact ⟨(hroot 0 (by decide)).trans h.1, (hroot 1 (by decide)).trans h.2⟩

/-! ## SCHEDULE faults (R107-R110) -/

theorem State.keepsRegs.trans {l : List Nat} (h : s.keepsRegs t l) (h' : t.keepsRegs u l) : s.keepsRegs u l :=
  fun off hl hn => (h' off hl hn).trans (h off hl hn)

theorem State.keepsRegs.mono {l l' : List Nat} (h : s.keepsRegs t l) (hl : ∀ off ∈ l, off ∈ l') : s.keepsRegs t l' :=
  fun off hoff hn => h off (fun hm => hoff (hl off hm)) hn

/-- SCHEDULE faults are noted: their records or their count, the stop held, and what is sent and repeated of it. -/
def State.Faulted (s t : State) : Prop :=
  t = { s with
    csr := t.csr, faults := t.faults, tx := t.tx, lines := t.lines
    rc := { s.rc with faults := t.rc.faults, unsaid := t.rc.unsaid, stop := t.rc.stop, stopLow := t.rc.stopLow }
    net := { s.net with repeats := t.net.repeats } } ∧ s.keepsRegs t []

theorem State.Faulted.refl (s : State) : s.Faulted s := ⟨rfl, fun _ _ _ => rfl⟩

theorem State.Faulted.trans (h : s.Faulted t) (h' : t.Faulted u) : s.Faulted u :=
  ⟨Eq.trans h'.1 (by rw [h.1]), h.2.trans h'.2⟩

theorem State.Faulted.cl (h : s.Faulted t) (c : Nat) : t.cl c = s.cl c := by rw [h.1]; rfl

theorem State.Faulted.notRoot (h : s.Faulted t) (hroot : s.notRoot) : t.notRoot :=
  notRoot_congr (h.2.mono fun _ hl => absurd hl List.not_mem_nil) hroot

theorem State.Reported.faulted {l : List TxItem} (h : s.Reported t l) : s.Faulted t :=
  ⟨Eq.trans h (by rw [show t.csr = s.csr by rw [h], show t.faults = s.faults by rw [h], show t.tx = s.tx ++ l by rw [h],
    show t.rc = s.rc by rw [h]]), fun off _ _ => by rw [h]; rfl⟩

/-- A SCHEDULE fault is recorded, or counted where the cycle has 16 records (R109). -/
def State.noteSched (s : State) (source code detail : Nat) : State :=
  let k := s.rc.faults.get (fun _ => 0) s.latestBegun
  (if k < 16 then s.recordAt cSchedule source code detail s.latestBegun
    else s.modRc fun r => { r with unsaid := r.unsaid + 1 }).modRc fun r =>
      { r with faults := r.faults.set (fun _ => 0) s.latestBegun (k + 1) }

/-- The stop of the latest cycle begun is held. -/
def State.holdSched (s : State) (n : Nat) : State := s.modRc fun r => { r.holdStop n with stop := some n }

theorem schedFault_eq (s : State) (source code detail : Nat) : s.schedFault source code detail =
    if (s.noteSched source code detail).rc.stop.any (fun m => decide (m ≤ s.latestBegun)) then
      s.noteSched source code detail
    else ((s.noteSched source code detail).holdSched s.latestBegun).bothTrees fun u k =>
      u.schedStopUp k (s.noteSched source code detail).net.gen s.latestBegun u.devId := rfl

theorem noteSched_faulted (s : State) (source code detail : Nat) :
    s.Faulted (s.noteSched source code detail) ∧ (s.noteSched source code detail).rc.stop = s.rc.stop := by
  unfold State.noteSched
  dsimp only
  split
  · have h := recordAt_eta s cSchedule source code detail s.latestBegun
    refine ⟨⟨?_, fun off _ hn => ?_⟩, ?_⟩
    · rw [h]; rfl
    · rw [rd_modRc, rd_recordAt s _ _ _ _ _ _ hn]
    · simp
  · exact ⟨⟨rfl, fun _ _ _ => rfl⟩, rfl⟩

theorem holdSched_faulted (s : State) (n : Nat) : s.Faulted (s.holdSched n) := by
  refine ⟨?_, fun _ _ _ => rfl⟩
  unfold State.holdSched RunCtl.holdStop State.modRc
  dsimp only
  split <;> rfl

/-- In a cycle that holds a stop as low as a fault of the latest cycle begun, the fault is noted and nothing is sent. -/
theorem schedFault_held (source code detail : Nat) {n : Nat} (hstop : s.rc.stop = some n) (hn : n ≤ s.latestBegun) :
    s.schedFault source code detail = s.noteSched source code detail := by
  rw [schedFault_eq, (noteSched_faulted s source code detail).2, hstop]
  exact if_pos (by simpa using hn)

/-- Where no stop is held, a fault on a device that is root of no tree is held as the stop of its cycle, and reported. -/
theorem schedFault_first (source code detail : Nat) (hroot : s.notRoot) (hstop : s.rc.stop = none) :
    ∃ u, s.Faulted u ∧ u.rc.stop = some s.latestBegun ∧ u.Reported (s.schedFault source code detail)
      (s.reportsFor s.net.gen (.schedStop s.latestBegun s.devId)) := by
  obtain ⟨hnoted, hnone⟩ := noteSched_faulted s source code detail
  have hf := hnoted.trans (holdSched_faulted _ s.latestBegun)
  refine ⟨_, hf, rfl, ?_⟩
  have hdev : ((s.noteSched source code detail).holdSched s.latestBegun).devId = s.devId :=
    fld_congr (hf.2 _ List.not_mem_nil (not_mem_noteRegs (by decide))) _ _
  have hgen : (s.noteSched source code detail).net.gen = s.net.gen := by rw [hnoted.1]
  have hreports := reported_bothTrees (hf.notRoot hroot) (fun u k => u.schedStopUp k s.net.gen s.latestBegun u.devId) s.net.gen
    (.schedStop s.latestBegun s.devId) fun u k hu hk => by
      rw [hu.trans hdev]; exact reported_schedStopUp hk _ _ _
  rw [schedFault_eq, hnone, hstop, if_neg (by simp), hgen]
  rwa [reportsFor_congr (hf.2.mono fun _ hl => absurd hl List.not_mem_nil) (by rw [hf.1]) (by rw [hf.1])] at hreports

/-- Cycles run on a device that is root of no tree, and no stop is held but one of the cycle in progress. -/
def State.MayStop (s : State) : Prop :=
  s.rc.begun = true ∧ s.rc.fresh = false ∧ (s.rc.stop = none ∨ s.rc.stop = some s.rc.ecn) ∧ s.notRoot

theorem State.MayStop.latestBegun (h : s.MayStop) : s.latestBegun = s.rc.ecn := by
  obtain ⟨hbegun, hfresh, -⟩ := h
  simp [State.latestBegun, hbegun, hfresh]

/-- A fault of the cycle in progress is noted, and its stop held. -/
theorem schedFault_stops (source code detail : Nat) (h : s.MayStop) :
    s.Faulted (s.schedFault source code detail) ∧ (s.schedFault source code detail).rc.stop = some s.rc.ecn := by
  have hlatest := h.latestBegun
  obtain ⟨-, -, hstop | hstop, hroot⟩ := h
  · obtain ⟨u, hf, hu, hr⟩ := schedFault_first source code detail hroot hstop
    exact ⟨hf.trans hr.faulted, by rw [hr, ← hlatest]; exact hu⟩
  · obtain ⟨hf, heq⟩ := noteSched_faulted s source code detail
    rw [schedFault_held source code detail hstop hlatest.ge]
    exact ⟨hf, heq.trans hstop⟩

theorem State.Faulted.mayStop (h : s.Faulted t) (hs : s.MayStop) (ht : t.rc.stop = none ∨ t.rc.stop = some s.rc.ecn) : t.MayStop := by
  obtain ⟨hbegun, hfresh, -, hroot⟩ := hs
  refine ⟨by rw [h.1]; exact hbegun, by rw [h.1]; exact hfresh, ?_, h.notRoot hroot⟩
  rwa [show t.rc.ecn = s.rc.ecn by rw [h.1]]

/-- A fault noted leaves every cluster at its place. -/
theorem State.Faulted.keepsPlace (h : s.Faulted t) (c : Nat) : s.KeepsPlace t c := ⟨by rw [h.1], by rw [h.cl]⟩

end Sys2Proof.Machine

/-!
The instructions that raise SCHEDULE faults: a reserved opcode (R77), and a LUT with a faulty operand or DEST (R75, R98).
-/

namespace Sys2Proof.Machine

variable {s t u : State} {b : BpSel}

/-! ## Reserved opcodes (R77) -/

theorem schReserved_eq (s : State) (c bp kind pos : Nat) : s.schReserved c bp kind pos =
    s.schedFault bFabric 0x0107 (detailAt c bp (s.cl c).step (kind <<< 4 + pos <<< 2)) := rfl

theorem exec_reservedOpcode {op : Nat} (hlo : 0xB ≤ op) (hhi : op ≤ 0xD) (h : s.mayExecute b op) :
    exec (.reservedOpcode b) s = .next (((s.schReserved b.cluster b.bp 0 0).modCl b.cluster
      fun cl => cl.hasDone b.bp).endStep b.cluster) :=
  congrArg ok (bpStep_executes h (by simp [hlo, hhi]))

theorem schReserved_first (kind pos : Nat) (h : s.MayStop) (hstop : s.rc.stop = none) {k : Nat} (hk : k < 2)
    (hsends : s.portSends (s.parent k) = true) :
    TxItem.set (s.parent k) (k + 1) 2 s.net.gen (.schedStop s.rc.ecn s.devId) ∈ (s.schReserved b.cluster b.bp kind pos).tx := by
  obtain ⟨u, -, -, hreported⟩ := schedFault_first bFabric 0x0107
    (detailAt b.cluster b.bp (s.cl b.cluster).step (kind <<< 4 + pos <<< 2)) h.2.2.2 hstop
  rw [schReserved_eq, hreported, ← h.latestBegun]
  exact List.mem_append_right _ (mem_reportsFor hk hsends _ _)

/-- Settles O10: the row by what a BP that may execute does, the stop and its reports by what the first fault of a cycle does. -/
theorem reservedOpcodeRaisesFault : Obligations.ReservedOpcodeRaisesFault := by
  unfold Obligations.ReservedOpcodeRaisesFault
  refine ⟨fun s b op hlo hhi h => exec_reservedOpcode hlo hhi h, ?_⟩
  intro s b op hlo hhi h ho hbegun hfresh hstop _ h0 h1
  have hmay : s.MayStop := ⟨hbegun, hfresh, .inl hstop, h0, h1⟩
  obtain ⟨hf, hheld⟩ := schedFault_stops bFabric 0x0107 (detailAt b.cluster b.bp (s.cl b.cluster).step (0 <<< 4 + 0 <<< 2)) hmay
  rw [← schReserved_eq] at hf hheld
  refine ⟨_, (exec_reservedOpcode hlo hhi h).trans (congrArg ok (endStep_othersToGo ho (hf.keepsPlace _))), ?_,
    fun c hc => ?_, hheld, schReserved_first 0 0 hmay hstop (k := 0) (by decide),
    schReserved_first 0 0 hmay hstop (k := 1) (by decide)⟩
  · rw [cl_modCl_same, hf.cl]
  · rw [cl_modCl_other _ _ hc, hf.cl]

/-! ## Operands (R72, R73) -/

/-- What an operand read answers: 0 where it meets a fault. -/
def ReadsZero (r : Bool × Option OpFault) : Prop := r.2 ≠ none → r.1 = false

theorem readsZero_value (v : Bool) : ReadsZero (v, none) := fun h => absurd rfl h

theorem readsZero_fault (e : Option OpFault) : ReadsZero (false, e) := fun _ => rfl

theorem readsZero_ite {p : Prop} [Decidable p] {r r' : Bool × Option OpFault} (h : ReadsZero r) (h' : ReadsZero r') :
    ReadsZero (if p then r else r') := by
  split
  · exact h
  · exact h'

/-- Each of the four operand spaces reads 0 where the read meets a fault. -/
theorem operand_readsZero (s : State) (c bp x : Nat) : ReadsZero (s.operand c bp x) := by
  have hv := readsZero_value
  have hf := readsZero_fault
  unfold State.operand
  dsimp only
  split
  case h_1 =>
    refine readsZero_ite (hf _) ?_
    split
    · exact hv _
    · exact hf _
  case h_2 => exact readsZero_ite (hv _) (hf _)
  case h_3 => exact hv _
  case h_4 =>
    refine readsZero_ite (hv _) <| readsZero_ite (hv _) <| readsZero_ite (hv _) <| readsZero_ite (hv _) <|
      readsZero_ite (hv _) <| readsZero_ite (hv _) <| readsZero_ite (hv _) <| readsZero_ite ?_ (hf _)
    split
    · exact hv _
    · exact readsZero_ite (hf _) (hf _)

theorem operandFault_stops (c bp k : Nat) (e : OpFault) (h : s.MayStop) :
    s.Faulted (s.operandFault c bp k e) ∧ (s.operandFault c bp k e).rc.stop = some s.rc.ecn := by
  cases e <;> exact schedFault_stops _ _ _ h

/-- The faults of the operand reads are noted; where there is one, its stop is held. -/
theorem raiseOperands_stops (c bp : Nat) (w : W96) (h : s.MayStop) :
    s.Faulted (s.raiseOperands c bp w) ∧
      ((s.raiseOperands c bp w).rc.stop = none ∨ (s.raiseOperands c bp w).rc.stop = some s.rc.ecn) ∧
      ((∃ k < 4, (s.operand c bp (wOperand w k)).2 ≠ none) → (s.raiseOperands c bp w).rc.stop = some s.rc.ecn) := by
  suffices hfold : ∀ (l : List Nat) (u : State), s.Faulted u → (u.rc.stop = none ∨ u.rc.stop = some s.rc.ecn) →
      ∀ t, t = l.foldl (fun t k => t.raiseOperand c bp k (s.operand c bp (wOperand w k)).2) u →
      s.Faulted t ∧ (t.rc.stop = none ∨ t.rc.stop = some s.rc.ecn) ∧
        ((u.rc.stop = some s.rc.ecn ∨ ∃ k ∈ l, (s.operand c bp (wOperand w k)).2 ≠ none) → t.rc.stop = some s.rc.ecn) by
    obtain ⟨hf, hstop, hsome⟩ := hfold (List.range 4) s (.refl s) h.2.2.1 _ rfl
    exact ⟨hf, hstop, fun ⟨k, hk, he⟩ => hsome (.inr ⟨k, List.mem_range.mpr hk, he⟩)⟩
  intro l
  induction l with
  | nil =>
    rintro u hf hstop t rfl
    exact ⟨hf, hstop, by simp⟩
  | cons k l ih =>
    rintro u hf hstop t rfl
    rw [List.foldl_cons]
    cases he : (s.operand c bp (wOperand w k)).2 with
    | none =>
      obtain ⟨hf', hstop', hsome⟩ := ih u hf hstop _ rfl
      refine ⟨hf', hstop', ?_⟩
      simpa [he, State.raiseOperand] using hsome
    | some e =>
      obtain ⟨hfe, hse⟩ := operandFault_stops c bp k e (hf.mayStop h hstop)
      rw [show u.rc.ecn = s.rc.ecn by rw [hf.1]] at hse
      obtain ⟨hf', hstop', hsome⟩ := ih (u.operandFault c bp k e) (hf.trans hfe) (.inr hse) _ rfl
      exact ⟨hf', hstop', fun _ => hsome (.inl hse)⟩

/-! ## LUT (R75, R98) -/

/-- A reserved DEST raises its fault and takes no value. -/
theorem put_reserved (s : State) (c bp dest : Nat) (f : Bool) (h : ¬ destValid dest) :
    s.put c bp dest f = s.schReserved c bp 3 0 := by
  have hlt : bits dest 10 2 < 4 := Nat.mod_lt _ (by decide)
  unfold destValid at h
  unfold State.put
  split
  · omega
  · exact if_neg (by omega)
  · omega
  · rfl

/-- `result` with a faulty operand or DEST: the stop is held, and f goes where a valid DEST says, else to NEAR only. -/
theorem result_faulty (h : s.MayStop) (hbad : ¬ s.cleanOperands b ∨ ¬ destValid (wDest (s.wordFor b))) :
    ∃ v, (destValid (wDest (s.wordFor b)) → v = s.resultIn b) ∧
      (¬ destValid (wDest (s.wordFor b)) → v = { s.cl b.cluster with
        nearNext := (s.cl b.cluster).nearNext ++ [(b.bp, s.evalWord b.cluster b.bp (s.wordFor b))] }) ∧
      (s.result b.cluster b.bp (s.wordFor b)).cl b.cluster = v ∧
      (∀ c, c ≠ b.cluster → (s.result b.cluster b.bp (s.wordFor b)).cl c = s.cl c) ∧
      (s.result b.cluster b.bp (s.wordFor b)).imem = s.imem ∧
      (s.result b.cluster b.bp (s.wordFor b)).rc.stop = some s.rc.ecn := by
  obtain ⟨hf, hstop, hsome⟩ := raiseOperands_stops b.cluster b.bp (s.wordFor b) h
  rw [result_eq]
  generalize s.raiseOperands b.cluster b.bp (s.wordFor b) = u at hf hstop hsome
  by_cases hd : destValid (wDest (s.wordFor b))
  · obtain ⟨hr, hown, hother⟩ := put_onlyCluster (bp := b.bp) (f := s.evalWord b.cluster b.bp (s.wordFor b))
      (onlyCluster_refl u b.cluster) hd
    have hfault : ∃ k < 4, (s.operand b.cluster b.bp (wOperand (s.wordFor b) k)).2 ≠ none := by
      simpa [State.cleanOperands, hd] using hbad
    refine ⟨_, fun _ => ?_, fun hn => absurd hd hn, hown, fun c hc => ?_, ?_, ?_⟩
    · rw [hf.cl, State.resultIn]
    · rw [hother c hc, hf.cl]
    · rw [hr, hf.1]
    · rw [hr]; exact hsome hfault
  · rw [put_reserved _ _ _ _ _ hd, schReserved_eq]
    obtain ⟨hfv, hsv⟩ := schedFault_stops bFabric 0x0107 (detailAt b.cluster b.bp _ (3 <<< 4 + 0 <<< 2))
      (s := u.modCl b.cluster fun cl => { cl with
        nearNext := cl.nearNext ++ [(b.bp, s.evalWord b.cluster b.bp (s.wordFor b))] }) (hf.mayStop h hstop)
    refine ⟨_, fun hv => absurd hv hd, fun _ => ?_, hfv.cl _, fun c hc => ?_, ?_, ?_⟩
    · rw [cl_modCl_same, hf.cl]
    · rw [hfv.cl, cl_modCl_other _ _ hc, hf.cl]
    · rw [hfv.1, hf.1]; rfl
    · rw [hsv, hf.1]; rfl

/-- Settles O7: a LUT without faults by its `result`, one with a fault by what the fault leaves of it. -/
theorem lutWritesItsResultAndFaultsGoOn : Obligations.LutWritesItsResultAndFaultsGoOn := by
  unfold Obligations.LutWritesItsResultAndFaultsGoOn
  refine ⟨fun s b h ho hc hd => ?_, operand_readsZero, fun s b h ho hbegun hfresh hstop h0 h1 hbad => ?_⟩
  · exact ⟨_, rfl, bpStep_onlyCluster h rfl ho (result_onlyCluster hc hd) (by rfl) (by rfl)⟩
  · obtain ⟨v, hvalid, hreserved, hown, hother, himem, hheld⟩ :=
      result_faulty (b := b) (s := s) ⟨hbegun, hfresh, .inl hstop, h0, h1⟩ hbad
    have hplace : v.place = (s.cl b.cluster).place := by
      by_cases hd : destValid (wDest (s.wordFor b))
      · rw [hvalid hd]; rfl
      · rw [hreserved hd]; rfl
    have hstep := bpStep_othersToGo (f := fun s w => s.result b.cluster b.bp w) (ops := (· = 1)) h rfl ho
      ⟨himem, by rw [hown, hplace]⟩
    refine ⟨_, congrArg ok hstep, hheld, fun c hc => ?_, fun hd => ?_, fun hd => ?_⟩
    · rw [cl_modCl_other _ _ hc, hother c hc]
    · rw [cl_modCl_same, hown, hvalid hd]
    · rw [cl_modCl_same, hown, hreserved hd]; rfl

end Sys2Proof.Machine

/-!
XQ responses (R85, R105, R157, R160), the stall watchdog (R41) and the background pass (R61, R63).
-/

namespace Sys2Proof.Machine

variable {s t : State}

/-! ## XQ_RESPONSE -/

theorem exec_xqResponse_none {c serial : Nat} (h : s.xqTagOf c serial = none) (failed : Bool) :
    exec (.xqResponse c serial failed) s = .next s := by
  show execXqResponse c serial failed s = _
  simp only [execXqResponse, h]

theorem registered_setFld (s : State) (off l w v : Nat) : s.Registered (s.setFld off l w v) := rfl

theorem registered_count (s : State) (off l w k : Nat) : s.Registered (s.count off l w k) := rfl

/-- The field of XQ_STAT that keeps the largest latency takes `lat` where it is larger (R85). -/
def State.noteLatency (s : State) (off lat : Nat) : State := if s.fld off 16 16 < lat then s.setFld off 16 16 lat else s

theorem registered_noteLatency (s : State) (off lat : Nat) : s.Registered (s.noteLatency off lat) := by
  unfold State.noteLatency
  split
  · exact registered_setFld s off 16 16 lat
  · rfl

theorem rd_noteLatency_other (s : State) (off lat r : Nat) (h : r ≠ off) : (s.noteLatency off lat).rd r = s.rd r := by
  unfold State.noteLatency
  split
  · exact rd_setFld_other s _ _ _ _ _ h
  · rfl

theorem fld_noteLatency (s : State) (off lat : Nat) (hlat : lat < 2 ^ 16) :
    (s.noteLatency off lat).fld off 16 16 = max (s.fld off 16 16) lat := by
  unfold State.noteLatency
  split
  · rw [fld_setFld_same s off 16 16 lat (by decide), Nat.mod_eq_of_lt hlat]
    omega
  · omega

/-- The tag's request has its response. -/
def Cluster.arrived (cl : Cluster) (tag : Nat) (x : XqTag) : Cluster :=
  { cl with tags := cl.tags.set (fun _ => none) tag (some { x with arrived := true }) }

theorem exec_xqResponse_arrives {c serial tag : Nat} {x : XqTag} (h : s.xqTagOf c serial = some (tag, x))
    (hstate : s.rc.state ≠ .fatal) : exec (.xqResponse c serial false) s = .next
      ((s.modCl c fun cl => cl.arrived tag x).noteLatency (Reg.XQ_STAT c) (min 65535 ((s.now - x.issuedAt) / 10))) := by
  show execXqResponse c serial false s = _
  simp only [execXqResponse, h, hstate, if_false, Bool.false_eq_true]
  rfl

/-- A response that arrives marks its tag, and the latency is kept where it is the largest. -/
theorem xqResponse_arrives {c serial tag : Nat} {x : XqTag} (h : s.xqTagOf c serial = some (tag, x))
    (hstate : s.rc.state ≠ .fatal) :
    ∃ t, exec (.xqResponse c serial false) s = .next t ∧
      t = { s with csr := t.csr, clusters := t.clusters } ∧ t.cl c = (s.cl c).arrived tag x ∧
      (∀ d, d ≠ c → t.cl d = s.cl d) ∧ s.keepsRegs t [Reg.XQ_STAT c] ∧
      t.fld (Reg.XQ_STAT c) 16 16 = max (s.fld (Reg.XQ_STAT c) 16 16) (min 65535 ((s.now - x.issuedAt) / 10)) := by
  obtain ⟨hs, hown, hother⟩ := (onlyCluster_refl s c).modCl fun cl => cl.arrived tag x
  have hrow := exec_xqResponse_arrives h hstate
  generalize (s.modCl c fun cl => cl.arrived tag x) = u at hs hown hother hrow
  have hr := registered_noteLatency u (Reg.XQ_STAT c) (min 65535 ((s.now - x.issuedAt) / 10))
  have hrd (off : Nat) : u.rd off = s.rd off := by rw [hs]; rfl
  refine ⟨_, hrow, ?_, ?_, fun d hd => ?_, fun off hoff _ => ?_, ?_⟩
  · rw [hr, hs]
  · rw [hr, ← hown]; rfl
  · rw [hr, ← hother d hd]; rfl
  · rw [rd_noteLatency_other _ _ _ _ (by simpa using hoff), hrd]
  · rw [fld_noteLatency _ _ _ (by omega), fld_congr (hrd _)]

/-- An abort that this device detects is noted: its count and its cycle (R125 order 1). -/
def State.detectAbort (s : State) (n : Nat) : State :=
  (s.count Reg.ABORT_STAT 24 8 1).modRc fun r => { r with abort := some { n := n, since := s.now, received := false } }

theorem sendAbort_eq (n : Nat) (h : s.rc.abort = none) : s.sendAbort n =
    (s.detectAbort n).bothTrees fun u k => u.abortUp k s.net.gen n u.devId := by
  have hcount : (s.count Reg.ABORT_STAT 24 8 1).rc.abort.isSome = false := by rw [count_rc, h]; rfl
  unfold State.sendAbort
  simp only [hcount, Bool.false_eq_true, if_false, State.now, count_time, modRc_net, count_net]
  rfl

theorem detectAbort_eq (n : Nat) : s.detectAbort n = { s with
    csr := (s.detectAbort n).csr, rc := { s.rc with abort := some { n := n, since := s.now, received := false } } } := by
  have hcount := registered_count s Reg.ABORT_STAT 24 8 1
  unfold State.detectAbort
  generalize s.count Reg.ABORT_STAT 24 8 1 = u at hcount
  rw [hcount]
  rfl

theorem detectAbort_keepsRegs (n : Nat) : s.keepsRegs (s.detectAbort n) [Reg.ABORT_STAT] := fun off hoff _ => by
  rw [State.detectAbort, rd_modRc, rd_count_other _ _ _ _ _ _ (by simpa using hoff)]

/-- A replay fault of a cycle that is neither sealed nor committed, no abort being in progress, is an abort that the device
detects and reports (R125). -/
theorem replayFault_detects (n code : Nat) (hroot : s.notRoot) (hseal : s.rc.sealNext ≤ n)
    (hrec : ∀ r, s.cycleRec n = some r → r.committedAt = none) (habort : s.rc.abort = none) :
    (s.detectAbort n).Reported (s.replayFault n code) (s.reportsFor s.net.gen (.abortUp n s.devId)) := by
  have hopen : ¬ ((s.cycleRec n).any (fun r => r.committedAt.isSome) = true ∨ n < s.rc.sealNext) := by
    rintro (hany | hlt)
    · cases hr : s.cycleRec n with
      | none => simp [hr] at hany
      | some r => simp [hr, hrec r hr] at hany
    · omega
  have hregs := detectAbort_keepsRegs (s := s) n
  have hdev : (s.detectAbort n).devId = s.devId := fld_congr (hregs _ (by decide) (not_mem_noteRegs (by decide))) _ _
  have hreports := reported_bothTrees (notRoot_congr hregs hroot) (fun u k => u.abortUp k s.net.gen n u.devId) s.net.gen
    (.abortUp n s.devId) fun u k hu hk => by rw [hu.trans hdev]; exact reported_abortUp hk _ _ _
  rw [reportsFor_congr hregs (by rw [detectAbort_eq]) (by rw [detectAbort_eq])] at hreports
  rwa [State.replayFault, if_neg hopen, sendAbort_eq n habort]

/-- A second failure of a cycle not yet committed is an abort that this device detects and reports. -/
theorem xqResponse_failed {c serial tag : Nat} {x : XqTag} (h : s.xqTagOf c serial = some (tag, x))
    (hstate : s.rc.state ≠ .fatal) (hroot : s.notRoot) (hseal : s.rc.sealNext ≤ s.rc.ecn)
    (hrec : ∀ r, s.cycleRec s.rc.ecn = some r → r.committedAt = none) (habort : s.rc.abort = none) :
    ∃ t, exec (.xqResponse c serial true) s = .next t ∧ t.clusters = s.clusters ∧
      t.rc.abort = some { n := s.rc.ecn, since := s.now, received := false } ∧
      ∀ k, k < 2 → s.portSends (s.parent k) = true →
        TxItem.set (s.parent k) (k + 1) 2 s.net.gen (.abortUp s.rc.ecn s.devId) ∈ t.tx := by
  have hrow : exec (.xqResponse c serial true) s =
      .next ((s.recordAt cCorrected bDmemq 0x0305 (c <<< 26 + tag) s.rc.ecn).replayFault s.rc.ecn 0x0305) := by
    show execXqResponse c serial true s = _
    simp only [execXqResponse, h, hstate, if_false, if_true]
  have hnote := noted_recordAt s cCorrected bDmemq 0x0305 (c <<< 26 + tag) s.rc.ecn
  have hregs : s.keepsRegs (s.recordAt cCorrected bDmemq 0x0305 (c <<< 26 + tag) s.rc.ecn) [Reg.ABORT_STAT] :=
    fun off _ hn => rd_recordAt s _ _ _ _ _ off hn
  generalize s.recordAt cCorrected bDmemq 0x0305 (c <<< 26 + tag) s.rc.ecn = u at hrow hnote hregs
  have hrc : u.rc = s.rc := by rw [hnote]
  have hdev : u.devId = s.devId := fld_congr (hregs _ (by decide) (not_mem_noteRegs (by decide))) _ _
  have hreported := replayFault_detects (s := u) s.rc.ecn 0x0305 (notRoot_congr hregs hroot) (by rw [hrc]; exact hseal)
    (by rw [State.cycleRec, hrc]; exact hrec) (by rw [hrc]; exact habort)
  rw [hdev, reportsFor_congr hregs (by rw [hnote]) (by rw [hrc]), show u.net = s.net by rw [hnote]] at hreported
  refine ⟨_, hrow, ?_, ?_, fun k hk hsends => ?_⟩
  · rw [hreported, detectAbort_eq, hnote]
  · rw [hreported, detectAbort_eq, hnote]; rfl
  · rw [hreported]
    exact List.mem_append_right _ (mem_reportsFor hk hsends _ _)

/-! ## FAB_STALL_WATCHDOG (R41) -/

/-- A stall longer than the limit is recorded and signalled, and marked as recorded. -/
theorem fabStallWatchdog_records {c : Nat} {st : Stall} (h : (s.cl c).stall = some st) (hdone : st.wdDone = false)
    (hlimit : s.fld Reg.FAB_WD 0 16 ≠ 0) (hlong : st.began + s.fld Reg.FAB_WD 0 16 * 1000 < s.now) :
    ∃ t, exec (.fabStallWatchdog c) s = .next t ∧
      t = { s with csr := t.csr, faults := t.faults, tx := t.tx, clusters := t.clusters } ∧
      t.cl c = { s.cl c with stall := some { st with wdDone := true } } ∧ (∀ d, d ≠ c → t.cl d = s.cl d) ∧
      t.flag Reg.FAB_INT_STAT 2 = true ∧ s.keepsRegs t [Reg.FAB_INT_STAT] := by
  have hdue : ¬ (st.wdDone = true ∨ s.fld Reg.FAB_WD 0 16 = 0 ∨ s.now ≤ st.began + s.fld Reg.FAB_WD 0 16 * 1000) := by
    simp [hdone, hlimit, hlong]
  have hrow : exec (.fabStallWatchdog c) s = execFabStallWatchdog c s := rfl
  simp only [execFabStallWatchdog, h] at hrow
  rw [if_neg hdue] at hrow
  refine ⟨_, hrow, ?_, ?_, fun d hd => ?_, flag_raise _ 0 2 _ rfl (by decide) (by decide), fun off hoff hn => ?_⟩
  · rw [raise_eta, record_eta]; rfl
  · rw [State.cl, raise_clusters, record_clusters]
    exact cl_modCl_same s c _
  · rw [State.cl, raise_clusters, record_clusters]
    exact cl_modCl_other s _ hd
  · rw [rd_raise _ _ _ _ hn fun heq => hoff (by simp [← Option.some.inj heq]), rd_record _ _ _ _ _ _ hn]
    rfl

/-! ## BACKGROUND_PASS_READ (R61, R63) -/

theorem fld_count_same (s : State) (off l w k : Nat) (h : l + w ≤ 32) :
    (s.count off l w k).fld off l w = satAdd (2 ^ w - 1) (s.fld off l w) k := by
  rw [State.count, fld_setFld_same s off l w _ h]
  have hle := satAdd_le (2 ^ w - 1) (s.fld off l w) k
  have hpos := Nat.two_pow_pos w
  exact Nat.mod_eq_of_lt (by omega)

/-- A single-bit error in an IMEM word that no running cycle uses is counted, recorded and signalled, and nothing else changes. -/
theorem idleUpset_imem (s : State) {e : EccErr} (hmem : e.mem = .imem) (hsingle : e.double = false) :
    s.idleUpset e = ((s.count (Reg.ECC_CNT e.cluster) 24 8 1).record cCorrected bFabric 0x0180 (eccDetail e)).raise 0 0 := by
  simp [State.idleUpset, State.countEcc, hmem, hsingle]

theorem idleUpset_imem_counts (s : State) {e : EccErr} (hmem : e.mem = .imem) (hsingle : e.double = false)
    (hcluster : e.cluster < 64) :
    s.Noted (s.idleUpset e) ∧
      (s.idleUpset e).fld (Reg.ECC_CNT e.cluster) 24 8 = satAdd 255 (s.fld (Reg.ECC_CNT e.cluster) 24 8) 1 ∧
      (s.idleUpset e).flag Reg.FAB_INT_STAT 0 = true ∧
      s.keepsRegs (s.idleUpset e) [Reg.ECC_CNT e.cluster, Reg.FAB_INT_STAT] := by
  rw [idleUpset_imem s hmem hsingle]
  have hrd (u : State) (off : Nat) (hn : off ∉ noteRegs) (hne : off ≠ Reg.FAB_INT_STAT) :
      ((u.record cCorrected bFabric 0x0180 (eccDetail e)).raise 0 0).rd off = u.rd off := by
    rw [rd_raise _ _ _ _ hn (by intro heq; exact hne (Option.some.inj heq).symm), rd_record _ _ _ _ _ _ hn]
  refine ⟨?_, ?_, flag_raise _ 0 0 _ rfl (by decide) (by decide), fun off hoff hn => ?_⟩
  · exact (noted_count s _ _ _ _).trans ((noted_record _ _ _ _ _).trans (noted_raise _ _ _))
  · have hn : Reg.ECC_CNT e.cluster ∉ noteRegs := not_mem_noteRegs (by simp only [Reg.ECC_CNT]; omega)
    have hne : Reg.ECC_CNT e.cluster ≠ Reg.FAB_INT_STAT := by simp only [Reg.ECC_CNT, Reg.FAB_INT_STAT]; omega
    exact (fld_congr (hrd _ _ hn hne) 24 8).trans (fld_count_same _ _ _ _ _ (by decide))
  · simp only [List.mem_cons, List.not_mem_nil, or_false, not_or] at hoff
    obtain ⟨hcnt, hint⟩ := hoff
    rw [hrd _ _ hn hint, rd_count_other _ _ _ _ _ _ hcnt]

/-- The pass of cluster `c` has read location `x`. -/
def State.passMoved (s : State) (c x : Nat) : State := { s with scrubPos := s.scrubPos.set (fun _ => 0) c (x + 1) }

section
variable {c x : Nat} (hc : c < s.nClusters) (hscrub : s.flag Reg.FAB_SCRUB 0 = true) (hclosed : (s.cl c).opened = false)
  (hlevel : (s.dom c).level < 2) (hx : s.passLocation (s.scrubPos.get (fun _ => 0) c) = some x)
include hc hscrub hclosed hlevel hx

/-- A location without an error: the pass moves on. -/
theorem exec_backgroundPassRead_clean : exec (.backgroundPassRead c none) s = .next (s.passMoved c x) := by
  show execBackgroundPassRead c none s = _
  simp only [execBackgroundPassRead, hc, hscrub, hclosed, Nat.not_le.mpr hlevel, hx, not_true, Bool.not_true,
    Bool.false_eq_true, or_false, if_false]
  rfl

/-- A location in IMEM with an error: the pass moves on, and the error is one where no running cycle uses the word. -/
theorem exec_backgroundPassRead_imem (hword : x < 524288) (double : Bool) :
    exec (.backgroundPassRead c (some double)) s =
      .next ((s.passMoved c x).idleUpset ⟨.imem, c, x % 256, x / 256, double⟩) := by
  show execBackgroundPassRead c (some double) s = _
  simp only [execBackgroundPassRead, hc, hscrub, hclosed, Nat.not_le.mpr hlevel, hx, hword, not_true, Bool.not_true,
    Bool.false_eq_true, or_false, if_false, if_true]
  rfl

/-- A single-bit error in an IMEM word is corrected, counted and signalled. -/
theorem backgroundPassRead_corrects (hword : x < 524288) :
    ∃ t, exec (.backgroundPassRead c (some false)) s = .next t ∧
      t = { s with csr := t.csr, faults := t.faults, tx := t.tx, scrubPos := s.scrubPos.set (fun _ => 0) c (x + 1) } ∧
      t.fld (Reg.ECC_CNT c) 24 8 = satAdd 255 (s.fld (Reg.ECC_CNT c) 24 8) 1 ∧
      t.flag Reg.FAB_INT_STAT 0 = true ∧ s.keepsRegs t [Reg.ECC_CNT c, Reg.FAB_INT_STAT] := by
  have hlt : c < 64 := by
    unfold State.nClusters at hc
    split at hc <;> omega
  obtain ⟨hnoted, hcount, hflag, hkeeps⟩ :=
    idleUpset_imem_counts (s.passMoved c x) (e := ⟨.imem, c, x % 256, x / 256, false⟩) rfl rfl hlt
  exact ⟨_, exec_backgroundPassRead_imem hc hscrub hclosed hlevel hx hword false, hnoted, hcount, hflag, hkeeps⟩

end

/-- Settles O22: XQ_RESPONSE by what becomes of its tag, the watchdog by a stall beyond its limit, the pass by the error it finds. -/
theorem xqResponsesAndBackgroundChecks : Obligations.XqResponsesAndBackgroundChecks := by
  unfold Obligations.XqResponsesAndBackgroundChecks
  refine ⟨fun s c serial => ⟨fun tag x htag hstate => ?_, fun tag x htag hstate hroot hseal hrec habort => ?_,
    fun htag failed => ?_⟩, fun s c st hstall hdone hlimit hlong => ?_, fun s c x hc hscrub hclosed hlevel hx => ⟨?_, fun hword => ?_⟩⟩
  · exact xqResponse_arrives htag hstate
  · exact xqResponse_failed htag hstate hroot hseal hrec habort
  · exact exec_xqResponse_none htag failed
  · exact fabStallWatchdog_records hstall hdone hlimit hlong
  · exact exec_backgroundPassRead_clean hc hscrub hclosed hlevel hx
  · exact backgroundPassRead_corrects hc hscrub hclosed hlevel hx hword

end Sys2Proof.Machine

/-!
Registers that the trace stream, the power domains and the dispatcher leave alone: all below the dispatcher's status.
-/

namespace Sys2Proof.Machine

section
variable {s t u : State}

/-- The registers up to DISP_CTRL, `noteRegs` apart, hold in `t` what they hold in `s`. -/
def State.KeepsLow (s t : State) : Prop := ∀ off, off ≤ Reg.DISP_CTRL → off ∉ noteRegs → t.rd off = s.rd off

theorem State.KeepsLow.refl (s : State) : s.KeepsLow s := fun _ _ _ => rfl

theorem State.KeepsLow.trans (h : s.KeepsLow t) (h' : t.KeepsLow u) : s.KeepsLow u :=
  fun off hl hn => (h' off hl hn).trans (h off hl hn)

/-- What writes no register leaves them alone. -/
theorem State.KeepsLow.of_csr (h : t.csr = s.csr) (hf : t.fuses = s.fuses) : s.KeepsLow t := fun off _ _ => rd_congr h hf off

theorem State.KeepsLow.foldl {α : Type} (f : State → α → State) (h : ∀ s a, State.KeepsLow s (f s a)) (l : List α)
    (s : State) : State.KeepsLow s (l.foldl f s) :=
  foldl_rel State.KeepsLow State.KeepsLow.refl (fun _ _ _ => State.KeepsLow.trans) f h l s

theorem State.KeepsLow.ite {p : Prop} [Decidable p] (h : s.KeepsLow t) (h' : s.KeepsLow u) :
    s.KeepsLow (if p then t else u) := by
  split <;> assumption

end

section
variable (s : State)

/-! ## Registers, records and interrupts -/

theorem keepsLow_setFld (off l w v : Nat) (h : Reg.DISP_CTRL < off) : s.KeepsLow (s.setFld off l w v) :=
  fun r hr _ => rd_setFld_other s off l w v r (by omega)

theorem keepsLow_setFlag (off i : Nat) (b : Bool) (h : Reg.DISP_CTRL < off) : s.KeepsLow (s.setFlag off i b) :=
  keepsLow_setFld s off i 1 _ h

theorem keepsLow_count (off l w k : Nat) (h : Reg.DISP_CTRL < off) : s.KeepsLow (s.count off l w k) :=
  keepsLow_setFld s off l w _ h

theorem keepsLow_wr64 (off v : Nat) (h : Reg.DISP_CTRL < off) : s.KeepsLow (s.wr64 off v) :=
  fun r hr _ => rd_wr64_other s off v r (by omega) (by omega)

theorem keepsLow_raise (i b : Nat) (h : ∀ off, intStatOf i = some off → Reg.DISP_CTRL < off) : s.KeepsLow (s.raise i b) :=
  fun r hr hn => rd_raise s i b r hn fun hi => absurd (h r hi) (by omega)

theorem keepsLow_raise_spoor (b : Nat) : s.KeepsLow (s.raise 16 b) :=
  keepsLow_raise s 16 b fun _ h => by cases h; decide

theorem keepsLow_record (a b c d : Nat) : s.KeepsLow (s.record a b c d) := fun r _ hn => rd_record s a b c d r hn

/-! ## The trace stream -/

theorem keepsLow_modSp (f : Spoor → Spoor) : s.KeepsLow (s.modSp f) := .of_csr rfl rfl

theorem keepsLow_spAppend (l : List Byte) : s.KeepsLow (s.spAppend l) :=
  (keepsLow_modSp s _).trans (keepsLow_wr64 _ _ _ (by decide))

theorem keepsLow_spLose (src : Nat) : s.KeepsLow (s.spLose src) := by
  unfold State.spLose
  have h := (keepsLow_modSp s fun x => { x with lost := x.lost.set (fun _ => 0) src (x.lost.get (fun _ => 0) src + 1) }).trans
    (keepsLow_count _ Reg.SPOOR_LOST 0 32 1 (by decide))
  exact .ite h (h.trans ((keepsLow_record _ _ _ _ _).trans (keepsLow_raise_spoor _ _)))

theorem keepsLow_spPut (src : Nat) (l : List Byte) : s.KeepsLow (s.spPut src l) := by
  unfold State.spPut
  exact .ite ((keepsLow_modSp s _).trans (keepsLow_spAppend _ _)) (keepsLow_spLose s src)

theorem keepsLow_spAtomOut (k : Nat) : s.KeepsLow (s.spAtomOut k) := by
  unfold State.spAtomOut
  split
  · exact .refl s
  · exact (keepsLow_modSp s _).trans (keepsLow_spPut _ k _)

theorem keepsLow_spSyncPacket : s.KeepsLow s.spSyncPacket := by
  unfold State.spSyncPacket
  exact .ite ((keepsLow_modSp s _).trans (keepsLow_spAppend _ _)) (keepsLow_spLose s 10)

theorem keepsLow_spFullSync : s.KeepsLow s.spFullSync := by
  unfold State.spFullSync
  exact (State.KeepsLow.foldl _ (fun t k => .ite (keepsLow_spAtomOut t k) (.refl t)) _ s).trans <|
    (keepsLow_spSyncPacket _).trans <| (keepsLow_spPut _ _ _).trans <|
      State.KeepsLow.foldl _ (fun t k => .ite (keepsLow_spPut t k _) (.refl t)) _ _

theorem keepsLow_spStore (src : Nat) (l : List Byte) : s.KeepsLow (s.spStore src l) := by
  have hdue : s.KeepsLow s.spDue := by
    unfold State.spDue
    exact .ite (keepsLow_spFullSync s) (.refl s)
  exact hdue.trans (keepsLow_spPut _ _ _)

theorem keepsLow_spEmit (src : Nat) (l : List Byte) : s.KeepsLow (s.spEmit src l) := by
  unfold State.spEmit
  exact .ite (keepsLow_spStore s _ _) (.refl s)

theorem keepsLow_spTrigger (c : Nat) : s.KeepsLow (s.spTrigger c) := by
  unfold State.spTrigger
  exact .ite ((keepsLow_spStore s 10 _).trans <| (keepsLow_wr64 _ _ _ (by decide)).trans <|
    (keepsLow_setFld _ _ _ _ _ (by decide)).trans <| (keepsLow_modSp _ _).trans (keepsLow_raise_spoor _ _)) (.refl s)

theorem keepsLow_ringEvent (a b c d : Nat) : s.KeepsLow (s.ringEvent a b c d) := by
  unfold State.ringEvent
  exact .ite (keepsLow_spEmit s _ _) (.refl s)

theorem keepsLow_acqEvent (i : Nat) : s.KeepsLow (s.acqEvent i) := by
  unfold State.acqEvent
  exact .ite (.refl s) (.of_csr rfl rfl)

/-- A fabric event is a packet, the Spoor events it matches, and a trigger of Spoor, each where it is asked for. -/
theorem fabEvent_rel (R : State → State → Prop) (hrefl : ∀ s, R s s) (htrans : ∀ s t u, R s t → R t u → R s u)
    (hpacket : ∀ (s : State) l, R s (s.spEmit 8 l)) (hevent : ∀ (s : State) i, R s (s.acqEvent i))
    (htrigger : ∀ s : State, R s (s.spTrigger 3)) (kind c x y : Nat) : R s (s.fabEvent kind c x y) := by
  have hite (v w : State) (p : Prop) (_ : Decidable p) (h : R v w) : R v (if p then w else v) := by
    split
    · exact h
    · exact hrefl v
  have hgather (v : State) (p : Prop) (_ : Decidable p) (f : State → Nat → State) (h : ∀ s j, R s (f s j)) :
      R v (if p then v else (List.range 4).foldl f v) := by
    split
    · exact hrefl v
    · exact foldl_rel R hrefl htrans f h _ v
  unfold State.fabEvent
  refine htrans _ _ _ (hite _ _ _ _ (hpacket s _)) (htrans _ _ _ (hgather _ _ _ _ fun t j => ?_) (hite _ _ _ _ (htrigger _)))
  exact hite _ _ _ _ (hevent t _)

theorem keepsLow_fabEvent (kind c x y : Nat) : s.KeepsLow (s.fabEvent kind c x y) :=
  fabEvent_rel s State.KeepsLow State.KeepsLow.refl (fun _ _ _ => State.KeepsLow.trans) (fun t _ => keepsLow_spEmit t 8 _)
    keepsLow_acqEvent (fun t => keepsLow_spTrigger t 3) kind c x y

/-! ## Power domains and the dispatcher -/

theorem keepsLow_modRing (f : Ring → Ring) : s.KeepsLow (s.modRing f) := .of_csr rfl rfl
theorem keepsLow_modDom (d : Nat) (f : Domain → Domain) : s.KeepsLow (s.modDom d f) := .of_csr rfl rfl
theorem keepsLow_ringErrors (l : List RingReq) : s.KeepsLow (s.ringErrors l) := .of_csr rfl rfl
theorem keepsLow_modBg (f : Badger → Badger) : s.KeepsLow (s.modBg f) := .of_csr rfl rfl
theorem keepsLow_modCore (k : Nat) (f : Core → Core) : s.KeepsLow (s.modCore k f) := .of_csr rfl rfl
theorem keepsLow_modTask (t : Nat) (f : Task → Task) : s.KeepsLow (s.modTask t f) := .of_csr rfl rfl
theorem keepsLow_retire (k : Nat) (v : W64) : s.KeepsLow (s.retire k v) := .of_csr rfl rfl

theorem keepsLow_showStop (n : Nat) : s.KeepsLow (s.showStop n) := by
  have hfence : Reg.DISP_CTRL < Reg.RING_FENCE := by decide
  have hstop : Reg.DISP_CTRL < Reg.RING_STOP_STAT n := by simp only [Reg.DISP_CTRL, Reg.RING_STOP_STAT]; omega
  unfold State.showStop
  exact (keepsLow_setFlag s _ _ _ hfence).trans <| (keepsLow_setFlag _ _ _ _ hstop).trans <|
    (keepsLow_setFlag _ _ _ _ hstop).trans (keepsLow_setFld _ _ _ _ _ hstop)

theorem keepsLow_unfence (d : Nat) : s.KeepsLow (s.unfence d) := by
  unfold State.unfence
  refine State.KeepsLow.foldl _ (fun t stop => ?_) _ _
  dsimp only
  split
  · exact (keepsLow_modRing t _).trans ((keepsLow_modRing _ _).trans ((keepsLow_showStop _ stop).trans
      ((keepsLow_ringErrors _ _).trans (keepsLow_ringEvent _ _ _ _ _))))
  · exact (keepsLow_modRing t _).trans ((keepsLow_modRing _ _).trans ((keepsLow_showStop _ stop).trans (keepsLow_ringErrors _ _)))

theorem keepsLow_leaveDom (d : Nat) : s.KeepsLow (s.leaveDom d) := by
  have hcount : s.KeepsLow ((s.wakesWith d).foldl (fun (s : State) e => s.count (Reg.POW_DOM_STAT e) 0 16 1) s) :=
    State.KeepsLow.foldl _ (fun t e => keepsLow_count t _ _ _ _ (by simp only [Reg.DISP_CTRL, Reg.POW_DOM_STAT]; omega)) _ s
  unfold State.leaveDom
  dsimp only
  split
  · exact keepsLow_modDom s d _
  · refine State.KeepsLow.trans ?_ ((keepsLow_modDom _ d _).trans (keepsLow_unfence _ d))
    exact .ite (.refl s) hcount

theorem keepsLow_wakeCore (k : Nat) : s.KeepsLow (s.wakeCore k) := by
  have hwoken (v : State) : v.KeepsLow (v.spCoreWoken k) := by
    unfold State.spCoreWoken
    exact .ite (keepsLow_spFullSync v) (.refl v)
  unfold State.wakeCore
  exact .ite ((keepsLow_leaveDom s _).trans (hwoken _)) (keepsLow_leaveDom s _)

theorem keepsLow_give (t k : Nat) : s.KeepsLow (s.give t k) := by
  unfold State.give
  exact (keepsLow_modBg s _).trans ((keepsLow_modTask _ _ _).trans ((keepsLow_modCore _ _ _).trans
    ((keepsLow_retire _ _ _).trans (keepsLow_wakeCore _ _))))

theorem keepsLow_offer (t : Nat) : s.KeepsLow (s.offer t) := by
  unfold State.offer
  split
  · exact .ite (keepsLow_give s _ _) (.refl s)
  · exact .refl s

theorem keepsLow_offerAll : s.KeepsLow s.offerAll :=
  State.KeepsLow.foldl _ (fun _ _ => State.KeepsLow.foldl _ (fun t a => keepsLow_offer t a) _ _) _ _

/-- What follows the two bits that show ORDERLY leaves them alone. -/
theorem keepsLow_enterOrderly (c : Nat) :
    ((s.setFlag Reg.DISP_STAT (31 - c) true).setFlag Reg.DISP_CTRL 0 true).KeepsLow (s.enterOrderly c) := by
  unfold State.enterOrderly
  refine .ite (.refl _) ((keepsLow_record _ _ _ _ _).trans <| (keepsLow_raise _ 11 1 ?_).trans <|
    (keepsLow_modBg _ _).trans (keepsLow_offerAll _))
  intro off h
  cases h
  decide

/-- ORDERLY is in force after it is entered (R360). -/
theorem orderly_enterOrderly (c : Nat) : (s.enterOrderly c).orderly = true := by
  have h := keepsLow_enterOrderly s c Reg.DISP_CTRL (le_refl _) (not_mem_noteRegs (by decide))
  rw [State.orderly, flag_congr h, flag_setFlag_same _ _ _ _ (by decide)]

/-- The registers below the dispatcher's policy are left alone. -/
theorem rd_enterOrderly (c off : Nat) (h : off < Reg.DISP_CTRL) (hn : off ∉ noteRegs) : (s.enterOrderly c).rd off = s.rd off := by
  have hstat : Reg.DISP_CTRL < Reg.DISP_STAT := by decide
  rw [keepsLow_enterOrderly s c off h.le hn, rd_setFlag_other _ _ _ _ _ (by omega), rd_setFlag_other _ _ _ _ _ (by omega)]

end

end Sys2Proof.Machine

/-!
A set that the device acts on: what is passed on before its own part, and what a fabric event leaves (R214, R218, R220, R418).
-/

namespace Sys2Proof.Machine

section
variable {s t u : State}

/-! ## Fabric events (R311, R418) -/

/-- A packet in the trace stream and the external events that it matches. -/
def State.Evented (s t : State) : Prop :=
  t = { s with csr := t.csr, faults := t.faults, tx := t.tx, spoor := t.spoor, acq := { s.acq with extNext := t.acq.extNext } }

theorem State.Evented.trans (h : s.Evented t) (h' : t.Evented u) : s.Evented u := Eq.trans h' (by rw [h])

theorem State.Traced.evented (h : s.Traced t) : s.Evented t := Eq.trans h (by rw [show t.acq = s.acq by rw [h]])

theorem evented_acqEvent (s : State) (i : Nat) : s.Evented (s.acqEvent i) := by
  unfold State.acqEvent
  split <;> rfl

theorem evented_fabEvent (s : State) (kind c x y : Nat) : s.Evented (s.fabEvent kind c x y) :=
  fabEvent_rel s State.Evented (fun _ => rfl) (fun _ _ _ => State.Evented.trans) (fun t _ => (traced_spEmit t 8 _).evented)
    evented_acqEvent (fun t => (traced_spTrigger t 3).evented) kind c x y

@[simp] theorem fabEvent_rc (s : State) (kind c x y : Nat) : (s.fabEvent kind c x y).rc = s.rc := by
  rw [evented_fabEvent s kind c x y]

@[simp] theorem fabEvent_net (s : State) (kind c x y : Nat) : (s.fabEvent kind c x y).net = s.net := by
  rw [evented_fabEvent s kind c x y]

/-! ## Sets passed on (R214, R218, R220) -/

/-- A set has come by and been passed on: the silence of its link has ended, copies have left, and the broadcasts of a root are
noted. Nothing is acted on by that. -/
def State.Passed (s t : State) : Prop :=
  t = { s with
    csr := t.csr, links := t.links, tx := t.tx, lines := t.lines
    net := { s.net with acted := t.net.acted, aborts := t.net.aborts } } ∧
  s.keepsRegs t [Reg.TREE_STAT] ∧ ∀ m gen, t.acted m gen = s.acted m gen

theorem State.Passed.refl (s : State) : s.Passed s := ⟨rfl, fun _ _ _ => rfl, fun _ _ => rfl⟩

theorem State.Passed.trans (h : s.Passed t) (h' : t.Passed u) : s.Passed u :=
  ⟨Eq.trans h'.1 (by rw [h.1]), h.2.1.trans h'.2.1, fun m gen => (h'.2.2 m gen).trans (h.2.2 m gen)⟩

theorem State.Passed.rc (h : s.Passed t) : t.rc = s.rc := by rw [h.1]
theorem State.Passed.acq (h : s.Passed t) : t.acq = s.acq := by rw [h.1]
theorem State.Passed.time (h : s.Passed t) : t.time = s.time := by rw [h.1]
theorem State.Passed.power (h : s.Passed t) : t.power = s.power := by rw [h.1]
theorem State.Passed.gen (h : s.Passed t) : t.net.gen = s.net.gen := by rw [h.1]
theorem State.Passed.prevGen (h : s.Passed t) : t.net.prevGen = s.net.prevGen := by rw [h.1]
theorem State.Passed.prevLimit (h : s.Passed t) : t.net.prevLimit = s.net.prevLimit := by rw [h.1]
theorem State.Passed.fence (h : s.Passed t) : t.net.fence = s.net.fence := by rw [h.1]
theorem State.Passed.trigWait (h : s.Passed t) : t.net.trigWait = s.net.trigWait := by rw [h.1]
theorem State.Passed.acted (h : s.Passed t) (m : Msg) (gen : Nat) : t.acted m gen = s.acted m gen := h.2.2 m gen
theorem State.Passed.rd (h : s.Passed t) (off : Nat) (ht : off ≠ Reg.TREE_STAT) (hn : off ∉ noteRegs) : t.rd off = s.rd off :=
  h.2.1 off (by simpa using ht) hn
theorem State.Passed.now (h : s.Passed t) : t.now = s.now := by simp only [State.now, h.time]

theorem State.Passed.live (h : s.Passed t) : t.live = s.live := by simp only [State.live, h.rc]

theorem State.Passed.current (h : s.Passed t) (gen n : Nat) : t.current gen n = s.current gen n := by
  simp only [State.current, h.gen, h.prevGen, h.prevLimit, h.rc]

end

section
variable (s : State)

theorem typ_lt_256 (m : Msg) : m.typ < 0x100 := by
  cases m <;> simp [Msg.typ]

/-- A broadcast noted by a root is no set acted on. -/
theorem contains_cast_cons (m m' : Msg) (gen gen' : Nat) (l : List (Nat × Nat × Nat)) :
    (m'.cast gen' :: l).contains (m.typ, m.key, gen) = l.contains (m.typ, m.key, gen) := by
  have htyp : m.typ ≠ (m'.cast gen').1 := by
    have := typ_lt_256 m
    show m.typ ≠ 0x100 + m'.typ
    omega
  rw [List.contains_cons, beq_eq_false_iff_ne.mpr (fun h => htyp (congrArg Prod.fst h)), Bool.false_or]

theorem passed_emit (l : List TxItem) : s.Passed (s.emit l) := ⟨rfl, fun _ _ _ => rfl, fun _ _ => rfl⟩

theorem passed_sendDownAs (t gen : Nat) (m : Msg) : s.Passed (s.sendDownAs t gen m) := by
  refine (passed_emit s (s.setsFor (s.children t) t gen m)).trans ?_
  unfold State.sendDownAs
  dsimp only
  split
  · exact ⟨rfl, fun _ _ _ => rfl, fun m' gen' => contains_cast_cons m' m gen' gen _⟩
  · exact .refl _

@[simp] theorem sendDownAs_aborts (t gen : Nat) (m : Msg) : (s.sendDownAs t gen m).net.aborts = s.net.aborts := by
  unfold State.sendDownAs
  dsimp only
  split <;> rfl

theorem passed_castDown (m : Msg) : s.Passed (s.castDown m) := by
  refine foldl_rel State.Passed State.Passed.refl (fun _ _ _ => State.Passed.trans) _ (fun u k => ?_) _ s
  split
  · exact passed_sendDownAs u _ _ _
  · exact .refl u

/-- A good tree set ends the silence of its link (R220). -/
def State.heardOn (s : State) (h : SetHdr) : State :=
  if h.tree = 1 then (s.modLink h.port fun l => { l with heardA := s.now }).setFlag Reg.TREE_STAT (16 + h.port % 8) false
  else if h.tree = 2 then (s.modLink h.port fun l => { l with heardB := s.now }).setFlag Reg.TREE_STAT (24 + h.port % 8) false
  else s

theorem onSet_hears {h : SetHdr} {m : Msg} (hh : s.hears h m) (f : State → State) : s.onSet h m f = f (s.heardOn h) := by
  obtain ⟨hbad, hcrc, -, hpeer, hstate⟩ := hh
  simp only [State.onSet, State.heardOn, hbad, hcrc, hpeer, hstate, Bool.false_eq_true, ne_eq, not_true_eq_false, or_self, if_false]

@[simp] theorem heardOn_net (h : SetHdr) : (s.heardOn h).net = s.net := by
  unfold State.heardOn
  split
  · rfl
  · split <;> rfl

theorem passed_heardOn (h : SetHdr) : s.Passed (s.heardOn h) := by
  have hlink (f : Link → Link) (i : Nat) : s.Passed ((s.modLink h.port f).setFlag Reg.TREE_STAT i false) :=
    ⟨rfl, fun off hoff _ => rd_setFlag_other _ _ _ _ _ (by simpa using hoff), fun _ _ => rfl⟩
  unfold State.heardOn
  split
  · exact hlink _ _
  · split
    · exact hlink _ _
    · exact .refl s

/-- The copies of a down set that leave before the device's own part. -/
def State.passDown (s : State) (h : SetHdr) (m : Msg) : State :=
  let s := s.sendDownAs (h.tree - 1) h.gen m
  if s.isRoot (1 - (h.tree - 1)) ∧ ¬ s.net.acted.contains (m.cast h.gen) then s.sendDownAs (1 - (h.tree - 1)) h.gen m else s

theorem passed_passDown (h : SetHdr) (m : Msg) : s.Passed (s.passDown h m) := by
  refine (passed_sendDownAs s (h.tree - 1) h.gen m).trans ?_
  unfold State.passDown
  dsimp only
  split
  · exact passed_sendDownAs _ _ _ _
  · exact .refl _

/-- The device's own part of a down set begins once the set is passed on. -/
theorem onDown_hears {h : SetHdr} {m : Msg} (hh : s.hears h m) (act : State → State) :
    ∃ u, s.Passed u ∧ s.onDown h m act = act u :=
  ⟨(s.heardOn h).passDown h m, (passed_heardOn s h).trans (passed_passDown _ h m), onSet_hears s hh _⟩

end

end Sys2Proof.Machine

/-!
A down set's own part: aborts and replays, schedule pauses, rewinds and the halt (R110, R125, R131-R133, R141, R207, R208).
-/

namespace Sys2Proof.Machine

section
variable {s t u : State}

/-! ## Run control's account -/

/-- Registers, records, what left the device, and run control: what ends waits, tells of faults and cancels a command. -/
def State.Accounted (s t : State) : Prop := t = { s with csr := t.csr, faults := t.faults, tx := t.tx, rc := t.rc }

theorem State.Accounted.trans (h : s.Accounted t) (h' : t.Accounted u) : s.Accounted u := Eq.trans h' (by rw [h])

theorem State.Noted.accounted (h : s.Noted t) : s.Accounted t := Eq.trans h (by rw [show t.rc = s.rc by rw [h]])

theorem accounted_modRc (s : State) (f : RunCtl → RunCtl) : s.Accounted (s.modRc f) := rfl

theorem State.Noted.net (h : s.Noted t) : t.net = s.net := by rw [h]
theorem State.Noted.rc (h : s.Noted t) : t.rc = s.rc := by rw [h]
theorem State.Ordered.rc (h : s.Ordered t) : t.rc = s.rc := by rw [h]

end

section
variable (s : State)

@[simp] theorem cmdStatus_rc (a b : Nat) : (s.cmdStatus a b).rc = s.rc := (noted_cmdStatus s a b).rc
@[simp] theorem cmdStatus_net (a b : Nat) : (s.cmdStatus a b).net = s.net := (noted_cmdStatus s a b).net
@[simp] theorem enterOrderly_rc (c : Nat) : (s.enterOrderly c).rc = s.rc := (ordered_enterOrderly s c).rc

theorem accounted_cancelCmd : s.Accounted s.cancelCmd := by
  unfold State.cancelCmd
  split
  · rfl
  · exact (accounted_modRc s _).trans (noted_cmdStatus _ _ _).accounted

theorem accounted_sayFaults (n : Nat) : s.Accounted (s.sayFaults n) := by
  unfold State.sayFaults
  split
  · rfl
  · exact (noted_recordAt s _ _ _ _ _).accounted.trans (accounted_modRc _ _)

/-- Waits that are over add their time, new ones count their event. -/
theorem accounted_setWaits (l : List WaitKind) : s.Accounted (s.setWaits l) := by
  unfold State.setWaits
  dsimp only
  refine (State.Noted.foldl _ (fun t w => noted_count t _ _ _ _) _ s).accounted.trans
    (State.Accounted.trans (State.Noted.foldl _ (fun t k => ?_) _ _).accounted (accounted_modRc _ _))
  split
  · exact noted_count t _ _ _ _
  · rfl

theorem accounted_cutWaits : s.Accounted s.cutWaits := (accounted_modRc s _).trans (accounted_setWaits _ _)

/-! ## ABORT (R125, R131) -/

/-- A root that has broadcast ABORT for the cycle fewer than two times broadcasts it again (R131). -/
theorem castAbort_casts {n : Nat} (h : ∀ a ∈ s.net.aborts, a.1 = n → a.2 < 2) (cast : State → State) :
    ∃ u, s.Passed u ∧ s.castAbort n cast = cast u := by
  have hfew : ((s.net.aborts.find? (fun a => a.1 = n)).map (·.2) |>.getD 0) < 2 := by
    cases hfind : s.net.aborts.find? (fun a => a.1 = n) with
    | none => decide
    | some a => exact h a (List.mem_of_find?_eq_some hfind) (by simpa using List.find?_some hfind)
  unfold State.castAbort
  rw [if_neg (by omega)]
  refine ⟨_, ?_, rfl⟩
  exact ⟨rfl, fun _ _ _ => rfl, fun _ _ => rfl⟩

/-- ABORT is passed on, counted by the root of the other tree, and acted on. -/
theorem exec_abort_hears {h : SetHdr} {x : Nat} (hh : s.hears h (.abort (s.widenEcn x)))
    (hfew : ∀ a ∈ s.net.aborts, a.1 = s.widenEcn x → a.2 < 2) :
    ∃ u, s.Passed u ∧ exec (.abort h x) s = .next (u.actAbort h.gen (s.widenEcn x)) := by
  have hpass := (passed_heardOn s h).trans (passed_sendDownAs (s.heardOn h) (h.tree - 1) h.gen (.abort (s.widenEcn x)))
  have hrow : exec (.abort h x) s = ok (s.onSet h _ _) := rfl
  rw [hrow, onSet_hears s hh]
  dsimp only
  split
  · obtain ⟨v, hv, hcast⟩ := castAbort_casts ((s.heardOn h).sendDownAs (h.tree - 1) h.gen (.abort (s.widenEcn x)))
      (by rwa [sendDownAs_aborts, heardOn_net]) fun s' => s'.sendDownAs (1 - (h.tree - 1)) h.gen (.abort (s.widenEcn x))
    rw [hcast]
    exact ⟨_, hpass.trans (hv.trans (passed_sendDownAs v _ _ _)), rfl⟩
  · exact ⟨_, hpass, rfl⟩

/-- A set acted on is noted. -/
theorem act_eq (m : Msg) (gen : Nat) : s.act m gen = { s with net := { s.net with acted := (s.act m gen).net.acted } } := by
  unfold State.act
  split <;> rfl

theorem lowerStop_eq (n : Nat) :
    s.lowerStop n = { s with rc := { s.rc with stopLow := (s.lowerStop n).rc.stopLow } } := by
  unfold State.lowerStop
  split <;> rfl

/-- ABORT(n) of the present generation, not yet acted on, n not sealed, is held with the fence at or below n (R125, R208). -/
theorem actAbort_takes {n : Nat} (hlive : s.live = true) (habort : s.rc.abort = none)
    (hacted : s.acted (.abort n) s.net.gen = false) (hseal : s.rc.sealNext ≤ n) :
    (s.actAbort s.net.gen n).rc.abort = some { n := n, since := s.now, received := true } ∧
      (s.actAbort s.net.gen n).net.fence = (s.setFence n).net.fence := by
  have hacted' : (s.answered 0x12).acted (.abort n) s.net.gen = false := hacted
  have hcurrent : (s.answered 0x12).current s.net.gen n = true := by simp [State.current, State.answered]
  unfold State.actAbort
  dsimp only
  rw [if_neg (by
    rintro (h | h | h | h)
    · exact absurd h (by simp [hacted'])
    · exact h hlive
    · exact h hcurrent
    · exact absurd h (Nat.not_lt.mpr hseal))]
  rw [fabEvent_rc, fabEvent_net, lowerStop_eq, act_eq]
  simp [State.setFence, State.answered, habort, State.now]

/-! ## REPLAY_GO, SCHED_PAUSE and REWIND_GO (R110, R125, R141, R207) -/

@[simp] theorem cancelCmd_net : s.cancelCmd.net = s.net := by rw [accounted_cancelCmd s]
@[simp] theorem cutWaits_net : s.cutWaits.net = s.net := by rw [accounted_cutWaits s]
@[simp] theorem sayFaults_net (n : Nat) : (s.sayFaults n).net = s.net := by rw [accounted_sayFaults s n]

/-- A cancelled command is the one thing that goes. -/
@[simp] theorem cancelCmd_rc : s.cancelCmd.rc = { s.rc with cmd := none } := by
  unfold State.cancelCmd
  split
  · next h => rw [← h]
  · rw [cmdStatus_rc]; rfl

/-- A pause changes no more of the trees than the repeats that it ends. -/
theorem enterPaused_net (p : Nat) : (s.enterPaused p).net = { s.net with repeats := (s.enterPaused p).net.repeats } := by
  have hbegin (q : Prop) (_ : Decidable q) (f : RunCtl → RunCtl) (v : State) :
      (if q then (v.raise 1 4).modRc f else v).net = v.net := by
    split
    · exact raise_net v 1 4
    · rfl
  unfold State.enterPaused
  dsimp only
  split
  · split <;> simp [hbegin]
  · simp [hbegin]

/-- A pause ends the abort held. -/
theorem enterPaused_abort (p : Nat) : (s.enterPaused p).rc.abort = none := by
  unfold State.enterPaused
  dsimp only
  split
  · split <;> simp
  · simp

/-- Where no cycle is in progress a pause may follow: it ends an abort, and changes no more of the trees than the repeats. -/
theorem checkPause_pauses : s.checkPause = s ∨ ∃ p, s.checkPause = s.enterPaused p := by
  unfold State.checkPause
  split
  · exact .inl rfl
  · dsimp only
    split
    · split
      · exact .inr ⟨_, rfl⟩
      · exact .inl rfl
    · exact .inl rfl

theorem checkPause_net : s.checkPause.net = { s.net with repeats := s.checkPause.net.repeats } := by
  obtain h | ⟨p, h⟩ := checkPause_pauses s
  · rw [h]
  · rw [h]; exact enterPaused_net s p

theorem checkPause_abort (habort : s.rc.abort = none) : s.checkPause.rc.abort = none := by
  obtain h | ⟨p, h⟩ := checkPause_pauses s
  · rw [h]; exact habort
  · rw [h]; exact enterPaused_abort s p

/-- No pause while a cycle is in progress. -/
theorem checkPause_begun (hbegun : s.rc.begun = true) : s.checkPause = s := by
  simp [State.checkPause, hbegun]

/-- REPLAY_GO of the next generation ends the abort and advances GEN (R125, R207). -/
theorem actReplayGo_goes {n gen : Nat} (hlive : s.live = true) (hgen : gen % 16 = (s.net.gen + 1) % 16) :
    (s.actReplayGo n gen).net.gen = gen % 16 ∧ (s.actReplayGo n gen).net.prevGen = s.net.gen ∧
      (s.actReplayGo n gen).net.prevLimit = s.net.fence.getD s.rc.ecn ∧ (s.actReplayGo n gen).net.fence = none ∧
      (s.actReplayGo n gen).rc.abort = none := by
  unfold State.actReplayGo
  rw [if_neg (by rintro (h | h) <;> contradiction), checkPause_net, fabEvent_net]
  exact ⟨rfl, rfl, rfl, rfl, checkPause_abort _ (by rw [fabEvent_rc]; rfl)⟩

/-- REWIND_GO of the next generation lets the restore that waits for it begin (R141, R207). -/
theorem actRewindGo_goes {n gen : Nat} (hrewind : s.rc.rewind = some n) (hgen : gen % 16 = (s.net.gen + 1) % 16) :
    (s.actRewindGo n gen).rc.rewindGone = true ∧ (s.actRewindGo n gen).rc.rewind = some n ∧
      (s.actRewindGo n gen).net.gen = gen % 16 ∧ (s.actRewindGo n gen).net.repeats = [] := by
  unfold State.actRewindGo
  rw [if_neg (by rintro (h | h) <;> contradiction)]
  exact ⟨rfl, hrewind, rfl, rfl⟩

/-- SCHED_PAUSE of the present generation, below every one held, is held while a cycle is in progress (R110, R208). -/
theorem actSchedPause_held {n : Nat} (hlive : s.live = true) (hbegun : s.rc.begun = true)
    (hlow : ∀ q, s.rc.schedPause = some q → n < q) :
    (s.actSchedPause s.net.gen n).rc.schedPause = some n ∧ (s.actSchedPause s.net.gen n).rc.state = s.rc.state ∧
      (s.actSchedPause s.net.gen n).net.fence = (s.setFence n).net.fence := by
  have hcurrent : (s.answered 0x16).current s.net.gen (n - 1) = true := by simp [State.current, State.answered]
  have hnone : s.rc.schedPause.any (fun q => decide (q ≤ n)) = false := by
    cases h : s.rc.schedPause with
    | none => rfl
    | some q => simpa using hlow q h
  have hhold : (s.rc.holdStop (n - 1)).begun = s.rc.begun ∧ (s.rc.holdStop (n - 1)).state = s.rc.state := by
    unfold RunCtl.holdStop
    split <;> exact ⟨rfl, rfl⟩
  unfold State.actSchedPause
  dsimp only
  rw [if_neg (by
    rintro (h | h | h)
    · exact h hlive
    · exact h hcurrent
    · exact absurd h (by simp [State.answered, hnone])), checkPause_begun _ (hhold.1.trans hbegun)]
  exact ⟨rfl, hhold.2, rfl⟩

end
end Sys2Proof.Machine

/-!
The halt of a device: its rollback, what HALTED keeps and shows, and what takes SYSTEM_HALT (R126, R133).
-/

namespace Sys2Proof.Machine

section
variable {s t u : State}

/-- The links and the interrupt status of the network are as they were. -/
def State.KeepsNet (s t : State) : Prop := t.links = s.links ∧ t.rd Reg.NET_INT_STAT = s.rd Reg.NET_INT_STAT

theorem State.KeepsNet.refl (s : State) : s.KeepsNet s := ⟨rfl, rfl⟩

theorem State.KeepsNet.trans (h : s.KeepsNet t) (h' : t.KeepsNet u) : s.KeepsNet u :=
  ⟨h'.1.trans h.1, h'.2.trans h.2⟩

theorem State.KeepsNet.foldl {α : Type} (f : State → α → State) (h : ∀ s a, State.KeepsNet s (f s a)) (l : List α) (s : State) :
    State.KeepsNet s (l.foldl f s) := foldl_rel State.KeepsNet State.KeepsNet.refl (fun _ _ _ => State.KeepsNet.trans) f h l s

end

section
variable (s : State)

theorem netStat_not_noteRegs : Reg.NET_INT_STAT ∉ noteRegs := not_mem_noteRegs (by decide)

/-! ## Rollback (R40, R57, R126) -/

theorem keepsNet_count (off l w k : Nat) (h : Reg.NET_INT_STAT ≠ off) : s.KeepsNet (s.count off l w k) :=
  ⟨rfl, rd_count_other s off l w k _ h⟩

theorem keepsNet_wr64 (off v : Nat) (h : Reg.NET_INT_STAT ≠ off) (h' : Reg.NET_INT_STAT ≠ off + 4) : s.KeepsNet (s.wr64 off v) :=
  ⟨rfl, rd_wr64_other s off v _ h h'⟩

theorem keepsNet_modCl (c : Nat) (f : Cluster → Cluster) : s.KeepsNet (s.modCl c f) := ⟨rfl, rfl⟩

theorem keepsNet_modRc (f : RunCtl → RunCtl) : s.KeepsNet (s.modRc f) := ⟨rfl, rfl⟩

theorem keepsNet_fabEvent (kind c x y : Nat) : s.KeepsNet (s.fabEvent kind c x y) :=
  ⟨by rw [evented_fabEvent s kind c x y], keepsLow_fabEvent s kind c x y _ (by decide) netStat_not_noteRegs⟩

theorem keepsNet_endStall (c : Nat) : s.KeepsNet (s.endStall c) := by
  unfold State.endStall
  split
  · exact .refl s
  · next st _ =>
    have hreg : Reg.NET_INT_STAT ≠ Reg.STALL_NS c st.cause.k := by
      have : st.cause.k < 4 := by cases st.cause <;> decide
      simp only [Reg.NET_INT_STAT, Reg.STALL_NS]
      omega
    exact (keepsNet_count s _ 0 32 _ hreg).trans ((keepsNet_modCl _ c _).trans (keepsNet_fabEvent _ 2 c _ _))

theorem netStat_ne_nsReg (k : WaitKind) : Reg.NET_INT_STAT ≠ k.nsReg := by
  cases k with
  | pace b => simp only [WaitKind.nsReg, Reg.NET_INT_STAT, Reg.LX_PACE_WAIT_NS]; omega
  | egress b => simp only [WaitKind.nsReg, Reg.NET_INT_STAT, Reg.LX_EG_WAIT_NS]; omega
  | _ => decide

theorem keepsNet_endWaits : s.KeepsNet (s.setWaits []) := by
  unfold State.setWaits
  dsimp only [List.filter_nil, List.foldl_nil]
  refine State.KeepsNet.trans ?_ (keepsNet_modRc _ _)
  exact State.KeepsNet.foldl _ (fun t (w : WaitKind × Nat) => keepsNet_count t _ 0 32 _ (netStat_ne_nsReg w.1)) _ s

theorem keepsNet_cutWaits : s.KeepsNet s.cutWaits := (keepsNet_modRc s _).trans (keepsNet_endWaits _)

theorem keepsNet_unpop (src : Nat) : s.KeepsNet (s.unpop src) := by
  unfold State.unpop
  split
  · exact keepsNet_wr64 s _ _ (by simp only [Reg.NET_INT_STAT, Reg.MP_IN_HEAD_POS_LO]; omega)
      (by simp only [Reg.NET_INT_STAT, Reg.MP_IN_HEAD_POS_LO]; omega)
  · exact keepsNet_wr64 s _ _ (by simp only [Reg.NET_INT_STAT, Reg.LX_IN_HEAD_POS_LO]; omega)
      (by simp only [Reg.NET_INT_STAT, Reg.LX_IN_HEAD_POS_LO]; omega)

/-- The stalls and waits of a rollback end, and consumed words return to their heads. -/
theorem keepsNet_undo (l : List Nat) (dmb : Map W64) (acc : Map W128) :
    s.KeepsNet (l.foldl State.unpop { ((s.clusters.map (·.1)).foldl State.endStall s).cutWaits with dmb := dmb, acc := acc }) :=
  (State.KeepsNet.foldl _ keepsNet_endStall _ s).trans <| (keepsNet_cutWaits _).trans <|
    State.KeepsNet.trans (t := { ((s.clusters.map (·.1)).foldl State.endStall s).cutWaits with dmb := dmb, acc := acc })
      ⟨rfl, rfl⟩ (State.KeepsNet.foldl _ keepsNet_unpop _ _)

/-- The end of a rollback: what is presented and held for discarded cycles, the words of the links, its registers. -/
def State.rollbackEnd (s : State) (n : Nat) (gone : List CycleRec) : State :=
  let s := (s.lynxRollback n).acqRollback n gone
  let s := { s with links := s.links.map (fun (e : Nat × Link) => (e.1, { e.2 with
    frSend := e.2.frSend.filter (fun (w : SlotWord) => w.cycle < n)
    frDone := min (e.2.frRecv.filter (fun (w : SlotWord) => w.cycle < n)).length e.2.frDone })) }
  (s.wr64 Reg.ABORT_ECN_LO n).count Reg.ABORT_STAT 16 8 1

/-- A rollback to cycle `n` has set the cycle in progress and emptied the inbox (R57, R126). -/
def State.RolledBack (s t : State) (n : Nat) : Prop := t.rc.ecn = n ∧ t.inbox = [] ∧ s.KeepsNet t

theorem State.RolledBack.showSnap {s t : State} {n : Nat} (h : s.RolledBack t n) (p : Prop) (_ : Decidable p) :
    s.RolledBack (if p then t.setFlag Reg.SNAP_STATUS 31 false else t) n := by
  have hsnap : t.KeepsNet (t.setFlag Reg.SNAP_STATUS 31 false) := ⟨setFlag_links t _ _ _, rd_setFlag_other t _ _ _ _ (by decide)⟩
  split
  · exact ⟨by rw [setFlag_rc]; exact h.1, by rw [setFlag_inbox]; exact h.2.1, h.2.2.trans hsnap⟩
  · exact h

/-- What a rollback does before its end. -/
theorem rollbackTo_eq (n : Nat) : ∃ u gone, s.rollbackTo n = u.rollbackEnd n gone ∧ s.RolledBack u n := by
  unfold State.rollbackTo
  refine ⟨_, _, rfl, State.RolledBack.showSnap ?_ _ _⟩
  generalize hv : List.foldl State.unpop _ _ = v
  have hkeeps : s.KeepsNet v := hv ▸ keepsNet_undo s _ _ _
  exact ⟨rfl, rfl, hkeeps.trans ⟨rfl, rd_congr rfl rfl _⟩⟩

/-- A map whose values change in nothing that `g` sees. -/
theorem get_map_congr {α β : Type} (d : Nat → α) (f : α → α) (g : α → β) (hf : ∀ v, g (f v) = g v) (m : Map α) (k : Nat) :
    g (Map.get d (m.map fun e => (e.1, f e.2)) k) = g (Map.get d m k) := by
  induction m with
  | nil => rfl
  | cons e m ih =>
    simp only [List.map_cons, Map.get]
    split
    · exact hf e.2
    · exact ih

/-- The end of a rollback leaves the cycle, the inbox and the peers of the links. -/
theorem rollbackEnd_keeps (n : Nat) (gone : List CycleRec) :
    (s.rollbackEnd n gone).rc = s.rc ∧ (s.rollbackEnd n gone).inbox = s.inbox ∧
      (∀ p, ((s.rollbackEnd n gone).link p).peerDown = (s.link p).peerDown) ∧
      (s.rollbackEnd n gone).rd Reg.NET_INT_STAT = s.rd Reg.NET_INT_STAT := by
  refine ⟨?_, ?_, fun p => ?_, ?_⟩
  · simp only [State.rollbackEnd, State.acqRollback, State.lynxRollback, count_rc, wr64_rc, modAcq_rc, modLx_rc]
  · simp only [State.rollbackEnd, State.acqRollback, State.lynxRollback, count_inbox, wr64_inbox, modAcq_inbox, modLx_inbox]
  · exact get_map_congr (fun _ => {}) (fun l : Link => { l with
      frSend := l.frSend.filter (fun (w : SlotWord) => w.cycle < n)
      frDone := min (l.frRecv.filter (fun (w : SlotWord) => w.cycle < n)).length l.frDone })
      Link.peerDown (fun _ => rfl) s.links p
  · rw [State.rollbackEnd, rd_count_other _ _ _ _ _ _ (by decide), rd_wr64_other _ _ _ _ (by decide) (by decide)]
    exact rd_congr rfl rfl _

/-- A rollback sets the cycle in progress and empties the inbox; the peers of the links and the interrupt status of the
network stay as they were (R57, R126). -/
theorem rollbackTo_rollsBack (n : Nat) :
    (s.rollbackTo n).rc.ecn = n ∧ (s.rollbackTo n).inbox = [] ∧
      (∀ p, ((s.rollbackTo n).link p).peerDown = (s.link p).peerDown) ∧
      (s.rollbackTo n).rd Reg.NET_INT_STAT = s.rd Reg.NET_INT_STAT := by
  obtain ⟨u, gone, heq, hecn, hinbox, hlinks, hstat⟩ := rollbackTo_eq s n
  obtain ⟨hrc, hinbox', hpeer, hstat'⟩ := rollbackEnd_keeps u n gone
  rw [heq, hrc]
  exact ⟨hecn, hinbox'.trans hinbox, fun p => (hpeer p).trans (by rw [State.link, hlinks]; rfl), hstat'.trans hstat⟩

/-! ## HALTED (R133, R224) -/

/-- The cycle that HALT_ECN names. -/
def State.haltPoint (s : State) : Nat := if s.rc.state = .loaded then 0 else s.rc.sealNext

/-- A device that enters HALTED has rolled back, told of its faults and written HALT_ECN. -/
def State.haltRolled (s : State) : State :=
  let u := if s.rc.state = .loaded then s else s.rollbackTo s.rc.sealNext
  (u.sayFaults u.latestBegun).wr64 Reg.HALT_ECN_LO s.haltPoint

/-- It writes its record, ends its command and enters HALTED. -/
def State.haltHeld (s : State) (isHalt : Bool) (h : Nat) : State :=
  let s := s.recordAt cInfo bRunctl 0x0208 h s.latestBegun
  let s := if isHalt then s.modRc fun r => { r with cmd := none } else s.cancelCmd
  (s.modRc fun r => { r with
    state := .halted, abort := none, resume := none, stop := none, schedPause := none, stopLow := false
    pauseAt := none, snap := none, rewind := none, rewindGone := false, halting := false }).setFlag Reg.SNAP_STATUS 31 false

/-- It raises its cause, tells its neighbours and, where a HALT was pending, reports it done. -/
def State.haltShown (s : State) (isHalt : Bool) (h : Nat) : State :=
  let s := s.raise 2 3
  let s := { s with net := { s.net with repeats := [], rolledA := [], rolledB := [], rewindA := [], rewindB := [] } }
  let s := s.sendFrHalt
  (if isHalt then (s.wr64 Reg.CMD_ACTED_LO h).cmdStatus 2 0x14 else s).enterOrderly 2

theorem enterHalted_eq : s.enterHalted =
    (s.haltRolled.haltHeld (s.rc.cmd.any fun c => decide (c.code = 0x14)) s.haltPoint).haltShown
      (s.rc.cmd.any fun c => decide (c.code = 0x14)) s.haltPoint := rfl

theorem haltHeld_rc (isHalt : Bool) (h : Nat) : (s.haltHeld isHalt h).rc = { s.rc with
    cmd := none, state := .halted, abort := none, resume := none, stop := none, schedPause := none, stopLow := false
    pauseAt := none, snap := none, rewind := none, rewindGone := false, halting := false } := by
  unfold State.haltHeld
  dsimp only
  rw [setFlag_rc, modRc_rc]
  split
  · rw [modRc_rc, recordAt_rc]
  · rw [cancelCmd_rc, recordAt_rc]

theorem haltShown_rc (isHalt : Bool) (h : Nat) : (s.haltShown isHalt h).rc = s.rc := by
  unfold State.haltShown
  dsimp only
  rw [enterOrderly_rc]
  split
  · rw [cmdStatus_rc, wr64_rc]; exact raise_rc s 2 3
  · exact raise_rc s 2 3

theorem enterHalted_rc : s.enterHalted.rc = { s.haltRolled.rc with
    cmd := none, state := .halted, abort := none, resume := none, stop := none, schedPause := none, stopLow := false
    pauseAt := none, snap := none, rewind := none, rewindGone := false, halting := false } := by
  rw [enterHalted_eq, haltShown_rc, haltHeld_rc]

/-- The registers of run control that an entry into HALTED writes besides HALT_ECN. -/
def haltRegs : List Nat := [Reg.CMD_STATUS, Reg.RC_INT_STAT, Reg.SNAP_STATUS, Reg.CMD_ACTED_LO, Reg.CMD_ACTED_LO + 4]

theorem rd_cmdStatus (a b off : Nat) (h : off ≠ Reg.CMD_STATUS) (h' : off ≠ Reg.RC_INT_STAT) (hn : off ∉ noteRegs) :
    (s.cmdStatus a b).rd off = s.rd off := by
  have hset : ((s.setFld Reg.CMD_STATUS 28 4 a).setFld Reg.CMD_STATUS 16 8 b).rd off = s.rd off := by
    rw [rd_setFld_other _ _ _ _ _ _ h, rd_setFld_other _ _ _ _ _ _ h]
  have hraise (v : State) (c : Nat) : (v.raise 2 c).rd off = v.rd off :=
    rd_raise v 2 c off hn fun e => h' (Option.some.inj e).symm
  unfold State.cmdStatus
  dsimp only
  split
  · rw [hraise, hset]
  · split
    · exact hset
    · rw [hraise, hset]

theorem rd_cancelCmd (off : Nat) (h : off ≠ Reg.CMD_STATUS) (h' : off ≠ Reg.RC_INT_STAT) (hn : off ∉ noteRegs) :
    s.cancelCmd.rd off = s.rd off := by
  unfold State.cancelCmd
  split
  · rfl
  · exact rd_cmdStatus _ _ _ _ h h' hn

theorem rd_haltHeld (isHalt : Bool) (h off : Nat) (hh : off ∉ haltRegs) (hn : off ∉ noteRegs) :
    (s.haltHeld isHalt h).rd off = s.rd off := by
  simp only [haltRegs, List.mem_cons, List.not_mem_nil, or_false, not_or] at hh
  obtain ⟨hstatus, hint, hsnap, -⟩ := hh
  unfold State.haltHeld
  dsimp only
  rw [rd_setFlag_other _ _ _ _ _ hsnap, rd_modRc]
  split
  · rw [rd_modRc, rd_recordAt _ _ _ _ _ _ _ hn]
  · rw [rd_cancelCmd _ _ hstatus hint hn, rd_recordAt _ _ _ _ _ _ _ hn]

theorem rd_haltShown (isHalt : Bool) (h off : Nat) (hlow : off < Reg.DISP_CTRL) (hh : off ∉ haltRegs) (hn : off ∉ noteRegs) :
    (s.haltShown isHalt h).rd off = s.rd off := by
  simp only [haltRegs, List.mem_cons, List.not_mem_nil, or_false, not_or] at hh
  obtain ⟨hstatus, hint, -, hlo, hhi⟩ := hh
  have hraise : (s.raise 2 3).rd off = s.rd off := rd_raise s 2 3 off hn fun e => hint (Option.some.inj e).symm
  unfold State.haltShown
  dsimp only
  rw [rd_enterOrderly _ _ _ hlow hn]
  split
  · rw [rd_cmdStatus _ _ _ _ hstatus hint hn, rd_wr64_other _ _ _ _ hlo hhi]; exact hraise
  · exact hraise

/-- What HALTED shows below the dispatcher's policy. -/
theorem rd_enterHalted (off : Nat) (hlow : off < Reg.DISP_CTRL) (hh : off ∉ haltRegs) (hn : off ∉ noteRegs) :
    s.enterHalted.rd off = s.haltRolled.rd off := by
  rw [enterHalted_eq, rd_haltShown _ _ _ _ hlow hh hn, rd_haltHeld _ _ _ _ hh hn]

theorem rd64_haltEcn : s.enterHalted.rd64 Reg.HALT_ECN_LO = s.haltPoint % 2 ^ 64 := by
  rw [State.rd64, rd_enterHalted _ _ (by decide) (by decide) (by decide), rd_enterHalted _ _ (by decide) (by decide) (by decide)]
  exact rd64_wr64 _ _ _

/-- ORDERLY is in force in a device that has entered HALTED (R360). -/
theorem orderly_enterHalted : s.enterHalted.orderly = true := orderly_enterOrderly _ 2

theorem State.Noted.halted {s t : State} (h : s.Noted t) : s.Halted t := h.traced.woken.ordered.halted

theorem halted_haltHeld (isHalt : Bool) (h : Nat) : s.Halted (s.haltHeld isHalt h) := by
  have hrecord : s.Halted (s.recordAt cInfo bRunctl 0x0208 h s.latestBegun) := (noted_recordAt s _ _ _ _ _).halted
  unfold State.haltHeld
  dsimp only
  split
  · exact hrecord.trans ((halted_modRc _ _).trans ((halted_modRc _ _).trans (noted_setFlag _ _ _ _).halted))
  · exact hrecord.trans ((halted_cancelCmd _).trans ((halted_modRc _ _).trans (noted_setFlag _ _ _ _).halted))

theorem halted_haltShown (isHalt : Bool) (h : Nat) : s.Halted (s.haltShown isHalt h) := by
  have hraise : s.Halted (s.raise 2 3) := (noted_raise s 2 3).halted
  unfold State.haltShown
  dsimp only
  split
  · exact hraise.trans ((halted_net _ _).trans ((halted_sendFrHalt _).trans
      ((noted_wr64 _ _ _).halted.trans ((noted_cmdStatus _ _ _).halted.trans (ordered_enterOrderly _ 2).halted))))
  · exact hraise.trans ((halted_net _ _).trans ((halted_sendFrHalt _).trans (ordered_enterOrderly _ 2).halted))

theorem halted_enterHalted : s.haltRolled.Halted s.enterHalted := by
  rw [enterHalted_eq]
  exact (halted_haltHeld _ _ _).trans (halted_haltShown _ _ _)

@[simp] theorem sayFaults_rc (n : Nat) : (s.sayFaults n).rc = { s.rc with unsaid := 0 } := by
  unfold State.sayFaults
  split
  · next h => rw [← h]
  · rw [modRc_rc, recordAt_rc]

theorem accounted_haltRolled : (if s.rc.state = .loaded then s else s.rollbackTo s.rc.sealNext).Accounted s.haltRolled :=
  (accounted_sayFaults _ _).trans (noted_wr64 _ _ _).accounted

theorem rd_sayFaults (n off : Nat) (hn : off ∉ noteRegs) : (s.sayFaults n).rd off = s.rd off := by
  unfold State.sayFaults
  split
  · rfl
  · rw [rd_modRc, rd_recordAt _ _ _ _ _ _ _ hn]

/-- A device outside LOADED is halted at the lowest cycle it has not sealed, its inbox empty (R57, R133). -/
theorem enterHalted_rollsBack (h : s.rc.state ≠ .loaded) :
    s.enterHalted.rc.ecn = s.rc.sealNext ∧ s.enterHalted.inbox = [] := by
  obtain ⟨hecn, hinbox, -, -⟩ := rollbackTo_rollsBack s s.rc.sealNext
  have hkeeps : s.enterHalted.inbox = s.haltRolled.inbox := by rw [halted_enterHalted s]
  have hrolled := accounted_haltRolled s
  rw [if_neg h] at hrolled
  constructor
  · rw [enterHalted_rc, State.haltRolled, if_neg h, wr64_rc, sayFaults_rc]
    exact hecn
  · rw [hkeeps, show s.haltRolled.inbox = (s.rollbackTo s.rc.sealNext).inbox by rw [hrolled], hinbox]

/-- An entry into HALTED leaves the peers of the links and the interrupt status of the network as they were. -/
theorem enterHalted_keepsNet (p : Nat) :
    (s.enterHalted.link p).peerDown = (s.link p).peerDown ∧ s.enterHalted.rd Reg.NET_INT_STAT = s.rd Reg.NET_INT_STAT := by
  have hlinks : s.enterHalted.links = (if s.rc.state = .loaded then s else s.rollbackTo s.rc.sealNext).links := by
    rw [show s.enterHalted.links = s.haltRolled.links by rw [halted_enterHalted s], accounted_haltRolled s]
  have hstat : s.enterHalted.rd Reg.NET_INT_STAT =
      (if s.rc.state = .loaded then s else s.rollbackTo s.rc.sealNext).rd Reg.NET_INT_STAT := by
    rw [rd_enterHalted _ _ (by decide) (by decide) (by decide), State.haltRolled,
      rd_wr64_other _ _ _ _ (by decide) (by decide), rd_sayFaults _ _ _ (by decide)]
  obtain ⟨-, -, hpeer, hrolled⟩ := rollbackTo_rollsBack s s.rc.sealNext
  rw [State.link, hlinks, hstat]
  split
  · exact ⟨rfl, rfl⟩
  · exact ⟨hpeer p, hrolled⟩

/-! ## SYSTEM_HALT (R133, R240) -/

/-- A device that takes SYSTEM_HALT has noted it, forwarded it and lowered its fence. -/
def State.haltTaken (s : State) (gen ecn dev : Nat) : State :=
  let m := Msg.systemHalt ecn dev
  let s := (s.answered 0x18).act m gen
  (s.emit (((s.upPorts 0).filter s.portSends).map fun p => .set p 0 1 s.net.gen m)).setFence ecn

theorem actSystemHalt_takes {gen ecn dev : Nat} (hstate : s.rc.state ≠ .fatal) (hacted : s.acted (.systemHalt ecn dev) gen = false) :
    s.actSystemHalt gen ecn dev = (s.haltTaken gen ecn dev).haltHere := by
  have hacted' : (s.answered 0x18).acted (.systemHalt ecn dev) gen = false := hacted
  unfold State.actSystemHalt
  dsimp only
  rw [if_neg (by
    rintro (h | h)
    · exact hstate h
    · exact absurd h (by simp [hacted']))]
  rfl

theorem actSystemHalt_again {gen ecn dev : Nat} (h : s.rc.state = .fatal ∨ s.acted (.systemHalt ecn dev) gen = true) :
    s.actSystemHalt gen ecn dev = s.answered 0x18 := by
  unfold State.actSystemHalt
  exact if_pos h

/-- Nothing but the trees changes until the device halts. -/
theorem haltTaken_eq (gen ecn dev : Nat) : s.haltTaken gen ecn dev =
    { s with tx := (s.haltTaken gen ecn dev).tx, lines := (s.haltTaken gen ecn dev).lines, net := (s.haltTaken gen ecn dev).net } := by
  unfold State.haltTaken
  dsimp only
  rw [act_eq]
  rfl

theorem haltTaken_fence (gen ecn dev : Nat) : (s.haltTaken gen ecn dev).net.fence = (s.setFence ecn).net.fence := by
  unfold State.haltTaken
  dsimp only
  rw [act_eq]
  rfl

/-- Where cycles run, the clusters are to stop at their next step boundary (R133). -/
theorem haltHere_live (hlive : s.live = true) : s.haltHere = s.modRc fun r => { r with halting := true } := by
  unfold State.live at hlive
  unfold State.haltHere
  cases h : s.rc.state <;> simp_all

/-- A device in LOADED or PAUSED halts at once (R133). -/
theorem haltHere_still (h : s.rc.state = .loaded ∨ s.rc.state = .paused) : s.haltHere = s.enterHalted := by
  unfold State.haltHere
  obtain h | h := h <;> rw [h]

/-- In IDLE, LOADING and HALTED nothing happens (R240). -/
theorem haltHere_apart (h : s.rc.state = .idle ∨ s.rc.state = .loading ∨ s.rc.state = .halted) : s.haltHere = s := by
  unfold State.haltHere
  obtain h | h | h := h <;> rw [h]

end
end Sys2Proof.Machine

/-!
The family of the down sets: aborts, replays, rewinds, pauses and halts (O17).
-/

namespace Sys2Proof.Machine

section
variable (s : State)

/-- A SYSTEM_HALT on a tree is passed on, then taken. -/
theorem exec_systemHalt_hears {h : SetHdr} {x dev : Nat} (hh : s.hears h (.systemHalt (s.widenEcn x) dev)) :
    ∃ u, s.Passed u ∧ exec (.systemHalt h x dev) s = .next (u.actSystemHalt h.gen (s.widenEcn x) dev) := by
  have htree : h.tree ≠ 0 := by
    obtain ⟨-, -, htree, -, -⟩ := hh
    omega
  obtain ⟨u, hu, hdown⟩ := onDown_hears s hh fun s' => s'.actSystemHalt h.gen (s.widenEcn x) dev
  refine ⟨u, hu, ?_⟩
  show ok (if h.tree = 0 then _ else _) = _
  rw [if_neg htree, hdown]

/-- What a set passed on finds of the fence, `n` taken. -/
theorem State.Passed.setFence_fence {s t : State} (h : s.Passed t) (n : Nat) :
    (t.setFence n).net.fence = some (match s.net.fence with | none => n | some f => min f n) := by
  show some (match t.net.fence with | none => n | some f => min f n) = _
  rw [h.fence]

theorem abort_held {h : SetHdr} {x : Nat} (hh : s.hears h (.abort (s.widenEcn x))) (hlive : s.live = true)
    (habort : s.rc.abort = none) (hacted : s.acted (.abort (s.widenEcn x)) h.gen = false) (hgen : h.gen = s.net.gen)
    (hseal : s.rc.sealNext ≤ s.widenEcn x) (hfew : ∀ a ∈ s.net.aborts, a.1 = s.widenEcn x → a.2 < 2) :
    ∃ t, exec (.abort h x) s = .next t ∧
      t.rc.abort = some { n := s.widenEcn x, since := s.now, received := true } ∧
      t.net.fence = some (match s.net.fence with | none => s.widenEcn x | some f => min f (s.widenEcn x)) := by
  obtain ⟨u, hu, hexec⟩ := exec_abort_hears s hh hfew
  have hgen' : h.gen = u.net.gen := hgen.trans hu.gen.symm
  obtain ⟨hheld, hfence⟩ := actAbort_takes u (n := s.widenEcn x) (hu.live.trans hlive) (by rw [hu.rc, habort])
    (by rw [hu.acted, ← hgen', hacted]) (by rw [hu.rc]; exact hseal)
  rw [hgen'] at hexec
  exact ⟨_, hexec, by rw [hheld, hu.now], hfence.trans (hu.setFence_fence _)⟩

theorem replayGo_goes {h : SetHdr} {x gen : Nat} (hh : s.hears h (.replayGo (s.widenEcn x) gen)) (hlive : s.live = true)
    (hgen : gen % 16 = (s.net.gen + 1) % 16) :
    ∃ t, exec (.replayGo h x gen) s = .next t ∧ t.net.gen = gen % 16 ∧ t.net.prevGen = s.net.gen ∧
      t.net.prevLimit = s.net.fence.getD s.rc.ecn ∧ t.net.fence = none ∧ t.rc.abort = none := by
  obtain ⟨u, hu, hdown⟩ := onDown_hears s hh fun s' => s'.actReplayGo (s.widenEcn x) gen
  have hgoes := actReplayGo_goes u (n := s.widenEcn x) (hu.live.trans hlive) (hu.gen ▸ hgen)
  rw [hu.gen, hu.fence, hu.rc] at hgoes
  exact ⟨_, congrArg ok hdown, hgoes⟩

theorem rewindGo_goes {h : SetHdr} {x gen : Nat} (hh : s.hears h (.rewindGo (s.widenEcn x) gen))
    (hrewind : s.rc.rewind = some (s.widenEcn x)) (hgen : gen % 16 = (s.net.gen + 1) % 16) :
    ∃ t, exec (.rewindGo h x gen) s = .next t ∧ t.rc.rewindGone = true ∧ t.rc.rewind = some (s.widenEcn x) ∧
      t.net.gen = gen % 16 ∧ t.net.repeats = [] := by
  obtain ⟨u, hu, hdown⟩ := onDown_hears s hh fun s' => s'.actRewindGo (s.widenEcn x) gen
  exact ⟨_, congrArg ok hdown, actRewindGo_goes u (by rw [hu.rc, hrewind]) (hu.gen ▸ hgen)⟩

theorem schedPause_held {h : SetHdr} {x : Nat} (hh : s.hears h (.schedPause (s.widenEcn x))) (hlive : s.live = true)
    (hgen : h.gen = s.net.gen) (hbegun : s.rc.begun = true) (hlow : ∀ q, s.rc.schedPause = some q → s.widenEcn x < q) :
    ∃ t, exec (.schedPause h x) s = .next t ∧ t.rc.schedPause = some (s.widenEcn x) ∧ t.rc.state = s.rc.state ∧
      t.net.fence = some (match s.net.fence with | none => s.widenEcn x | some f => min f (s.widenEcn x)) := by
  obtain ⟨u, hu, hdown⟩ := onDown_hears s hh fun s' => s'.actSchedPause h.gen (s.widenEcn x)
  obtain ⟨hheld, hstate, hfence⟩ := actSchedPause_held u (n := s.widenEcn x) (hu.live.trans hlive)
    (by rw [hu.rc, hbegun]) (by rw [hu.rc]; exact hlow)
  rw [← hgen.trans hu.gen.symm] at hheld hstate hfence
  exact ⟨_, congrArg ok hdown, hheld, by rw [hstate, hu.rc], hfence.trans (hu.setFence_fence _)⟩

/-- A running device that takes SYSTEM_HALT stops its cycles at their next step boundary (R133). -/
theorem systemHalt_running {h : SetHdr} {x dev : Nat} (hh : s.hears h (.systemHalt (s.widenEcn x) dev))
    (hacted : s.acted (.systemHalt (s.widenEcn x) dev) h.gen = false) (hlive : s.live = true) :
    ∃ t, exec (.systemHalt h x dev) s = .next t ∧ t.rc.halting = true ∧ t.rc.state = s.rc.state ∧
      t.net.fence = some (match s.net.fence with | none => s.widenEcn x | some f => min f (s.widenEcn x)) := by
  obtain ⟨u, hu, hexec⟩ := exec_systemHalt_hears s hh
  obtain ⟨-, -, -, -, hstate⟩ := hh
  rw [actSystemHalt_takes u (by rw [hu.rc]; exact hstate) ((hu.acted _ _).trans hacted)] at hexec
  have hrc : (u.haltTaken h.gen (s.widenEcn x) dev).rc = s.rc := by rw [haltTaken_eq]; exact hu.rc
  rw [haltHere_live _ (by rw [State.live, hrc]; exact hlive)] at hexec
  refine ⟨_, hexec, rfl, by rw [modRc_rc, hrc], ?_⟩
  rw [modRc_net, haltTaken_fence, hu.setFence_fence]

/-- A paused one halts at the lowest cycle it has not sealed (R133). -/
theorem systemHalt_paused {h : SetHdr} {x dev : Nat} (hh : s.hears h (.systemHalt (s.widenEcn x) dev))
    (hacted : s.acted (.systemHalt (s.widenEcn x) dev) h.gen = false) (hpaused : s.rc.state = .paused) :
    ∃ t, exec (.systemHalt h x dev) s = .next t ∧ t.rc.state = .halted ∧ t.rc.ecn = s.rc.sealNext ∧
      t.rd64 Reg.HALT_ECN_LO = s.rc.sealNext % 2 ^ 64 ∧ t.inbox = [] ∧ t.orderly = true := by
  obtain ⟨u, hu, hexec⟩ := exec_systemHalt_hears s hh
  obtain ⟨-, -, -, -, hstate⟩ := hh
  rw [actSystemHalt_takes u (by rw [hu.rc]; exact hstate) ((hu.acted _ _).trans hacted)] at hexec
  have hrc : (u.haltTaken h.gen (s.widenEcn x) dev).rc = s.rc := by rw [haltTaken_eq]; exact hu.rc
  have hnot : (u.haltTaken h.gen (s.widenEcn x) dev).rc.state ≠ .loaded := by simp [hrc, hpaused]
  rw [haltHere_still _ (.inr (by rw [hrc, hpaused]))] at hexec
  obtain ⟨hecn, hinbox⟩ := enterHalted_rollsBack _ hnot
  refine ⟨_, hexec, by rw [enterHalted_rc], by rw [hecn, hrc], ?_, hinbox, orderly_enterHalted _⟩
  rw [rd64_haltEcn, State.haltPoint, if_neg hnot, hrc]

end

/-- Settles O17: each set is passed on first, which leaves run control and the fence as they were, and then does its own part. -/
theorem downwardSetsAbortReplayPauseAndHalt : Obligations.DownwardSetsAbortReplayPauseAndHalt := by
  unfold Obligations.DownwardSetsAbortReplayPauseAndHalt
  refine ⟨fun s h x gen => ⟨?_, ?_, ?_⟩, fun s h x dev => ⟨?_, fun hh hacted => ⟨?_, ?_⟩⟩⟩
  · exact abort_held s
  · exact replayGo_goes s
  · exact rewindGo_goes s
  · exact schedPause_held s
  · exact systemHalt_running s hh hacted
  · exact systemHalt_paused s hh hacted

end Sys2Proof.Machine

/-!
COMMAND and TRIGGER sets: the limit of a replay, a run from LOADED, and the lines of a system trigger (R141, R207, R222, R245, R311).
-/

namespace Sys2Proof.Machine

section
variable {s t u : State}

/-! ## What a COMMAND finds (R47, R141, R221) -/

/-- A device that takes a COMMAND notes it, and learns of another's refusal of a rewind. -/
def State.commandNoted (s : State) (target cseq code param : Nat) : State :=
  ((({ s with net := { s.net with acted := s.net.acted.filter (fun a =>
      (a.1 % 256 ≠ 0x20 ∧ a.1 % 256 ≠ 0x21) ∨ (cseq + 65536 - a.2.1 % 65536) % 65536 < 0x8000) } } : State).act
    (.command target cseq code param) 0).rewindLearns).answered 0x1A

/-- What a command finds as the device had it: run control's state, the generation, the power domains, and the registers but
those that a set passed on and a rewind rejected write. -/
def State.Commanded (s t : State) : Prop :=
  t.rc.state = s.rc.state ∧ t.rc.inReplay = s.rc.inReplay ∧ t.net.gen = s.net.gen ∧ t.power = s.power ∧
    s.keepsRegs t [Reg.TREE_STAT, Reg.CMD_STATUS, Reg.RC_INT_STAT]

theorem State.Commanded.trans (h : s.Commanded t) (h' : t.Commanded u) : s.Commanded u := by
  obtain ⟨hstate, hreplay, hgen, hpower, hregs⟩ := h
  obtain ⟨hstate', hreplay', hgen', hpower', hregs'⟩ := h'
  exact ⟨hstate'.trans hstate, hreplay'.trans hreplay, hgen'.trans hgen, hpower'.trans hpower, hregs.trans hregs'⟩

theorem State.Passed.commanded (h : s.Passed t) : s.Commanded t :=
  ⟨by rw [h.rc], by rw [h.rc], h.gen, h.power, h.2.1.mono (by simp)⟩

theorem commanded_cmdEnds (s : State) (a b : Nat) : s.Commanded ((s.modRc fun r => { r with cmd := none }).cmdStatus a b) := by
  refine ⟨by rw [cmdStatus_rc]; rfl, by rw [cmdStatus_rc]; rfl, by rw [cmdStatus_net]; rfl, by rw [noted_cmdStatus]; rfl, ?_⟩
  intro off hoff hn
  simp only [List.mem_cons, List.not_mem_nil, or_false, not_or] at hoff
  exact rd_cmdStatus _ _ _ _ hoff.2.1 hoff.2.2 hn

theorem commanded_rewindRejected (s : State) (why : Nat) : s.Commanded (s.rewindRejected why) := by
  have hrecord : s.Commanded (s.record cRejected bRunctl 0x0207 why) :=
    ⟨by rw [record_rc], by rw [record_rc], by rw [record_net], record_power s _ _ _ _, fun off _ hn => rd_record s _ _ _ _ off hn⟩
  have hbegin (v : State) (n : Net) (hgen : n.gen = v.net.gen) :
      v.Commanded (({ v with net := n } : State).modRc fun r => { r with rewind := none, rewindGone := false }) :=
    ⟨rfl, rfl, hgen, rfl, fun _ _ _ => rfl⟩
  unfold State.rewindRejected
  dsimp only
  split
  · split
    · exact hrecord.trans ((hbegin _ _ rfl).trans (commanded_cmdEnds _ _ _))
    · exact hrecord.trans (hbegin _ _ rfl)
  · exact hrecord.trans (hbegin _ _ rfl)

theorem commanded_commandNoted (s : State) (target cseq code param : Nat) :
    s.Commanded (s.commandNoted target cseq code param) := by
  have hlearn (v : State) : v.Commanded (v.rewindLearns) := by
    unfold State.rewindLearns
    split
    · exact commanded_rewindRejected v 3
    · exact ⟨rfl, rfl, rfl, rfl, fun _ _ _ => rfl⟩
  have hact (n : List (Nat × Nat × Nat)) (m : Msg) :
      s.Commanded (({ s with net := { s.net with acted := n } } : State).act m 0) := by
    rw [act_eq]
    exact ⟨rfl, rfl, rfl, rfl, fun _ _ _ => rfl⟩
  unfold State.commandNoted
  exact (hact _ _).trans ((hlearn _).trans ⟨rfl, rfl, rfl, rfl, fun _ _ _ => rfl⟩)

/-- A device that waits for no rewind only notes the command. -/
theorem commandNoted_rc (s : State) (target cseq code param : Nat) (h : s.rc.rewind = none) :
    (s.commandNoted target cseq code param).rc = s.rc := by
  unfold State.commandNoted
  rw [act_eq, State.rewindLearns, if_neg (by rintro ⟨hsome, -⟩; simp [h] at hsome)]
  rfl

/-- The ports that a tree check asks about (R221). -/
def State.treePorts (s : State) : List (Nat × Nat × Bool) :=
  [0, 1].flatMap (fun t => (if s.isRoot t then [] else [(t, s.parent t, true)]) ++ (s.children t).map (fun p => (t, p, false)))

/-- The check of one port (R221). -/
def State.treePort (s : State) (t p : Nat) (isParent : Bool) : Option (Nat × Nat × Nat) :=
  if s.fld (Reg.PORT_CFG p) 12 2 ≠ 0 then some (t, p, 0)
  else if !s.flag (Reg.PORT_STAT p) 31 then some (t, p, 1)
  else if isParent ∧ s.fld (Reg.PORT_PEER p) 0 13 ≠ s.fld (Reg.TREE_ID t) 16 13 then some (t, p, 2)
  else none

theorem treeCheck_eq (s : State) : s.treeCheck = s.treePorts.findSome? (fun e => s.treePort e.1 e.2.1 e.2.2) := rfl

/-- The registers that a command checks. -/
theorem State.Commanded.rd (h : s.Commanded t) (off : Nat) (hoff : off < 0x100000 ∨ (0x100041 ≤ off ∧ off < 0x108000) ∨ (0x200000 ≤ off ∧ off ≤ 0x60001F)) :
    t.rd off = s.rd off := by
  obtain ⟨-, -, -, -, hregs⟩ := h
  refine hregs off ?_ (not_mem_noteRegs (by omega))
  simp only [List.mem_cons, List.not_mem_nil, or_false, not_or, Reg.TREE_STAT, Reg.CMD_STATUS, Reg.RC_INT_STAT]
  omega

theorem treePort_congr (hrd : ∀ off, 0x500000 ≤ off → off ≤ 0x60001F → t.rd off = s.rd off) {k p : Nat} (hk : k < 2) (hp : p < 8)
    (isParent : Bool) : t.treePort k p isParent = s.treePort k p isParent := by
  have hcfg : t.fld (Reg.PORT_CFG p) 12 2 = s.fld (Reg.PORT_CFG p) 12 2 :=
    fld_congr (hrd _ (by simp only [Reg.PORT_CFG]; omega) (by simp only [Reg.PORT_CFG]; omega)) _ _
  have hstat : t.flag (Reg.PORT_STAT p) 31 = s.flag (Reg.PORT_STAT p) 31 :=
    flag_congr (hrd _ (by simp only [Reg.PORT_STAT]; omega) (by simp only [Reg.PORT_STAT]; omega)) _
  have hpeer : t.fld (Reg.PORT_PEER p) 0 13 = s.fld (Reg.PORT_PEER p) 0 13 :=
    fld_congr (hrd _ (by simp only [Reg.PORT_PEER]; omega) (by simp only [Reg.PORT_PEER]; omega)) _ _
  have hid : t.fld (Reg.TREE_ID k) 16 13 = s.fld (Reg.TREE_ID k) 16 13 :=
    fld_congr (hrd _ (by simp only [Reg.TREE_ID]; omega) (by simp only [Reg.TREE_ID]; omega)) _ _
  simp only [State.treePort, hcfg, hstat, hpeer, hid]

theorem mem_treePorts {e : Nat × Nat × Bool} (h : e ∈ s.treePorts) : e.1 < 2 ∧ e.2.1 < 8 := by
  have hparent (k : Nat) : s.parent k < 8 := fld_lt s _ _ 3
  simp only [State.treePorts, State.children, List.mem_flatMap, List.mem_append, List.mem_map, List.mem_filter, List.mem_range] at h
  obtain ⟨k, hk, h | ⟨p, ⟨hp, -⟩, rfl⟩⟩ := h
  · split at h
    · simp at h
    · obtain rfl := List.mem_singleton.mp h
      exact ⟨by fin_cases hk <;> simp, hparent k⟩
  · exact ⟨by fin_cases hk <;> simp, hp⟩

/-- A tree check depends on the registers of the ports and of the trees. -/
theorem treeCheck_congr (hrd : ∀ off, 0x500000 ≤ off → off ≤ 0x60001F → t.rd off = s.rd off) (h : s.treeCheck = none) :
    t.treeCheck = none := by
  have htree (k i : Nat) (hk : k < 2) : t.flag (Reg.TREE_CFG k) i = s.flag (Reg.TREE_CFG k) i :=
    flag_congr (hrd _ (by simp only [Reg.TREE_CFG]; omega) (by simp only [Reg.TREE_CFG]; omega)) _
  have hparent (k : Nat) (hk : k < 2) : t.parent k = s.parent k :=
    fld_congr (hrd _ (by simp only [Reg.TREE_CFG]; omega) (by simp only [Reg.TREE_CFG]; omega)) _ _
  have hroot (k : Nat) (hk : k < 2) : t.isRoot k = s.isRoot k := htree k 31 hk
  have hchildren (k : Nat) (hk : k < 2) : t.children k = s.children k := by simp only [State.children, htree k _ hk]
  have hports : t.treePorts = s.treePorts := by
    simp only [State.treePorts, List.flatMap_cons, List.flatMap_nil, hroot 0 (by decide), hroot 1 (by decide),
      hchildren 0 (by decide), hchildren 1 (by decide), hparent 0 (by decide), hparent 1 (by decide)]
  rw [treeCheck_eq, List.findSome?_eq_none_iff] at h ⊢
  intro e he
  rw [hports] at he
  obtain ⟨hk, hp⟩ := mem_treePorts he
  rw [treePort_congr hrd hk hp]
  exact h e he

end

section
variable (s : State)

/-! ## Clusters that wake from HOLD and RETAIN (R438, R439) -/

/-- No cluster is OFF. -/
def State.noneOff (s : State) : Prop := ∀ c, (s.dom c).level ≠ 3

/-- The fences of the rings, and what they show and send. -/
def State.Fenced (s t : State) : Prop :=
  t = { s with csr := t.csr, faults := t.faults, tx := t.tx, spoor := t.spoor, ring := t.ring }

variable {s} in
theorem State.Fenced.trans {t u : State} (h : s.Fenced t) (h' : t.Fenced u) : s.Fenced u := Eq.trans h' (by rw [h])

variable {s} in
theorem State.Traced.fenced {t : State} (h : s.Traced t) : s.Fenced t := Eq.trans h (by rw [show t.ring = s.ring by rw [h]])

theorem fenced_modRing (f : Ring → Ring) : s.Fenced (s.modRing f) := rfl
theorem fenced_ringErrors (l : List RingReq) : s.Fenced (s.ringErrors l) := rfl

theorem fenced_unfence (d : Nat) : s.Fenced (s.unfence d) := by
  unfold State.unfence
  refine foldl_rel State.Fenced (fun _ => rfl) (fun _ _ _ => State.Fenced.trans) _ (fun t stop => ?_) _ s
  dsimp only
  split
  · exact (fenced_modRing t _).trans ((fenced_modRing _ _).trans ((noted_showStop _ stop).traced.fenced.trans
      ((fenced_ringErrors _ _).trans (traced_ringEvent _ _ _ _ _).fenced)))
  · exact (fenced_modRing t _).trans ((fenced_modRing _ _).trans ((noted_showStop _ stop).traced.fenced.trans
      (fenced_ringErrors _ _)))

theorem dom_congr {s t : State} (h : t.power = s.power) (d : Nat) : t.dom d = s.dom d := by
  simp only [State.dom, h]

/-- A domain that leaves its state is in RUN, and the others stay where they are (R440). -/
theorem level_leaveDom (d e : Nat) : ((s.leaveDom d).dom e).level = if e = d then 0 else (s.dom e).level := by
  unfold State.leaveDom
  dsimp only
  split
  · next h =>
    rw [dom_touch]
    split
    · next he => rw [he]; exact h.1
    · rfl
  · have hcounts (v : State) (hv : s.Noted v) (x : Domain) (hx : x.level = 0) :
        (((v.modDom d fun _ => x).unfence d).dom e).level = if e = d then 0 else (s.dom e).level := by
      rw [dom_congr (show ((v.modDom d fun _ => x).unfence d).power = (v.modDom d fun _ => x).power by rw [fenced_unfence])]
      show ((Map.set (fun _ => {}) v.power.doms d x).get (fun _ => {}) e).level = _
      rw [Map.get_set, hv]
      split
      · exact hx
      · rfl
    refine hcounts _ ?_ _ rfl
    split
    · rfl
    · exact State.Noted.foldl _ (fun t e => noted_count t _ _ _ _) _ s

theorem noneOff_leaveDom (d : Nat) (h : s.noneOff) : (s.leaveDom d).noneOff := by
  intro c
  rw [level_leaveDom]
  split
  · decide
  · exact h c

/-- A cluster that is not OFF wakes without its restore. -/
theorem wakeCluster_notOff (c : Nat) (h : s.noneOff) : s.wakeCluster c = s.leaveDom c := by
  unfold State.wakeCluster
  dsimp only
  rw [if_neg (h c)]
  split
  · next hrun => rw [State.leaveDom, if_pos hrun]
  · rfl

/-- The fabric wakes as its domains leave their states, with no read of DDR. -/
theorem woken_wakeFabric (h : s.noneOff) : s.Woken s.wakeFabric := by
  have hfold (l : List Nat) : s.Woken (l.foldl State.wakeCluster s) := by
    induction l generalizing s with
    | nil => rfl
    | cons c l ih =>
      rw [List.foldl_cons, wakeCluster_notOff s c h]
      exact (woken_leaveDom s c).trans (ih _ (noneOff_leaveDom s c h))
  exact (hfold _).trans (woken_leaveDom _ 64)

/-! ## A run from LOADED (R207, R245) -/

theorem noted_lynxAnchor (t : Nat) : s.Noted (s.lynxAnchor t) := by
  unfold State.lynxAnchor
  refine State.Noted.foldl _ (fun u b => ?_) _ _
  split
  · exact (noted_wr64 u _ _).trans (noted_wr64 _ _ _)
  · rfl

/-- Measurements end: their enables in registers, the rest in the acquisition's own store. -/
theorem measOff_eq : ∃ t f, s.Noted t ∧ s.measOff = t.modAcq f := by
  unfold State.measOff
  exact ⟨_, _, State.Noted.foldl _ (fun u _ => noted_setFlag u _ _ _) _ s, rfl⟩

theorem acqRunFromLoaded_keeps : s.acqRunFromLoaded.rc = s.rc ∧ s.acqRunFromLoaded.net = s.net := by
  obtain ⟨t, f, ht, heq⟩ := measOff_eq s
  rw [State.acqRunFromLoaded, heq]
  exact ⟨ht.rc, ht.net⟩

/-- A run from LOADED begins at its target under the next generation (R207, R245). -/
theorem applyRun_loaded (target code param : Nat) (h : s.rc.state = .loaded) (hreplay : s.rc.inReplay = false) :
    (s.applyRun target code param).rc.state = .running ∧ (s.applyRun target code param).rc.ecn = target ∧
      (s.applyRun target code param).rc.runStart = target ∧ (s.applyRun target code param).rc.sealNext = target ∧
      (s.applyRun target code param).rc.begun = false ∧ (s.applyRun target code param).net.gen = (s.net.gen + 1) % 16 := by
  unfold State.applyRun
  simp only [h, decide_true, if_true]
  rw [(acqRunFromLoaded_keeps _).1, (acqRunFromLoaded_keeps _).2, (noted_lynxAnchor _ _).rc, (noted_lynxAnchor _ _).net]
  simp [State.advanceGen, hreplay]

/-! ## COMMAND (R141, R245) -/

/-- REWIND_LIMIT sets the limit of the replay. -/
theorem actCommand_limit (target cseq param : Nat) (hstate : s.rc.state ≠ .fatal)
    (hacted : s.acted (.command target cseq 0x15 param) 0 = false) :
    s.actCommand target cseq 0x15 param =
      (s.commandNoted target cseq 0x15 param).modRc fun r => { r with rewindLimit := target } := by
  unfold State.actCommand
  dsimp only
  rw [if_neg (by simp [hstate, hacted]), if_pos rfl]
  rfl

/-- A RUN that was pending here is done as it takes effect (R245). -/
def State.runDone (s : State) (target : Nat) : State :=
  match s.rc.cmd with
  | some c => if c.code = 0x10 then
      ((s.modRc fun r => { r with cmd := none }).wr64 Reg.CMD_ACTED_LO target).cmdStatus 2 c.code else s
  | none => s

theorem runDone_keeps (target : Nat) :
    (s.runDone target).net = s.net ∧ (s.runDone target).rc = { s.rc with cmd := (s.runDone target).rc.cmd } := by
  unfold State.runDone
  split
  · split
    · exact ⟨cmdStatus_net _ _ _, by rw [cmdStatus_rc]; rfl⟩
    · exact ⟨rfl, rfl⟩
  · exact ⟨rfl, rfl⟩

/-- A RUN in LOADED that passes its checks runs. -/
theorem actCommand_run (target cseq param : Nat) (hstate : s.rc.state = .loaded)
    (hacted : s.acted (.command target cseq 0x10 param) 0 = false)
    (hbanks : (s.commandNoted target cseq 0x10 param).window + 1 ≤ (s.commandNoted target cseq 0x10 param).nBanks)
    (htree : (s.commandNoted target cseq 0x10 param).treeCheck = none)
    (hwake : (s.commandNoted target cseq 0x10 param).noneOff) :
    s.actCommand target cseq 0x10 param =
      ((s.commandNoted target cseq 0x10 param).wakeFabric.applyRun target 0x10 param).runDone target := by
  have hloaded : (s.commandNoted target cseq 0x10 param).rc.state = .loaded :=
    (commanded_commandNoted s target cseq 0x10 param).1.trans hstate
  have hawake : (s.commandNoted target cseq 0x10 param).wakeFabric.rc.state ≠ .fatal := by
    rw [woken_wakeFabric _ hwake]
    simp [hloaded]
  unfold State.actCommand
  dsimp only
  rw [if_neg (by simp [hstate, hacted])]
  generalize hv : State.answered _ 0x1A = v
  obtain rfl : s.commandNoted target cseq 0x10 param = v := hv
  rw [if_neg (by decide), if_neg (by simp [hloaded, legalIn]), if_pos (.inl rfl), if_neg (by omega), htree]
  exact if_neg hawake

/-! ## The clauses of COMMAND -/

theorem command_limit {h : SetHdr} {x cseq param : Nat} (hh : s.hears h (.command (s.widenEcn x) cseq 0x15 param))
    (hacted : s.acted (.command (s.widenEcn x) cseq 0x15 param) 0 = false) (hrewind : s.rc.rewind = none) :
    ∃ t, exec (.command h x cseq 0x15 param) s = .next t ∧ t.rc = { s.rc with rewindLimit := s.widenEcn x } := by
  obtain ⟨u, hu, hdown⟩ := onDown_hears s hh fun s' => s'.actCommand (s.widenEcn x) cseq 0x15 param
  obtain ⟨-, -, -, -, hstate⟩ := hh
  rw [actCommand_limit u _ _ _ (by rw [hu.rc]; exact hstate) ((hu.acted _ _).trans hacted)] at hdown
  refine ⟨_, congrArg ok hdown, ?_⟩
  rw [modRc_rc, commandNoted_rc u _ _ _ _ (by rw [hu.rc, hrewind]), hu.rc]

theorem command_run {h : SetHdr} {x cseq param : Nat} (hh : s.hears h (.command (s.widenEcn x) cseq 0x10 param))
    (hacted : s.acted (.command (s.widenEcn x) cseq 0x10 param) 0 = false) (hstate : s.rc.state = .loaded)
    (hreplay : s.rc.inReplay = false) (hbanks : s.window + 1 ≤ s.nBanks) (htree : s.treeCheck = none) (hoff : s.noneOff) :
    ∃ t, exec (.command h x cseq 0x10 param) s = .next t ∧ t.rc.state = .running ∧ t.rc.ecn = s.widenEcn x ∧
      t.rc.runStart = s.widenEcn x ∧ t.rc.sealNext = s.widenEcn x ∧ t.rc.begun = false ∧
      t.net.gen = (s.net.gen + 1) % 16 := by
  obtain ⟨u, hu, hdown⟩ := onDown_hears s hh fun s' => s'.actCommand (s.widenEcn x) cseq 0x10 param
  have hnoted := hu.commanded.trans (commanded_commandNoted u (s.widenEcn x) cseq 0x10 param)
  have hbanks' : (u.commandNoted (s.widenEcn x) cseq 0x10 param).window + 1 ≤
      (u.commandNoted (s.widenEcn x) cseq 0x10 param).nBanks := by
    rw [State.window, State.nBanks, fld_congr (hnoted.rd _ (by decide)), fld_congr (hnoted.rd _ (by decide))]
    exact hbanks
  have htree' := treeCheck_congr (fun off hlo hhi => hnoted.rd off (.inr (.inr ⟨by omega, hhi⟩))) htree
  obtain ⟨hstate', hreplay', hgen, hpower, -⟩ := hnoted
  have hoff' : (u.commandNoted (s.widenEcn x) cseq 0x10 param).noneOff := fun c => by
    rw [dom_congr hpower]
    exact hoff c
  rw [actCommand_run u _ _ _ (by rw [hu.rc, hstate]) ((hu.acted _ _).trans hacted) hbanks' htree' hoff'] at hdown
  have hwoken := woken_wakeFabric _ hoff'
  obtain ⟨hrun, hecn, hstart, hseal, hbegun, hnext⟩ := applyRun_loaded
    (u.commandNoted (s.widenEcn x) cseq 0x10 param).wakeFabric (s.widenEcn x) 0x10 param
    (by rw [hwoken]; exact hstate'.trans hstate) (by rw [hwoken]; exact hreplay'.trans hreplay)
  obtain ⟨hnet, hrc⟩ := runDone_keeps
    ((u.commandNoted (s.widenEcn x) cseq 0x10 param).wakeFabric.applyRun (s.widenEcn x) 0x10 param) (s.widenEcn x)
  refine ⟨_, congrArg ok hdown, ?_⟩
  rw [hrc, hnet]
  refine ⟨hrun, hecn, hstart, hseal, hbegun, ?_⟩
  rw [hnext, show (u.commandNoted (s.widenEcn x) cseq 0x10 param).wakeFabric.net.gen = s.net.gen by rw [hwoken]; exact hgen]

/-! ## TRIGGER (R222, R311) -/

/-- The external events of the lines of a system trigger are gathered outside REPLAYING. -/
theorem foldl_systemTrigger (lines n : Nat) (hs : s.rc.state ≠ .replaying) :
    ∃ x, (List.range n).foldl (fun (s : State) i => if lines.testBit i then s.acqEvent (48 + i) else s) s = s.gathering x ∧
      ∀ i, x.testBit i = (s.acq.extNext.testBit i || (decide (16 ≤ i ∧ i < 16 + n) && lines.testBit (i - 16))) := by
  induction n with
  | zero => exact ⟨s.acq.extNext, rfl, fun i => by simp⟩
  | succ n ih =>
    obtain ⟨x, hfold, hx⟩ := ih
    have hnew (i : Nat) : (16 ≤ i ∧ i < 16 + (n + 1)) ↔ (16 ≤ i ∧ i < 16 + n) ∨ i = 16 + n := by omega
    rw [List.range_succ, List.foldl_append, List.foldl_cons, List.foldl_nil, hfold]
    split
    · next hline =>
      refine ⟨x ||| 2 ^ (16 + n), ?_, fun i => ?_⟩
      · rw [acqEvent_gathers (by exact hs), show 48 + n - 32 = 16 + n by omega]
        rfl
      · rw [Nat.testBit_or, hx, Nat.testBit_two_pow]
        by_cases hi : i = 16 + n
        · simp [hi, hline]
        · simp [hnew, hi, Ne.symm hi]
    · next hline =>
      refine ⟨x, rfl, fun i => ?_⟩
      rw [hx]
      by_cases hi : i = 16 + n
      · simp [hi, hline]
      · simp [hnew, hi]

/-- The lines and the ECN of a system trigger pass to the trigger sequencer (R222, R311). -/
theorem systemTriggerIn_gathers (lines ecn : Nat) (hs : s.rc.state ≠ .replaying) :
    (s.systemTriggerIn lines ecn).acq.sysIn = some (lines, ecn) ∧
      ∀ i, (s.systemTriggerIn lines ecn).acq.extNext.testBit i =
        (s.acq.extNext.testBit i || (decide (16 ≤ i ∧ i < 24) && lines.testBit (i - 16))) := by
  obtain ⟨x, hfold, hx⟩ := foldl_systemTrigger { s with acq := { s.acq with sysIn := some (lines, ecn) } } lines 8 hs
  rw [State.systemTriggerIn, hfold]
  exact ⟨rfl, hx⟩

theorem systemTriggerIn_net (lines ecn : Nat) : (s.systemTriggerIn lines ecn).net = s.net := by
  have hevents (l : List Nat) (v : State) :
      v.Evented (l.foldl (fun (s : State) i => if lines.testBit i then s.acqEvent (48 + i) else s) v) := by
    refine foldl_rel State.Evented (fun _ => rfl) (fun _ _ _ => State.Evented.trans) _ (fun t i => ?_) l v
    split
    · exact evented_acqEvent t _
    · rfl
  unfold State.systemTriggerIn
  rw [hevents]

/-- With none waiting, no trigger of this device goes out. -/
theorem launchTrigger_none (h : s.net.trigWait = []) : s.launchTrigger = s := by
  simp [State.launchTrigger, h]

/-- A TRIGGER not yet acted on is noted, and its own device's number is free again, besides what passes to the sequencer. -/
theorem actTrigger_passes (ecn origin seq lines : Nat) (hacted : s.acted (.trigger ecn origin seq lines) 0 = false) :
    ∃ v : State, v.rc = s.rc ∧ v.acq = s.acq ∧
      (s.actTrigger ecn origin seq lines).acq = (v.systemTriggerIn lines ecn).acq ∧
      (s.actTrigger ecn origin seq lines).net.trigWait = s.net.trigWait := by
  have hnoted (v : State) (h : v.net.trigWait = s.net.trigWait) : (v.systemTriggerIn lines ecn).net.trigWait = s.net.trigWait := by
    rw [systemTriggerIn_net, h]
  refine ⟨(s.forgetTriggers origin seq).act (.trigger ecn origin seq lines) 0, by rw [act_eq]; rfl, by rw [act_eq]; rfl, ?_⟩
  unfold State.actTrigger
  dsimp only
  rw [if_neg (by simp [hacted])]
  split
  · exact ⟨rfl, hnoted _ (by rw [act_eq]; rfl)⟩
  · exact ⟨rfl, hnoted _ (by rw [act_eq]; rfl)⟩

theorem trigger_passes {h : SetHdr} {x origin seq lines : Nat} (hh : s.hears h (.trigger (s.widenEcn x) origin seq lines))
    (hacted : s.acted (.trigger (s.widenEcn x) origin seq lines) 0 = false) (hstate : s.rc.state ≠ .replaying)
    (hwait : s.net.trigWait = []) :
    ∃ t, exec (.systemTrigger h x origin seq lines) s = .next t ∧ t.acq.sysIn = some (lines, s.widenEcn x) ∧
      ∀ i, t.acq.extNext.testBit i =
        (s.acq.extNext.testBit i || (decide (16 ≤ i ∧ i < 24) && lines.testBit (i - 16))) := by
  obtain ⟨u, hu, hdown⟩ := onDown_hears s hh fun s' => (s'.actTrigger (s.widenEcn x) origin seq lines).launchTrigger
  obtain ⟨v, hrc, hacq, hpassed, hnone⟩ := actTrigger_passes u (s.widenEcn x) origin seq lines ((hu.acted _ _).trans hacted)
  rw [launchTrigger_none _ (by rw [hnone, hu.trigWait, hwait])] at hdown
  obtain ⟨hin, hext⟩ := systemTriggerIn_gathers v lines (s.widenEcn x) (by rw [hrc, hu.rc]; exact hstate)
  refine ⟨_, congrArg ok hdown, by rw [hpassed, hin], fun i => ?_⟩
  rw [hpassed, hext, hacq, hu.acq]

end

/-- Settles O19: a set not yet acted on is passed on and noted, and then does its own part. -/
theorem commandAndTriggerSetsTakeEffect : Obligations.CommandAndTriggerSetsTakeEffect := by
  unfold Obligations.CommandAndTriggerSetsTakeEffect
  refine ⟨fun s h x cseq param => ⟨?_, ?_⟩, fun s h x origin seq lines => ?_⟩
  · exact command_limit s
  · exact command_run s
  · exact trigger_passes s

end Sys2Proof.Machine

/-!
A peer that goes down, and the halt that a device asks for (R133, R218, R223-R225, R228, R240).
-/

namespace Sys2Proof.Machine

section
variable (s : State)

/-! ## What a SYSTEM_HALT does in each state (R133, R240) -/

/-- Cycles that run are to stop at their boundary, a device in LOADED or PAUSED enters HALTED, and any other stays as it is. -/
theorem haltHere_cases : s.haltHere = s ∨ (s.live = true ∧ s.haltHere = s.modRc fun r => { r with halting := true }) ∨
    ((s.rc.state = .loaded ∨ s.rc.state = .paused) ∧ s.haltHere = s.enterHalted) := by
  by_cases hlive : s.live = true
  · exact .inr (.inl ⟨hlive, haltHere_live s hlive⟩)
  by_cases hstill : s.rc.state = .loaded ∨ s.rc.state = .paused
  · exact .inr (.inr ⟨hstill, haltHere_still s hstill⟩)
  · refine .inl ?_
    unfold State.live at hlive
    unfold State.haltHere
    cases h : s.rc.state <;> simp_all

/-- What a halt leaves of run control: the same, the cycles to stop, or HALTED. -/
def RunCtl.HaltsTo (r r' : RunCtl) : Prop :=
  r' = r ∨ ((r.state = .running ∨ r.state = .replaying) ∧ r' = { r with halting := true }) ∨
    ((r.state = .loaded ∨ r.state = .paused) ∧ r'.state = .halted)

theorem live_iff : s.live = true ↔ s.rc.state = .running ∨ s.rc.state = .replaying := by
  unfold State.live
  cases s.rc.state <;> simp

theorem haltHere_haltsTo : s.rc.HaltsTo s.haltHere.rc := by
  obtain h | ⟨hlive, h⟩ | ⟨hstill, h⟩ := haltHere_cases s
  · exact .inl (by rw [h])
  · exact .inr (.inl ⟨(live_iff s).mp hlive, by rw [h, modRc_rc]⟩)
  · exact .inr (.inr ⟨hstill, by rw [h, enterHalted_rc]⟩)

theorem haltHere_keepsNet (p : Nat) :
    (s.haltHere.link p).peerDown = (s.link p).peerDown ∧ s.haltHere.rd Reg.NET_INT_STAT = s.rd Reg.NET_INT_STAT := by
  obtain h | ⟨-, h⟩ | ⟨-, h⟩ := haltHere_cases s
  · rw [h]; exact ⟨rfl, rfl⟩
  · rw [h]; exact ⟨rfl, rfl⟩
  · rw [h]; exact enterHalted_keepsNet s p

/-- A SYSTEM_HALT is taken, or it has been before. -/
theorem actSystemHalt_cases (gen ecn dev : Nat) : s.actSystemHalt gen ecn dev = s.answered 0x18 ∨
    s.actSystemHalt gen ecn dev = (s.haltTaken gen ecn dev).haltHere := by
  by_cases h : s.rc.state = .fatal ∨ s.acted (.systemHalt ecn dev) gen = true
  · exact .inl (actSystemHalt_again s h)
  · rw [not_or, Bool.not_eq_true] at h
    exact .inr (actSystemHalt_takes s h.1 h.2)

theorem haltTaken_rc (gen ecn dev : Nat) : (s.haltTaken gen ecn dev).rc = s.rc := by rw [haltTaken_eq]

theorem actSystemHalt_haltsTo (gen ecn dev : Nat) : s.rc.HaltsTo (s.actSystemHalt gen ecn dev).rc := by
  obtain h | h := actSystemHalt_cases s gen ecn dev
  · exact .inl (by rw [h]; rfl)
  · rw [h, ← haltTaken_rc s gen ecn dev]
    exact haltHere_haltsTo _

theorem actSystemHalt_keepsNet (gen ecn dev p : Nat) : ((s.actSystemHalt gen ecn dev).link p).peerDown = (s.link p).peerDown ∧
    (s.actSystemHalt gen ecn dev).rd Reg.NET_INT_STAT = s.rd Reg.NET_INT_STAT := by
  obtain h | h := actSystemHalt_cases s gen ecn dev
  · rw [h]; exact ⟨rfl, rfl⟩
  · have hkeeps := haltHere_keepsNet (s.haltTaken gen ecn dev) p
    rw [h, hkeeps.1, hkeeps.2, haltTaken_eq]
    exact ⟨rfl, rfl⟩

/-! ## DEVICE_DOWN (R224) -/

/-- A device that hears DEVICE_DOWN has marked the peer down and told of it. -/
def State.peerLost (s : State) (h : SetHdr) (dev reason : Nat) : State :=
  ((s.modLink h.port fun l => { l with peerDown := true }).record cLink bSysnet 0x0502
    (h.port * 2 ^ 29 + reason % 256 * 2 ^ 21 + dev % 8192)).raise 6 0

/-- It halts, but in IDLE, LOADING and HALTED (R240). -/
def State.haltLost (s : State) : State :=
  match s.rc.state with
  | .loaded | .running | .paused | .replaying => s.actSystemHalt s.net.gen s.rc.sealNext s.devId
  | _ => s

theorem exec_deviceDown_hears {h : SetHdr} {ecn dev reason : Nat} (htree : h.tree = 0) (hbad : h.bad = false)
    (hcrc : h.crc = (Msg.deviceDown ecn dev reason).crc 0 h.gen) (hpeer : (s.link h.port).peerDown = false)
    (hstate : s.rc.state ≠ .fatal) :
    exec (.deviceDown h ecn dev reason) s = .next (s.peerLost h dev reason).haltLost := by
  have hset (f : State → State) : s.onSet h (.deviceDown ecn dev reason) f = f s := by
    unfold State.onSet
    rw [if_neg (by simp [hbad, hcrc, htree]), if_neg (by simp [hpeer, hstate])]
    simp [htree]
  exact congrArg ok (hset fun s' => (s'.peerLost h dev reason).haltLost)

/-- What it marks and tells of. -/
theorem peerLost_lost (h : SetHdr) (dev reason : Nat) :
    s.peerLost h dev reason = { s with
      csr := (s.peerLost h dev reason).csr, links := (s.peerLost h dev reason).links
      faults := (s.peerLost h dev reason).faults, tx := (s.peerLost h dev reason).tx } ∧
    ((s.peerLost h dev reason).link h.port).peerDown = true ∧ (s.peerLost h dev reason).flag Reg.NET_INT_STAT 0 = true ∧
    s.keepsRegs (s.peerLost h dev reason) [Reg.NET_INT_STAT] := by
  have hnoted : (s.modLink h.port fun l => { l with peerDown := true }).Noted (s.peerLost h dev reason) :=
    (noted_record _ _ _ _ _).trans (noted_raise _ 6 0)
  have hlinks : (s.peerLost h dev reason).links = (s.modLink h.port fun l => { l with peerDown := true }).links := by rw [hnoted]
  refine ⟨Eq.trans hnoted (by rw [hlinks]; rfl), ?_, flag_raise _ 6 0 _ rfl netStat_not_noteRegs (by decide), fun off hoff hn => ?_⟩
  · rw [State.link, hlinks]
    exact congrArg Link.peerDown (Map.get_set_same _ _ _ _)
  · rw [State.peerLost, rd_raise _ 6 0 off hn (fun e => hoff (by simp [(Option.some.inj e).symm])), rd_record _ _ _ _ _ _ hn]
    rfl

theorem haltLost_still (hstate : s.rc.state ≠ .idle ∧ s.rc.state ≠ .loading ∧ s.rc.state ≠ .halted ∧ s.rc.state ≠ .fatal) :
    s.haltLost = s.actSystemHalt s.net.gen s.rc.sealNext s.devId := by
  unfold State.haltLost
  cases h : s.rc.state <;> simp_all

theorem haltLost_apart (hstate : s.rc.state = .idle ∨ s.rc.state = .loading ∨ s.rc.state = .halted) : s.haltLost = s := by
  unfold State.haltLost
  obtain h | h | h := hstate <;> rw [h]

theorem haltLost_keepsNet (p : Nat) :
    (s.haltLost.link p).peerDown = (s.link p).peerDown ∧ s.haltLost.rd Reg.NET_INT_STAT = s.rd Reg.NET_INT_STAT := by
  have hcases : s.haltLost = s.actSystemHalt s.net.gen s.rc.sealNext s.devId ∨ s.haltLost = s := by
    unfold State.haltLost
    cases s.rc.state <;> simp
  obtain h | h := hcases
  · rw [h]; exact actSystemHalt_keepsNet s _ _ _ p
  · rw [h]; exact ⟨rfl, rfl⟩

theorem deviceDown_halts {h : SetHdr} {ecn dev reason : Nat} (htree : h.tree = 0) (hbad : h.bad = false)
    (hcrc : h.crc = (Msg.deviceDown ecn dev reason).crc 0 h.gen) (hpeer : (s.link h.port).peerDown = false)
    (hstate : s.rc.state ≠ .fatal) :
    ∃ t, exec (.deviceDown h ecn dev reason) s = .next t ∧ (t.link h.port).peerDown = true ∧
      t.flag Reg.NET_INT_STAT 0 = true ∧
      (s.rc.state = .loaded ∨ s.rc.state = .paused → s.acted (.systemHalt 0 0) s.net.gen = false →
        t.rc.state = .halted ∧ t.rc.cmd = none ∧ (s.rc.state = .loaded → t.rd64 Reg.HALT_ECN_LO = 0)) ∧
      (s.live = true → s.acted (.systemHalt 0 0) s.net.gen = false → t.rc = { s.rc with halting := true }) ∧
      (s.rc.state = .idle ∨ s.rc.state = .loading ∨ s.rc.state = .halted →
        t = { s with csr := t.csr, links := t.links, faults := t.faults, tx := t.tx } ∧ s.keepsRegs t [Reg.NET_INT_STAT]) := by
  obtain ⟨hlost, hdown, hstat, hregs⟩ := peerLost_lost s h dev reason
  have hrc : (s.peerLost h dev reason).rc = s.rc := by rw [hlost]
  have hnet : (s.peerLost h dev reason).net = s.net := by rw [hlost]
  have hkeeps := haltLost_keepsNet (s.peerLost h dev reason) h.port
  -- the keys of SYSTEM_HALT are one (R214)
  have hhalt (hgo : s.rc.state ≠ .idle ∧ s.rc.state ≠ .loading ∧ s.rc.state ≠ .halted ∧ s.rc.state ≠ .fatal)
      (hacted : s.acted (.systemHalt 0 0) s.net.gen = false) :
      ∃ u : State, u.rc = s.rc ∧ (s.peerLost h dev reason).haltLost = u.haltHere := by
    rw [haltLost_still _ (by rw [hrc]; exact hgo),
      actSystemHalt_takes _ (by rw [hrc]; exact hstate) (by rw [State.acted, hnet]; exact hacted)]
    exact ⟨_, (haltTaken_rc _ _ _ _).trans hrc, rfl⟩
  refine ⟨_, exec_deviceDown_hears s htree hbad hcrc hpeer hstate, hkeeps.1.trans hdown,
    (flag_congr hkeeps.2 0).trans hstat, fun hstill hacted => ?_, fun hlive hacted => ?_, fun hapart => ?_⟩
  · obtain ⟨u, hu, heq⟩ := hhalt (by obtain h | h := hstill <;> simp [h]) hacted
    rw [heq, haltHere_still u (hu ▸ hstill)]
    refine ⟨by rw [enterHalted_rc], by rw [enterHalted_rc], fun hloaded => ?_⟩
    rw [rd64_haltEcn, State.haltPoint, if_pos (by rw [hu, hloaded])]
    rfl
  · obtain ⟨u, hu, heq⟩ := hhalt (by obtain h | h := (live_iff s).mp hlive <;> simp [h]) hacted
    rw [heq, haltHere_live u (by rw [State.live, hu]; exact hlive), modRc_rc, hu]
  · rw [haltLost_apart _ (hrc ▸ hapart)]
    exact ⟨hlost, hregs⟩

/-! ## The report of a halt (R133, R218, R225) -/

theorem await_repeats {k : Nat} (hroot : s.isRoot k = false) (m : Msg) :
    (k, m) ∈ (s.await k m).net.repeats ∧ ∀ r ∈ s.net.repeats, r ∈ (s.await k m).net.repeats := by
  unfold State.await
  split
  · next h => exact ⟨by simpa [hroot] using h, fun _ hr => hr⟩
  · exact ⟨List.mem_append_right _ (List.mem_singleton_self _), fun _ hr => List.mem_append_left _ hr⟩

/-- A device that is no root of tree `k` reports up it, and awaits the SYSTEM_HALT that answers (R215). -/
theorem haltReport_reports {k gen : Nat} (dev : Nat) (hroot : s.isRoot k = false) (hstate : s.rc.state ≠ .fatal)
    (hacted : s.acted (.systemHalt 0 0) gen = false) :
    s.Reported (s.haltReport k gen dev) (s.setsFor [s.parent k] k gen (.haltReport dev)) ∧
      (k, Msg.haltReport dev) ∈ (s.haltReport k gen dev).net.repeats ∧
      ∀ r ∈ s.net.repeats, r ∈ (s.haltReport k gen dev).net.repeats := by
  have hsent := reported_sendUpAs hroot gen (.haltReport dev)
  have heq : s.haltReport k gen dev = (s.sendUpAs k gen (.haltReport dev)).await k (.haltReport dev) := by
    unfold State.haltReport
    rw [if_neg hstate, if_neg (by simp [hroot])]
    exact if_neg (by rw [State.acted, hsent]; exact Bool.eq_false_iff.mp hacted)
  have hawait := await_repeats (s.sendUpAs k gen (.haltReport dev)) (k := k) (by rw [hsent]; exact hroot) (.haltReport dev)
  rw [heq]
  refine ⟨by simpa using hsent.trans (reported_await _ k (.haltReport dev)), hawait.1, fun r hr => hawait.2 r ?_⟩
  unfold State.sendUpAs
  split <;> exact hr

/-- The root takes a halt report for the first time and halts the system: itself too (R133, R218). -/
theorem haltReport_root {k gen : Nat} (dev : Nat) (hroot : s.isRoot k = true) (hstate : s.rc.state ≠ .fatal)
    (hacted : s.acted (.systemHalt 0 0) gen = false) :
    ∃ u : State, u.rc = s.rc ∧ s.haltReport k gen dev = u.haltHere := by
  have hcast := passed_castDown s (.systemHalt s.rc.sealNext dev)
  unfold State.haltReport
  rw [if_neg hstate, if_pos hroot]
  dsimp only
  have hacted' : s.acted (.systemHalt s.rc.sealNext dev) gen = false := hacted
  rw [if_neg (Bool.eq_false_iff.mp hacted'),
    actSystemHalt_takes _ (by rw [hcast.rc]; exact hstate) ((hcast.acted _ _).trans hacted')]
  exact ⟨_, (haltTaken_rc _ _ _ _).trans hcast.rc, rfl⟩

theorem haltReport_haltsTo (k gen dev : Nat) : s.rc.HaltsTo (s.haltReport k gen dev).rc := by
  unfold State.haltReport
  split
  · exact .inl rfl
  · split
    · dsimp only
      split
      · exact .inl rfl
      · have h := actSystemHalt_haltsTo (s.castDown (.systemHalt s.rc.sealNext dev)) gen s.rc.sealNext dev
        rwa [(passed_castDown s (.systemHalt s.rc.sealNext dev)).rc] at h
    · next hroot =>
      have hreport := reported_sendUp_await (Bool.not_eq_true _ ▸ hroot) gen (.haltReport dev)
        ((s.sendUpAs k gen (.haltReport dev)).acted (.systemHalt 0 dev) gen = true)
      exact .inl (by rw [hreport])

/-- A device that was to halt does: its cycles are to stop, or it is in HALTED. -/
def RunCtl.Halting (r r' : RunCtl) : Prop :=
  (r.state = .running ∨ r.state = .replaying → r' = { r with halting := true }) ∧
    (r.state = .loaded ∨ r.state = .paused → r'.state = .halted)

theorem haltHere_halting : s.rc.Halting s.haltHere.rc := by
  refine ⟨fun hlive => ?_, fun hstill => ?_⟩
  · rw [haltHere_live s ((live_iff s).mpr hlive), modRc_rc]
  · rw [haltHere_still s hstill, enterHalted_rc]

/-- A halt is not undone by a second report of it. -/
theorem RunCtl.Halting.again {r r' r'' : RunCtl} (h : r.Halting r') (h' : r'.HaltsTo r'') : r.Halting r'' := by
  obtain ⟨hlive, hstill⟩ := h
  obtain h' | ⟨hrun, h'⟩ | ⟨hheld, h'⟩ := h'
  · exact h' ▸ ⟨hlive, hstill⟩
  · refine ⟨fun hr => by rw [h', hlive hr], fun hr => ?_⟩
    simp [hstill hr] at hrun
  · refine ⟨fun hr => ?_, fun _ => h'⟩
    rw [hlive hr] at hheld
    obtain hr | hr := hr <;> simp [hr] at hheld

/-- A device that is root of a tree halts as it asks for a halt of the system (R133, R218). -/
theorem askHalt_root (hroot : ¬ s.notRoot) (hstate : s.rc.state ≠ .fatal) (hacted : s.acted (.systemHalt 0 0) s.net.gen = false) :
    s.rc.Halting s.askHalt.rc := by
  have hfirst {u : State} {k : Nat} (hk : u.isRoot k = true) (hrc : u.rc = s.rc)
      (hu : u.acted (.systemHalt 0 0) s.net.gen = false) (dev : Nat) : s.rc.Halting (u.haltReport k s.net.gen dev).rc := by
    obtain ⟨v, hv, heq⟩ := haltReport_root u dev hk (by rw [hrc]; exact hstate) hu
    rw [heq, ← hrc, ← hv]
    exact haltHere_halting v
  -- the report on a tree of which the device is no root leaves the other to halt it
  have hsecond {j k : Nat} (hj : s.isRoot j = false) (hk : s.isRoot k = true) (dev dev' : Nat) :
      s.rc.Halting ((s.haltReport j s.net.gen dev).haltReport k s.net.gen dev').rc := by
    obtain ⟨hreport, -, -⟩ := haltReport_reports s dev hj hstate hacted
    exact hfirst (by rw [hreport]; exact hk) (by rw [hreport]) (by rw [State.acted, hreport]; exact hacted) _
  unfold State.askHalt State.bothTrees
  dsimp only
  cases h0 : s.isRoot 0 with
  | true =>
    rw [if_pos rfl]
    cases h1 : s.isRoot 1 with
    | true => exact (hfirst h1 rfl hacted _).again (haltReport_haltsTo _ _ _ _)
    | false => exact hsecond h1 h0 _ _
  | false =>
    rw [if_neg Bool.false_ne_true]
    have h1 : s.isRoot 1 = true := by
      by_contra h1
      exact hroot ⟨h0, Bool.not_eq_true _ ▸ h1⟩
    exact hsecond h0 h1 _ _

/-- A device that is root of neither tree asks for a halt by its report up both (R133, R218). -/
theorem askHalt_notRoot (hroot : s.notRoot) (hstate : s.rc.state ≠ .fatal) (hacted : s.acted (.systemHalt 0 0) s.net.gen = false) :
    s.Reported s.askHalt (s.reportsFor s.net.gen (.haltReport s.devId)) ∧
      ∀ k, k < 2 → (k, Msg.haltReport s.devId) ∈ s.askHalt.net.repeats := by
  obtain ⟨h0, h1⟩ := hroot
  obtain ⟨hreport, hmem, -⟩ := haltReport_reports s s.devId h0 hstate hacted
  have hask : s.askHalt = (s.haltReport 0 s.net.gen s.devId).haltReport 1 s.net.gen s.devId := by
    unfold State.askHalt State.bothTrees
    rw [if_neg (by simp [h0])]
    beta_reduce
    rw [show (s.haltReport 0 s.net.gen s.devId).devId = s.devId by rw [hreport]; rfl]
  obtain ⟨hreport', hmem', hkept⟩ := haltReport_reports (s.haltReport 0 s.net.gen s.devId) s.devId (k := 1) (gen := s.net.gen)
    (by rw [hreport]; exact h1) (by rw [hreport]; exact hstate) (by rw [State.acted, hreport]; exact hacted)
  rw [show (s.haltReport 0 s.net.gen s.devId).setsFor [(s.haltReport 0 s.net.gen s.devId).parent 1] 1 s.net.gen (.haltReport s.devId) =
    s.setsFor [s.parent 1] 1 s.net.gen (.haltReport s.devId) by rw [hreport]; rfl] at hreport'
  rw [hask]
  refine ⟨hreport.trans hreport', fun k hk => ?_⟩
  obtain rfl | rfl : k = 0 ∨ k = 1 := by omega
  · exact hkept _ hmem
  · exact hmem'

/-! ## HALT on a FORERUNNER port (R225, R228) -/

/-- The device writes its record and asks for a halt of the system. -/
theorem exec_netFrHalt_open {p : Nat} (id : Nat) (hopen : s.linkOpen p 2 = true) (hstate : s.rc.state ≠ .fatal) :
    exec (.netFrHalt p id (frSeqSum 6 (id % 256) (id / 256))) s =
      .next (s.record cLink bSysnet 0x050B (p * 2 ^ 29 + id % 2 ^ 13)).askHalt := by
  show execNetFrHalt _ _ _ s = _
  unfold execNetFrHalt
  rw [if_neg (by simp [hopen, hstate])]

theorem keepsRegs_record (a b c d : Nat) (l : List Nat) : s.keepsRegs (s.record a b c d) l :=
  fun off _ hn => rd_record s a b c d off hn

theorem netFrHalt_notRoot {p : Nat} (id : Nat) (hopen : s.linkOpen p 2 = true) (hstate : s.rc.state ≠ .fatal)
    (hacted : s.acted (.systemHalt 0 0) s.net.gen = false) (hroot : s.notRoot) :
    ∃ t, exec (.netFrHalt p id (frSeqSum 6 (id % 256) (id / 256))) s = .next t ∧
      t = { s with csr := t.csr, faults := t.faults, tx := t.tx, lines := t.lines
                   net := { s.net with repeats := t.net.repeats } } ∧
      (∀ k, k < 2 → (s.isUp (s.parent k) = true → (s.link (s.parent k)).peerDown = false →
        TxItem.set (s.parent k) (k + 1) 2 s.net.gen (.haltReport s.devId) ∈ t.tx) ∧
        (k, Msg.haltReport s.devId) ∈ t.net.repeats) ∧ s.keepsRegs t [] := by
  refine ⟨_, exec_netFrHalt_open s id hopen hstate, ?_⟩
  have hnoted := noted_record s cLink bSysnet 0x050B (p * 2 ^ 29 + id % 2 ^ 13)
  have hregs := keepsRegs_record s cLink bSysnet 0x050B (p * 2 ^ 29 + id % 2 ^ 13)
  generalize s.record cLink bSysnet 0x050B (p * 2 ^ 29 + id % 2 ^ 13) = u at hnoted hregs
  have hdev : u.devId = s.devId := fld_congr (hregs [] _ (by simp) (not_mem_noteRegs (by decide))) _ _
  obtain ⟨hreport, hmem⟩ := askHalt_notRoot u (notRoot_congr (hregs _) hroot) (by rw [hnoted]; exact hstate)
    (by rw [State.acted, hnoted]; exact hacted)
  rw [reportsFor_congr (hregs _) (by rw [hnoted]) (by rw [hnoted]), hdev, hnoted.net] at hreport
  rw [hdev] at hmem
  have htx : u.askHalt.tx = u.tx ++ s.reportsFor s.net.gen (.haltReport s.devId) := by rw [hreport]
  refine ⟨?_, fun k hk => ⟨fun hup hdown => ?_, hmem k hk⟩, fun off hoff hn => ?_⟩
  · rw [show u.askHalt.csr = u.csr by rw [hreport], show u.askHalt.faults = u.faults by rw [hreport], htx]
    refine Eq.trans hreport ?_
    rw [hnoted]
  · rw [htx]
    have hsends : s.portSends (s.parent k) = true := by
      rw [State.portSends, show s.flag (Reg.PORT_STAT (s.parent k)) 31 = true from hup, hdown]
      simpa using hstate
    exact List.mem_append_right _ (mem_reportsFor hk hsends _ _)
  · rw [hreport]
    exact hregs [] off hoff hn

theorem netFrHalt_root {p : Nat} (id : Nat) (hopen : s.linkOpen p 2 = true) (hstate : s.rc.state ≠ .fatal)
    (hacted : s.acted (.systemHalt 0 0) s.net.gen = false) (hroot : ¬ s.notRoot) :
    ∃ t, exec (.netFrHalt p id (frSeqSum 6 (id % 256) (id / 256))) s = .next t ∧ (s.live = true → t.rc.halting = true) ∧
      (s.rc.state = .loaded ∨ s.rc.state = .paused → t.rc.state = .halted) := by
  refine ⟨_, exec_netFrHalt_open s id hopen hstate, ?_⟩
  have hnoted := noted_record s cLink bSysnet 0x050B (p * 2 ^ 29 + id % 2 ^ 13)
  have hregs := keepsRegs_record s cLink bSysnet 0x050B (p * 2 ^ 29 + id % 2 ^ 13)
  generalize s.record cLink bSysnet 0x050B (p * 2 ^ 29 + id % 2 ^ 13) = u at hnoted hregs
  have hroot' : ¬ u.notRoot := fun h => hroot (notRoot_congr (fun off _ hn => (hregs [] off (by simp) hn).symm) h)
  obtain ⟨hlive, hstill⟩ := askHalt_root u hroot' (by rw [hnoted]; exact hstate) (by rw [State.acted, hnoted]; exact hacted)
  rw [hnoted.rc] at hlive hstill
  exact ⟨fun h => by rw [hlive ((live_iff s).mp h)], hstill⟩

end
end Sys2Proof.Machine

/-!
The maps are loaded into the shadow bank and swapped (R195, R204, R210, R211, R230).
-/

namespace Sys2Proof.Machine

section
variable (s : State)

/-! ## A write that applies as it is -/

/-- A write that the writable fields take as it is, reserved bits 0, corrects nothing (R10). -/
theorem corrections_nil (fs : List FieldSpec) (off v : Nat)
    (hfields : ∀ f ∈ fs, f.acc = .rw ∨ f.acc = .rww ∨ f.acc = .wo ∨ f.acc = .rwl →
      bits (s.wordAfter fs off v false) f.lsb f.width = bits v f.lsb f.width)
    (hres : ∀ x ∈ reservedRanges fs, bits v x.1 x.2 = 0) : s.corrections fs off v false = [] := by
  unfold State.corrections
  refine List.filterMap_eq_nil_iff.mpr fun i _ => ?_
  cases hf : fs.find? (fun f => f.lsb = i) with
  | some f =>
    have hi : f.lsb = i := by simpa using List.find?_some hf
    have hmem : f ∈ fs := List.mem_of_find?_eq_some hf
    have hkeep := hfields f hmem
    rw [hi] at hkeep
    cases hacc : f.acc <;> simp_all
  | none =>
    cases hr : (reservedRanges fs).find? (fun x => x.1 = i) with
    | none => simp
    | some x =>
      have hi : x.1 = i := by simpa using List.find?_some hr
      have hzero := hres x (List.mem_of_find?_eq_some hr)
      rw [hi] at hzero
      simp [hzero]

/-- A write that nothing forbids and nothing corrects is the write of its word. -/
theorem csrWrite_asIs (init : Initiator) (off v code : Nat) (restricted : FieldSpec → Bool) (fs : List FieldSpec)
    (hspec : (regAt off).map RegSpec.fields = some fs) (hrww : fs.any (fun f => decide (f.acc = .rww)) = false)
    (hfree : fs.any (fun f => restricted f && s.countsAs f off v) = false) (hnil : s.corrections fs off v false = []) :
    s.csrWrite init off v restricted false code = (true, s.wr off (s.wordAfter fs off v false)) := by
  obtain ⟨spec, hat, rfl⟩ := Option.map_eq_some_iff.1 hspec
  unfold State.csrWrite
  rw [hat]
  dsimp only
  rw [hrww, hfree, hnil]
  simp

/-! ## SYSNET at a device that is awake -/

/-- Serving an access is work of the register's domain, and wakes nothing. -/
theorem reach_awake (h : s.awake) (t d : Nat) : s.reach t (some d) = s.touch d := by
  have hstay : ∀ d, s.wakeDom d = s := fun d => if_pos (.inl ⟨(h d).1, by rw [(h d).2]; rfl⟩)
  have hlevel : (s.dom d).level < 2 ∧ (s.dom d).goal.isNone := by rw [(h d).1, (h d).2]; exact ⟨by decide, rfl⟩
  unfold State.reach
  simp only [foldl_stays _ s _ fun d _ => hstay d, ite_self, if_pos hlevel]

variable {s} in
/-- EPR_LOCK depends on no more of the domains than that Shale's works. -/
theorem eprShown_awake {t : State} (hr : ∀ off, off / 0x10_0000 = 0x05 → t.rd off = s.rd off) (hs : t.shale = s.shale)
    (ha : s.awake) (ha' : t.awake) (h : s.eprShown) : t.eprShown := by
  have hlevel : ∀ l, s.eprLock l = ({ s with power := t.power } : State).eprLock l := by
    intro l
    have hdom : ({ s with power := t.power } : State).dom 106 = t.dom 106 := rfl
    unfold State.eprLock State.edgeOn
    rw [hdom, (ha 106).1, (ha' 106).1]
    rfl
  have hshown : ({ s with power := t.power } : State).eprShown := fun l hl => (hlevel l).symm.trans (h l hl)
  exact eprShown_congr (s := { s with power := t.power }) hr rfl hs hshown

/-- The registers of the maps. -/
def mapRegs : List Nat := [Reg.MAP_CTRL, Reg.MAP_SWAP_ECN_HI]

theorem atBlock_net {off : Nat} (hoff : off ∈ mapRegs) (h : s.awake) :
    s.reach (targetOf off) (regDomain off) = s.touch 73 := by
  have hd : regDomain off = some 73 := by
    revert off; decide
  rw [hd, reach_awake s h]

theorem writeReg_net (init : Initiator) {off : Nat} (v : Nat) (hoff : off ∈ mapRegs) :
    s.writeReg init off v = s.writeSysnet init off v := by
  have hplace : ∀ off ∈ mapRegs, inDebugModule off = false ∧ (regAt off).isNone = false ∧ off / 0x10_0000 = 6 ∧
      0x44_0000 ≤ off := by decide +kernel
  obtain ⟨hdebug, hreg, hblock, hlow⟩ := hplace off hoff
  have habsent : s.absentWindow off = false := by
    simp only [State.absentWindow, Bool.or_eq_false_iff, decide_eq_false_iff_not]
    omega
  unfold State.writeReg
  rw [habsent, hdebug, hreg, hblock]
  rfl

/-- A row that writes a register of the maps, where the write leaves the device awake and the lanes' registers alone. -/
theorem writeRow_net (init : Initiator) {off v : Nat} (hv : v < 2 ^ 32) (hoff : off ∈ mapRegs) (h : s.serves init off)
    (ha : ((s.touch 73).writeSysnet init off v).awake)
    (hr : ∀ r, r / 0x10_0000 = 0x05 → ((s.touch 73).writeSysnet init off v).rd r = s.rd r)
    (hs : ((s.touch 73).writeSysnet init off v).shale = s.shale) :
    s.writeRow init off v = ((s.touch 73).writeSysnet init off v).answer 0 := by
  obtain ⟨-, -, hawake, hshown⟩ := id h
  have hplace : ∀ off ∈ mapRegs, off % 4 = 0 ∧ inWindow off = false := by decide
  have hwrite : (s.reach (targetOf off) (regDomain off)).writeReg init off (v % 2 ^ 32) =
      (s.touch 73).writeSysnet init off v := by
    rw [atBlock_net s hoff hawake, writeReg_net _ init _ hoff, Nat.mod_eq_of_lt hv]
  rw [← hwrite] at ha hr hs ⊢
  exact writeRow_serves s init off v h (hplace off hoff).1 (hplace off hoff).2 ha
    (eprShown_awake hr hs hawake ha hshown)

/-! ## MAP_CTRL (R210, R211, R230) -/

/-- The fields of MAP_CTRL. -/
def mapCtrlFields : List FieldSpec :=
  [⟨31, 1, .wo, 0, .no⟩, ⟨30, 1, .wo, 0, .no⟩, ⟨29, 1, .ro, 0, .no⟩, ⟨28, 1, .ro, 0, .no⟩, ⟨27, 1, .ro, 0, .no⟩,
    ⟨26, 1, .ro, 0, .no⟩, ⟨25, 1, .w1c, 0, .no⟩, ⟨0, 1, .ro, 0, .no⟩]

theorem regAt_mapCtrl : (regAt Reg.MAP_CTRL).map RegSpec.fields = some mapCtrlFields := by decide +kernel

/-- LOAD and SWAP_NOW take what is written to them. -/
theorem wordAfter_mapCtrl (v : Nat) :
    let w := s.wordAfter mapCtrlFields Reg.MAP_CTRL v false
    bits w 31 1 = bits v 31 1 ∧ bits w 30 1 = bits v 30 1 := by
  obtain ⟨a, b, c, d, e, f, hword⟩ : ∃ a b c d e f, s.wordAfter mapCtrlFields Reg.MAP_CTRL v false =
      putBits (putBits (putBits (putBits (putBits (putBits (putBits (putBits (s.rd Reg.MAP_CTRL) 31 1 (bits v 31 1))
        30 1 (bits v 30 1)) 29 1 a) 28 1 b) 27 1 c) 26 1 d) 25 1 e) 0 1 f := ⟨_, _, _, _, _, _, rfl⟩
  dsimp only
  rw [hword]
  simp only [bits_putBits_other, bits_putBits_same, Nat.reduceAdd, Nat.reduceLeDiff, or_true]
  exact ⟨Nat.mod_mod_of_dvd _ dvd_rfl, Nat.mod_mod_of_dvd _ dvd_rfl⟩

/-- Of the fields of MAP_CTRL, a write of LOAD or SWAP_NOW alone counts as one of that field. -/
theorem countsAs_mapCtrl (i : Nat) (f : FieldSpec) (hf : f ∈ mapCtrlFields) (h : f.lsb ≠ i) :
    s.countsAs f Reg.MAP_CTRL (2 ^ i) = false := by
  simp only [mapCtrlFields, List.mem_cons, List.not_mem_nil, or_false] at hf
  have hbit : ∀ j, j ≠ i → bits (2 ^ i) j 1 = 0 := fun j hj => by
    rw [bits_one, Nat.testBit_two_pow_of_ne hj.symm]; rfl
  obtain rfl | rfl | rfl | rfl | rfl | rfl | rfl | rfl := hf
  all_goals simp [State.countsAs, hbit _ h]

/-- A write of LOAD or SWAP_NOW alone, which nothing forbids now, is applied. -/
theorem csrWrite_mapCtrl (init : Initiator) (i : Nat) (hi : i = 30 ∨ i = 31)
    (hfree : ∀ f ∈ mapCtrlFields, f.lsb = i → s.netFixed Reg.MAP_CTRL f = false) :
    s.csrWrite init Reg.MAP_CTRL (2 ^ i) (s.netFixed Reg.MAP_CTRL) false 0x0505 =
      (true, s.wr Reg.MAP_CTRL (s.wordAfter mapCtrlFields Reg.MAP_CTRL (2 ^ i) false)) := by
  refine csrWrite_asIs s init _ _ _ _ _ regAt_mapCtrl (by decide) ?_ (corrections_nil s _ _ _ ?_ ?_)
  · refine List.any_eq_false.mpr fun f hf => ?_
    by_cases h : f.lsb = i
    · simp [hfree f hf h]
    · simp [countsAs_mapCtrl s i f hf h]
  · obtain ⟨h31, h30⟩ := wordAfter_mapCtrl s (2 ^ i)
    intro f hf hacc
    simp only [mapCtrlFields, List.mem_cons, List.not_mem_nil, or_false] at hf
    obtain rfl | rfl | rfl | rfl | rfl | rfl | rfl | rfl := hf
    · exact h31
    · exact h30
    all_goals simp at hacc
  · rcases hi with rfl | rfl <;> decide

/-! ## LOAD (R210) -/

theorem netFixed_load (hbusy : s.net.busy = false) (harmed : s.net.armed = none) (hret : s.net.retiring = none)
    (hvar : s.rc.variant = false) (f : FieldSpec) (hf : f.lsb = 31) : s.netFixed Reg.MAP_CTRL f = false := by
  unfold State.netFixed
  rw [if_neg (by decide), if_neg (by decide), if_neg (by decide), if_pos ⟨rfl, hf⟩, hbusy, harmed, hret, hvar]
  rfl

theorem awake_wakeFabric (h : s.awake) : s.wakeFabric.awake := by
  obtain ⟨-, ha⟩ := foldl_wakeCluster_awake s (s.clusterIds.filter s.enabled) h
  unfold State.wakeFabric
  rw [leaveDom_awake 64 ha]
  exact awake_touch 64 ha

/-- A register that is written and then cleared in part is no more than another content of the registers. -/
theorem setFld_wr_eta (off w l k v : Nat) :
    (s.wr off w).setFld off l k v = { s with csr := ((s.wr off w).setFld off l k v).csr } := rfl

/-- LOAD and SWAP_NOW read 0 after a write, and no other register is written. -/
theorem mapCtrl_written (w : Nat) : ∃ c, (s.wr Reg.MAP_CTRL w).setFld Reg.MAP_CTRL 30 2 0 = { s with csr := c } ∧
    ∀ off, off ≠ Reg.MAP_CTRL → ({ s with csr := c } : State).rd off = s.rd off := by
  have heta := setFld_wr_eta s Reg.MAP_CTRL w 30 2 0
  refine ⟨_, heta, fun off h => ?_⟩
  rw [← heta, rd_setFld_other _ _ _ _ _ _ h, rd_wr_other _ _ _ _ h]

/-- What LOAD does, once it is written. -/
def State.mapLoadBegun (s : State) : State :=
  ({ s with net := { s.net with busy := true, shadowReady := false } } : State).wakeFabric

/-- A write of LOAD or SWAP_NOW alone acts on the banks, MAP_CTRL reading 0 in both. -/
theorem writeSysnet_mapCtrl (init : Initiator) (i : Nat) (hi : i = 30 ∨ i = 31)
    (hfree : ∀ f ∈ mapCtrlFields, f.lsb = i → s.netFixed Reg.MAP_CTRL f = false) :
    ∃ c, s.writeSysnet init Reg.MAP_CTRL (2 ^ i) =
        (if i = 30 then ({ s with csr := c } : State).swapBanks else ({ s with csr := c } : State).mapLoadBegun) ∧
      ∀ off, off ≠ Reg.MAP_CTRL → ({ s with csr := c } : State).rd off = s.rd off := by
  obtain ⟨c, hc, hrd⟩ := mapCtrl_written s (s.wordAfter mapCtrlFields Reg.MAP_CTRL (2 ^ i) false)
  have hbits : (2 ^ i).testBit 30 = decide (i = 30) ∧ (2 ^ i).testBit 31 = decide (i = 31) :=
    ⟨Nat.testBit_two_pow, Nat.testBit_two_pow⟩
  refine ⟨c, ?_, hrd⟩
  unfold State.writeSysnet
  rw [csrWrite_mapCtrl s init i hi hfree]
  dsimp only
  rw [if_neg (by decide), if_pos rfl, hc, hbits.1, hbits.2]
  obtain rfl | rfl := hi
  · rfl
  · rfl

theorem exec_load (init : Initiator) (hbusy : s.net.busy = false) (harmed : s.net.armed = none)
    (hret : s.net.retiring = none) (hvar : s.rc.variant = false) (h : s.serves init Reg.MAP_CTRL) :
    ∃ t, exec (.load init) s = .next t ∧ t.awake ∧ s.keepsRegs t [Reg.MAP_CTRL] ∧
      t = { s with csr := t.csr, net := { s.net with busy := true, shadowReady := false }, power := t.power,
                   bus := { data := 0 } } := by
  have hawake : (s.touch 73).awake := awake_touch 73 h.2.2.1
  obtain ⟨c, hwrite, hrd⟩ := writeSysnet_mapCtrl (s.touch 73) init 31 (.inr rfl) fun f _ hf =>
    netFixed_load (s.touch 73) hbusy harmed hret hvar f hf
  have hua := awake_congr (s := s.touch 73)
    (t := { s.touch 73 with csr := c, net := { (s.touch 73).net with busy := true, shadowReady := false } }) rfl hawake
  have hpow := powered_wakeFabric _ hua
  have hwa := awake_wakeFabric _ hua
  rw [if_neg (by decide), State.mapLoadBegun] at hwrite
  generalize State.wakeFabric _ = t at hwrite hpow hwa
  have hkeep : ∀ off, off ≠ Reg.MAP_CTRL → t.rd off = s.rd off := fun off hoff => by
    rw [hpow]; exact hrd off hoff
  refine ⟨t.answer 0, ?_, awake_congr rfl hwa, fun off hoff _ => ?_, ?_⟩
  · show Host.Outcome.next (s.writeRow init Reg.MAP_CTRL (2 ^ 31)) = _
    rw [writeRow_net s init (by decide) (by decide) h, hwrite]
    · rw [hwrite]; exact hwa
    · rw [hwrite]
      exact fun r hr => hkeep r fun e => absurd (e ▸ hr) (by decide)
    · rw [hwrite, hpow]; rfl
  · exact hkeep off (by simpa using hoff)
  · rw [hpow]; rfl

/-! ## SWAP_NOW and the armed swap (R211) -/

theorem netFixed_swapNow (hpre : s.preRun = true) (hready : s.net.shadowReady = true) (f : FieldSpec) (hf : f.lsb = 30) :
    s.netFixed Reg.MAP_CTRL f = false := by
  have hother : ¬ (Reg.MAP_CTRL = Reg.MAP_CTRL ∧ f.lsb = 31) := fun h => absurd (hf.symm.trans h.2) (by decide)
  unfold State.netFixed
  rw [if_neg (by decide), if_neg (by decide), if_neg (by decide), if_neg hother, if_pos ⟨rfl, hf⟩, hpre, hready]
  rfl

theorem swapBanks_eta : s.swapBanks = { s with csr := s.swapBanks.csr, tx := s.swapBanks.tx, net := { s.net with
    active := s.net.shadow, shadow := s.net.active, activeBank := 1 - s.net.activeBank, armed := none
    shadowReady := false } } := raise_eta _ 6 5

theorem rd_swapBanks (off : Nat) (hi : off ≠ Reg.NET_INT_STAT) (hn : off ∉ noteRegs) : s.swapBanks.rd off = s.rd off :=
  rd_raise _ 6 5 off hn fun e => hi (Option.some.inj e).symm

theorem flag_swapBanks : s.swapBanks.flag Reg.NET_INT_STAT 5 = true :=
  flag_raise _ 6 5 Reg.NET_INT_STAT rfl netStat_not_noteRegs (by decide)

theorem exec_swapNow (init : Initiator) (h : s.serves init Reg.MAP_CTRL) (hpre : s.preRun = true)
    (hready : s.net.shadowReady = true) :
    ∃ t, exec (.swapNow init) s = .next t ∧ t = { s.atBlock Reg.MAP_CTRL with csr := t.csr, tx := t.tx, net := { s.net with
        active := s.net.shadow, shadow := s.net.active, activeBank := 1 - s.net.activeBank, armed := none
        shadowReady := false } } ∧
      t.flag Reg.NET_INT_STAT 5 = true ∧ s.keepsRegs t [Reg.MAP_CTRL, Reg.NET_INT_STAT] := by
  have hawake : (s.touch 73).awake := awake_touch 73 h.2.2.1
  obtain ⟨c, hwrite, hrd⟩ := writeSysnet_mapCtrl (s.touch 73) init 30 (.inl rfl) fun f _ hf =>
    netFixed_swapNow (s.touch 73) hpre hready f hf
  rw [if_pos rfl] at hwrite
  have heta := swapBanks_eta { s.touch 73 with csr := c }
  have hflag := flag_swapBanks { s.touch 73 with csr := c }
  have hkeep : ∀ off, off ≠ Reg.MAP_CTRL → off ≠ Reg.NET_INT_STAT → off ∉ noteRegs →
      (State.swapBanks { s.touch 73 with csr := c }).rd off = s.rd off :=
    fun off hoff hi hn => (rd_swapBanks _ off hi hn).trans (hrd off hoff)
  generalize State.swapBanks _ = t at hwrite heta hflag hkeep
  refine ⟨t.answer 0, ?_, ?_, hflag, fun off hoff hn => ?_⟩
  · show Host.Outcome.next (s.writeRow init Reg.MAP_CTRL (2 ^ 30)) = _
    rw [writeRow_net s init (by decide) (by decide) h, hwrite]
    · rw [hwrite]
      exact awake_congr (s := s.touch 73) (by rw [heta]) hawake
    · intro r hr
      have hapart : ∀ off, off / 0x10_0000 ≠ 0x05 → r ≠ off := fun off ho e => ho (e ▸ hr)
      rw [hwrite]
      exact hkeep r (hapart _ (by decide)) (hapart _ (by decide)) (not_mem_noteRegs (by omega))
    · rw [hwrite, heta]; rfl
  · rw [State.atBlock, atBlock_net s (by decide) h.2.2.1, heta]; rfl
  · simp only [List.mem_cons, List.not_mem_nil, or_false, not_or] at hoff
    exact hkeep off hoff.1 hoff.2 hn

/-- The fields of MAP_SWAP_ECN_HI. -/
def swapEcnFields : List FieldSpec := [⟨0, 32, .rw, 0, .no⟩]

theorem regAt_swapEcn : (regAt Reg.MAP_SWAP_ECN_HI).map RegSpec.fields = some swapEcnFields := by decide +kernel

theorem wordAfter_swapEcn (v : Nat) (hv : v < 2 ^ 32) :
    s.wordAfter swapEcnFields Reg.MAP_SWAP_ECN_HI v false = v := by
  have hword : s.wordAfter swapEcnFields Reg.MAP_SWAP_ECN_HI v false =
      putBits (s.rd Reg.MAP_SWAP_ECN_HI) 0 32 (bits v 0 32) := rfl
  rw [hword, bits_whole v 32 hv, putBits_whole _ _ 32 (rd_lt s _) hv]

theorem csrWrite_swapEcn (init : Initiator) (v : Nat) (hv : v < 2 ^ 32) :
    s.csrWrite init Reg.MAP_SWAP_ECN_HI v (s.netFixed Reg.MAP_SWAP_ECN_HI) false 0x0505 =
      (true, s.wr Reg.MAP_SWAP_ECN_HI v) := by
  have hfixed : ∀ f, s.netFixed Reg.MAP_SWAP_ECN_HI f = false := by
    intro f
    unfold State.netFixed
    rw [if_neg (by decide), if_neg (by decide), if_neg (by decide), if_neg (fun h => absurd h.1 (by decide)),
      if_neg (fun h => absurd h.1 (by decide))]
  have hnil : s.corrections swapEcnFields Reg.MAP_SWAP_ECN_HI v false = [] :=
    corrections_nil s _ _ _ (fun f _ _ => by rw [wordAfter_swapEcn s v hv]) fun x hx => absurd hx (by revert x; decide)
  rw [csrWrite_asIs s init _ _ _ _ _ regAt_swapEcn (by decide) (by simp [hfixed]) hnil, wordAfter_swapEcn s v hv]

/-- With a shadow that is ready and no swap armed, before the run, the swap is armed at E. -/
theorem armSwap_arms (hready : s.net.shadowReady = true) (harmed : s.net.armed = none) (hpre : s.preRun = true) :
    s.armSwap = { s with net := { s.net with armed := some (s.rd64 Reg.MAP_SWAP_ECN_LO) } } := by
  unfold State.armSwap
  rw [if_neg (by simp [hready, harmed]), if_neg (by simp [hpre])]

theorem writeSysnet_swapEcn (init : Initiator) (v : Nat) (hv : v < 2 ^ 32) (hready : s.net.shadowReady = true)
    (harmed : s.net.armed = none) (hpre : s.preRun = true) :
    s.writeSysnet init Reg.MAP_SWAP_ECN_HI v = { s.wr Reg.MAP_SWAP_ECN_HI v with
      net := { s.net with armed := some (s.rd Reg.MAP_SWAP_ECN_LO + 2 ^ 32 * v) } } := by
  have hecn : (s.wr Reg.MAP_SWAP_ECN_HI v).rd64 Reg.MAP_SWAP_ECN_LO = s.rd Reg.MAP_SWAP_ECN_LO + 2 ^ 32 * v := by
    rw [State.rd64, rd_wr_other _ _ _ _ (by decide), show Reg.MAP_SWAP_ECN_LO + 4 = Reg.MAP_SWAP_ECN_HI from rfl, rd_wr_same,
      Nat.mod_eq_of_lt hv]
  unfold State.writeSysnet
  rw [csrWrite_swapEcn s init v hv]
  dsimp only
  rw [if_neg (by decide), if_neg (by decide), if_pos rfl, armSwap_arms (s.wr Reg.MAP_SWAP_ECN_HI v) hready harmed hpre, hecn]
  rfl

theorem exec_mapSwapEcnHi (init : Initiator) (v : Nat) (hv : v < 2 ^ 32) (hready : s.net.shadowReady = true)
    (harmed : s.net.armed = none) (hpre : s.preRun = true) (h : s.serves init Reg.MAP_SWAP_ECN_HI) :
    ∃ t, exec (.mapSwapEcnHi init v) s = .next t ∧
      t = { s.atBlock Reg.MAP_SWAP_ECN_HI with
            csr := t.csr
            net := { s.net with armed := some (s.rd Reg.MAP_SWAP_ECN_LO + 2 ^ 32 * v) } } ∧
      s.keepsRegs t [Reg.MAP_SWAP_ECN_HI] := by
  have hwrite := writeSysnet_swapEcn (s.touch 73) init v hv hready harmed hpre
  have hkeep : ∀ off, off ≠ Reg.MAP_SWAP_ECN_HI → ((s.touch 73).writeSysnet init Reg.MAP_SWAP_ECN_HI v).rd off = s.rd off :=
    fun off hoff => by rw [hwrite]; exact rd_wr_other (s.touch 73) _ v off hoff
  refine ⟨((s.touch 73).writeSysnet init Reg.MAP_SWAP_ECN_HI v).answer 0, ?_, ?_, fun off hoff _ => ?_⟩
  · show Host.Outcome.next (s.writeRow init Reg.MAP_SWAP_ECN_HI v) = _
    rw [writeRow_net s init hv (by decide) h]
    · rw [hwrite]
      exact awake_congr (s := s.touch 73) rfl (awake_touch 73 h.2.2.1)
    · exact fun r hr => hkeep r fun e => absurd (e ▸ hr) (by decide)
    · rw [hwrite]; rfl
  · rw [State.atBlock, atBlock_net s (by decide) h.2.2.1, hwrite]; rfl
  · exact hkeep off (by simpa using hoff)

/-! ## The end of a map load (R210) -/

/-- The shadow bank filled from the three images. -/
def State.mapsFilled (s : State) (send recv relay : Map W32) : State :=
  { s with net := { s.net with
      shadow := { send := send, recv := recv, relay := relay }, busy := false, shadowReady := true } }

variable {s} in
theorem exec_mapLoadDone {u v w : State} {a b c : Map W32} (hbusy : s.net.busy = true)
    (ha : s.readMap Reg.MAP_SEND_BASE (s.nClusters * 4096) = (.ok a, u)) (hb : u.readMap Reg.MAP_RECV_BASE 65536 = (.ok b, v))
    (hc : v.readMap Reg.MAP_RELAY_BASE 16384 = (.ok c, w)) (hlen : (w.assemblyWords a).length ≤ 16384) :
    ∃ t, exec .mapLoadDone s = .next t ∧ t.flag Reg.NET_INT_STAT 4 = true ∧
      t = { w with csr := t.csr, tx := t.tx, net := { w.net with
        shadow := { send := a, recv := b, relay := c }, busy := false, shadowReady := true } } := by
  refine ⟨(w.mapsFilled a b c).raise 6 4, ?_, flag_raise _ 6 4 Reg.NET_INT_STAT rfl netStat_not_noteRegs (by decide),
    raise_eta (w.mapsFilled a b c) 6 4⟩
  show execMapLoadDone s = _
  unfold execMapLoadDone
  rw [if_neg (by rw [hbusy]; decide), ha]
  dsimp only
  rw [hb]
  dsimp only
  rw [hc]
  dsimp only
  rw [List.getElem?_eq_none hlen]
  rfl

/-- A load that stops leaves no shadow, the active bank as it was, and says so. -/
theorem mapLoadError_tells (table addr : Nat) (limit : Bool) :
    let t := s.mapLoadError table limit addr
    t.net.busy = false ∧ t.net.shadowReady = false ∧ t.rc.mapErr = true ∧ t.flag Reg.MAP_CTRL 25 = true ∧
      t.flag Reg.NET_INT_STAT 3 = true ∧ t.net.active = s.net.active := by
  have hnote : Reg.MAP_CTRL ∉ noteRegs := not_mem_noteRegs (by decide)
  unfold State.mapLoadError
  extract_lets undef net stopped v t
  have hmap : v.flag Reg.MAP_CTRL 25 = true := flag_setFlag_same _ Reg.MAP_CTRL 25 true (by decide)
  have hrc : v.rc.mapErr = true := by simp [v]
  have hnet : v.net = { s.undefShadow.net with busy := false, shadowReady := false } := by simp [v, stopped, net, undef]
  have hactive : s.undefShadow.net.active = s.net.active := by simp only [State.undefShadow]
  clear_value v
  refine ⟨?_, ?_, ?_, ?_, flag_raise _ 6 3 Reg.NET_INT_STAT rfl netStat_not_noteRegs (by decide), ?_⟩
  · simp [t, hnet]
  · simp [t, hnet]
  · simp [t, hrc]
  · rw [← hmap]
    exact flag_congr ((rd_raise _ 6 3 _ hnote (by decide)).trans (rd_record _ _ _ _ _ _ hnote)) 25
  · simp [t, hnet, hactive]

variable {s} in
theorem exec_mapLoadDone_error {u : State} {x : Nat} (hbusy : s.net.busy = true)
    (hx : s.readMap Reg.MAP_SEND_BASE (s.nClusters * 4096) = (.error x, u)) :
    exec .mapLoadDone s = .next (u.mapLoadError 0 false x) := by
  show execMapLoadDone s = _
  unfold execMapLoadDone
  rw [if_neg (by rw [hbusy]; decide), hx]

end

/-- Settles O45: a lost peer is marked before the device halts as SYSTEM_HALT would have it, and the rows of the maps are
writes of MAP_CTRL and MAP_SWAP_ECN_HI that nothing corrects, at a device that is awake before and after. -/
theorem peersGoDownAndMapsSwap : Obligations.PeersGoDownAndMapsSwap := by
  unfold Obligations.PeersGoDownAndMapsSwap
  refine ⟨⟨?_, ?_⟩, ?_, ?_, ?_, ?_, ?_⟩
  · exact fun s h ecn dev reason htree hbad hcrc hpeer hstate => deviceDown_halts s htree hbad hcrc hpeer hstate
  · intro s p id hopen hstate hacted
    exact ⟨netFrHalt_notRoot s id hopen hstate hacted, netFrHalt_root s id hopen hstate hacted⟩
  · exact fun s init hbusy harmed hret hvar h => exec_load s init hbusy harmed hret hvar h
  · exact fun s u v w a b c hbusy ha hb hc hlen => exec_mapLoadDone hbusy ha hb hc hlen
  · intro s u x hbusy hx
    exact ⟨_, exec_mapLoadDone_error hbusy hx, mapLoadError_tells u 0 x false⟩
  · exact fun s init h hpre hready => exec_swapNow s init h hpre hready
  · exact fun s init v hv hready harmed hpre h => exec_mapSwapEcnHi s init v hv hready harmed hpre h

end Sys2Proof.Machine
